-- ==== Sys2Proof/Word.lean ====
section
/-! DEFINITION. The byte and byte-string types and their plainest arithmetic: little-endian reading and writing
(R1: least significant byte first; R2: bit 0 is the least significant). -/

namespace Sys2Proof

/-- One byte. -/
abbrev Byte := BitVec 8

/-- A string of bytes, lowest address (first on the wire) first. -/
abbrev Bytes := List Byte

/-- `k` bytes of `n`, least significant first (R1). -/
def leBytes (n : Nat) : Nat → Bytes
  | 0 => []
  | k + 1 => BitVec.ofNat 8 n :: leBytes (n / 256) k

/-- The number that a byte string spells, least significant byte first (R1). -/
def ofLe : Bytes → Nat
  | [] => 0
  | b :: bs => b.toNat + 256 * ofLe bs

/-- Bits [hi:lo] of `n` (R2). -/
def bits (n hi lo : Nat) : Nat := (n / 2 ^ lo) % 2 ^ (hi + 1 - lo)

/-- Bit `i` of `n` (R2). -/
def bit (n i : Nat) : Bool := (n / 2 ^ i) % 2 == 1

end Sys2Proof
end

