-- ==== Sys2Proof/Syntax.lean ====
section
/-! DEFINITION. The commands of the block: one constructor of `Instr` per row of spec/opcode_table.json.
The rows give no operands; each constructor carries what the spec says the operation or event brings from outside
(bytes received, a level, a written value, a measurement) and, first, the time `t` at which it occurs, in picoseconds
from power-good (notes/assumptions/1.md). -/

namespace Sys2Proof

/-- The two dies (R12). -/
inductive Die where
  | host | field
deriving DecidableEq, Repr

/-- The two channels of a Slalom segment (R155). -/
inductive Chan where
  | a | b
deriving DecidableEq, Repr

/-- The two ports of a channel at the head: downstream and ring-return (R155, R530). -/
inductive Port where
  | ds | rt
deriving DecidableEq, Repr

/-- The two blades of the Carve engine. -/
inductive Blade where
  | a | b
deriving DecidableEq, Repr

/-- A source of object requests (R82): host port `n` with the pair of IPv4 address and UDP port, or HCAN or FCAN with
the base identifier in use. -/
inductive Source where
  | port (n ip udp : Nat)
  | hcan (base : Nat)
  | fcan (base : Nat)
deriving DecidableEq, Repr

/-- The requester of a write that has a row of its own: its source and the Tag of its request (R86). -/
structure Req where
  src : Source
  tag : Nat
deriving DecidableEq, Repr

/-- Outcome of a checked operation and its one repeat (R31). -/
inductive Upset where
  | none | once | twice
deriving DecidableEq, Repr

/-- A law of the engine: of an axis or of a line unit. -/
inductive LawId where
  | axis (a : Nat)
  | unit (u : Nat)
deriving DecidableEq, Repr

/-- What a position record belongs to: an axis or a local feedback channel (R405). -/
inductive PosKey where
  | axis (a : Nat)
  | channel (c : Nat)
deriving DecidableEq, Repr

/-- What a read of a store line shows (R427, R428). -/
inductive ReadResult where
  | clean | corrected | uncorrectable
deriving DecidableEq, Repr

/-- The last completed output of a sigma-delta input: the normalised value `man * 2 ^ exp` and its age in ns (R302). -/
structure SdOut where
  man : Int
  exp : Int
  age : Nat
deriving DecidableEq, Repr

/-- The fields of a PTP Announce that the best-master algorithm reads (R135). -/
structure Announce where
  domain : Nat
  sender : Nat
  grandmaster : Nat
  priority1 : Nat
  clockClass : Nat
  accuracy : Nat
  variance : Nat
  priority2 : Nat
  steps : Nat
deriving DecidableEq, Repr

/-- The fields of a PTP Sync, Follow_Up or Delay_Resp that the device reads: `stamp` is the time the message carries
(ns), `correction` its correctionField (ns), `interval` its logMessageInterval, `unsupported` marks a message outside
the subset of R135. -/
structure PtpMsg where
  domain : Nat
  sender : Nat
  seq : Nat
  twoStep : Bool
  stamp : Nat
  correction : Int
  interval : Int
  unsupported : Bool
deriving DecidableEq, Repr

/-- The content of a die's status report: object element values (key, value), and whether it carries the clear of
8101h:7 (field to host) or marks that the counts start from that clear (host to field) (R34, R548). -/
structure StatusReport where
  clear : Bool
  vals : List (Nat × Int)
deriving DecidableEq, Repr

/-- How a transmitted CAN frame failed: it lost arbitration; it read dominant where it sent recessive in the DLC, data or
CRC field (R476); it ended in another error. -/
inductive CanErr where
  | arbitration | clash | other
deriving DecidableEq, Repr

/-- A CAN frame (the frame image of 17_can_ports.md). -/
structure CanFrame where
  id : Nat
  xtd : Bool
  rtr : Bool
  dlc : Nat
  fdf : Bool
  brs : Bool
  esi : Bool
  data : Bytes
deriving DecidableEq, Repr

/-- The commands. -/
inductive Instr where
  /-- FRST_N_LOW (R52): a low level on FRST_N of `width` ps. -/
  | frstNLow (t : Nat) (width : Nat)
  /-- FRST_N_RELEASE (R53): release; SSC_SEL straps, locked field PLLs ([0] S, [1] T, [2] D), seal balls read with pull-up and with pull-down. -/
  | frstNRelease (t : Nat) (ssc plls sealUp sealDown : Nat)
  /-- HRST_N_LOW (R51): a low level on HRST_N of `width` ps. -/
  | hrstNLow (t : Nat) (width : Nat)
  /-- HRST_N_RELEASE (R59): release; whether PLL_H is locked. -/
  | hrstNRelease (t : Nat) (pllLocked : Bool)
  /-- POWER_UP_SELF_TEST_COMPLETE (R288): results: Judge passed, failing test bits of blades A and B. -/
  | powerUpSelfTestComplete (t : Nat) (judgeOk : Bool) (bitsA bitsB : Nat)
  /-- TRAINING_COMPLETE (R15): both directions aligned. -/
  | trainingComplete (t : Nat)
  /-- TRAINING_TIMEOUT (R15): a training did not complete within 50 µs. -/
  | trainingTimeout (t : Nat)
  /-- RETRAIN_TIMER (R15): 10 ms while the barrier is down. -/
  | retrainTimer (t : Nat)
  /-- CELL_SLOT (R30): a cell slot of the sender on `die`. -/
  | cellSlot (t : Nat) (die : Die)
  /-- RECEIVE_CELL (R19): 64 bytes arrive at the receiver of `die`; `aligned`: both halves arrived in alignment. -/
  | receiveCell (t : Nat) (die : Die) (aligned : Bool) (cell : Bytes)
  /-- CELL_ACK_TIMEOUT (R21): 20 µs without acknowledgement of `seq` at the sender of `die`. -/
  | cellAckTimeout (t : Nat) (die : Die) (seq : Nat)
  /-- NAK_WAIT_TIMEOUT (R22): 20 µs after the NAK of the receiver of `die`. -/
  | nakWaitTimeout (t : Nat) (die : Die)
  /-- HEARTBEAT_SEND (R25): firmware of `die` sends its Heartbeat. -/
  | heartbeatSend (t : Nat) (die : Die)
  /-- HEARTBEAT_SILENCE_CHECK (R26): the 250 µs check on `die`. -/
  | heartbeatSilenceCheck (t : Nat) (die : Die)
  /-- STATUS_REPORT_TIMER (R27): 100 ms: `die` sends its status report. -/
  | statusReportTimer (t : Nat) (die : Die)
  /-- HOST_STATUS_REPORT (R34): the field die takes the host's report. -/
  | hostStatusReport (t : Nat) (rep : StatusReport)
  /-- FIELD_STATUS_REPORT (R548): the host die takes the field's report. -/
  | fieldStatusReport (t : Nat) (rep : StatusReport)
  /-- FIELD_HEARTBEAT_WAIT (R548): 4 ms after the barrier came up. -/
  | fieldHeartbeatWait (t : Nat)
  /-- FIELD_HELD_TIMER (R52): 1 s after the barrier was lost. -/
  | fieldHeldTimer (t : Nat)
  /-- RESET_HOLD_REPORT (R53): the field die takes the hold time from mailbox 8. -/
  | resetHoldReport (t : Nat) (holdMs : Nat)
  /-- CLEAR_COUNTS (R33): TRUE written to the ClearCounts element of 8100h-8109h (7) or 2720h (8). -/
  | clearCounts (t : Nat) (req : Req) (obj inst : Nat)
  /-- CLEAR_HOST_BARRIER_COUNTS (R34): TRUE written to 8101h:7. -/
  | clearHostBarrierCounts (t : Nat) (req : Req)
  /-- WRITE_MODE_REQUEST (R40): write of 0030h:3. -/
  | writeModeRequest (t : Nat) (req : Req) (value : Nat)
  /-- CONTROLLED_STOP_COMPLETE (R41): every axis at standstill after request 02h. -/
  | controlledStopComplete (t : Nat)
  /-- WRITE_SAFE_HOLD_ACK (R44): write of 0030h:6. -/
  | writeSafeHoldAck (t : Nat) (req : Req) (value : Nat)
  /-- HOST_LOSS_GRACE_EXPIRY (R56): the grace timer ends. -/
  | hostLossGraceExpiry (t : Nat)
  /-- LOAD_TRANSFER_TIMEOUT (R39): 100 ms without a cell to mailboxes 0-2. -/
  | loadTransferTimeout (t : Nat)
  /-- DOWNLOAD_BLOCK (R68): Block packet. -/
  | downloadBlock (t : Nat) (src : Source) (packet : Bytes)
  /-- DOWNLOAD_END (R73): End packet. -/
  | downloadEnd (t : Nat) (src : Source) (packet : Bytes)
  /-- DOWNLOAD_ABORT (R73): Abort packet. -/
  | downloadAbort (t : Nat) (src : Source) (packet : Bytes)
  /-- DOWNLOAD_SESSION_TIMEOUT (R67): 1 s without a packet of the session's source. -/
  | downloadSessionTimeout (t : Nat)
  /-- FORWARD_FIELD_BLOCK (R71): the host die writes the next checked field block to its mailbox. -/
  | forwardFieldBlock (t : Nat)
  /-- FIRMWARE_BLOCK (R71): the field die takes a firmware block; `readback`: the 1,024 bytes read back from SRAM. -/
  | firmwareBlock (t : Nat) (mailbox : Nat) (msg readback : Bytes)
  /-- BLOCK_RESULT (R71): the host die takes a block result. -/
  | blockResult (t : Nat) (mailbox result : Nat)
  /-- LOAD_CONTROL_BEGIN (R547): load control Begin at the field die. -/
  | loadControlBegin (t : Nat) (msg : Bytes)
  /-- LOAD_CONTROL_END (R73): load control End at the field die. -/
  | loadControlEnd (t : Nat) (msg : Bytes)
  /-- LOAD_CONTROL_ABORT (R547): load control Abort at the field die. -/
  | loadControlAbort (t : Nat) (msg : Bytes)
  /-- LOAD_CONTROL_REJOIN (R58): load control Rejoin at the field die. -/
  | loadControlRejoin (t : Nat) (msg : Bytes)
  /-- LOAD_STATUS (R546): load status at the host die. -/
  | loadStatus (t : Nat) (msg : Bytes)
  /-- VERIFY_DIGEST_COMPLETE (R74): a digest computation ends; `upset`: it was disturbed and matches nothing. -/
  | verifyDigestComplete (t : Nat) (upset : Bool)
  /-- FIELD_FIRMWARE_HEARTBEAT_TIMEOUT (R75): 100 ms after phase start. -/
  | fieldFirmwareHeartbeatTimeout (t : Nat)
  /-- HOST_PART_HEARTBEAT_TIMEOUT (R75): 100 ms after the host part was started. -/
  | hostPartHeartbeatTimeout (t : Nat)
  /-- REJOIN_STATUS_TIMEOUT (R77): 100 ms after a Rejoin. -/
  | rejoinStatusTimeout (t : Nat)
  /-- WRITE_KEY_SLOT1 (R65): write of 0040h:2. -/
  | writeKeySlot1 (t : Nat) (req : Req) (value : Bytes)
  /-- ROLLBACK_ADVANCE (R76): TRUE written to 0020h:8. -/
  | rollbackAdvance (t : Nat) (req : Req)
  /-- HCAN_BOOT_WAKE (R79): data of a classical frame 540h. -/
  | hcanBootWake (t : Nat) (data : Bytes)
  /-- HCAN_DOWNLOAD_FRAGMENT (R80): 64-byte frame on 542h. -/
  | hcanDownloadFragment (t : Nat) (data : Bytes)
  /-- OBJECT_READ (R89): Read request of `src` at the server of `site`. -/
  | objectRead (t : Nat) (site : Die) (src : Source) (msg : Bytes)
  /-- OBJECT_WRITE (R97): Write request. -/
  | objectWrite (t : Nat) (site : Die) (src : Source) (msg : Bytes)
  /-- OBJECT_DESCRIBE (R91): Describe request. -/
  | objectDescribe (t : Nat) (site : Die) (src : Source) (msg : Bytes)
  /-- OBJECT_NEXT (R91): Next request. -/
  | objectNext (t : Nat) (site : Die) (src : Source) (msg : Bytes)
  /-- FORWARD_REQUEST (R81): the host die forwards the oldest queued request to mailbox 4 or 5. -/
  | forwardRequest (t : Nat) (mailbox : Nat)
  /-- OBJECT_RESPONSE (R95): the host die takes a field response for `src`. -/
  | objectResponse (t : Nat) (src : Source) (msg : Bytes)
  /-- FORWARD_TIMEOUT (R95): 500 ms after receipt. -/
  | forwardTimeout (t : Nat) (src : Source) (tag : Nat)
  /-- RESPONSE_CACHE_EXPIRY (R94): 2 s after the response was kept. -/
  | responseCacheExpiry (t : Nat) (src : Source) (tag : Nat)
  /-- STAGING_TIMEOUT (R90): 10 s without a touch of the staging copy. -/
  | stagingTimeout (t : Nat) (obj el inst : Nat)
  /-- COMMIT (R103): 01h written to Command of commit record `rec`. -/
  | commit (t : Nat) (req : Req) (rec inst : Nat)
  /-- DISCARD (R104): 02h written to Command of commit record `rec`. -/
  | discard (t : Nat) (req : Req) (rec inst : Nat)
  /-- EDIT_TIMEOUT (R102): 10 s without a touch of the edit. -/
  | editTimeout (t : Nat) (rec inst : Nat)
  /-- CAN_OBJECT_FRAGMENT (R108): a fragment on base identifier `base` of HCAN (host) or FCAN (field). -/
  | canObjectFragment (t : Nat) (port : Die) (base : Nat) (data : Bytes)
  /-- GATE_RESPONSE_TIMEOUT (R111): 2 ms without a response of the gate. -/
  | gateResponseTimeout (t : Nat) (seg pos : Nat)
  /-- LATCH_INSTANT (R124): L_k; `sd`: last completed output of each sigma-delta input, normalised, with its age. -/
  | latchInstant (t : Nat) (sd : List SdOut)
  /-- FRAME_LAUNCH (R125): L_k + 1.0 µs; launch residual in ps. -/
  | frameLaunch (t : Nat) (residual : Nat)
  /-- WRITE_SET_TIME (R130): write of 7000h:3 (TIME as an 80-bit little-endian number). -/
  | writeSetTime (t : Nat) (req : Req) (value : Nat)
  /-- WRITE_INCREMENT (R130): write of 7000h:2. -/
  | writeIncrement (t : Nat) (req : Req) (value : Nat)
  /-- WRITE_STEERING (R131): write of 7000h:4. -/
  | writeSteering (t : Nat) (req : Req) (value : Nat)
  /-- PTP_ANNOUNCE (R135): an Announce at host port `port`. -/
  | ptpAnnounce (t : Nat) (port : Nat) (a : Announce)
  /-- PTP_SYNC (R135): a Sync. -/
  | ptpSync (t : Nat) (port : Nat) (m : PtpMsg)
  /-- PTP_FOLLOW_UP (R136): a Follow_Up. -/
  | ptpFollowUp (t : Nat) (port : Nat) (m : PtpMsg)
  /-- PTP_DELAY_RESP (R135): a Delay_Resp to this port. -/
  | ptpDelayResp (t : Nat) (port : Nat) (m : PtpMsg)
  /-- PTP_DELAY_REQ_TIMER (R135): the Delay_Req interval ends. -/
  | ptpDelayReqTimer (t : Nat)
  /-- ANNOUNCE_TIMEOUT (R135): 3 announce intervals without Announce. -/
  | announceTimeout (t : Nat)
  /-- TIME_MESSAGE_TIMER (R136): 1 s outside slave state. -/
  | timeMessageTimer (t : Nat)
  /-- TIME_MESSAGE (R138): the field die takes a time message. -/
  | timeMessage (t : Nat) (msg : Bytes)
  /-- DEVICE_TIME_REPORT_TIMER (R137): 1 s on the field die. -/
  | deviceTimeReportTimer (t : Nat)
  /-- DEVICE_TIME_REPORT (R137): the host die takes a device time report. -/
  | deviceTimeReport (t : Nat) (msg : Bytes)
  /-- PLANT_TIME_TIMEOUT (R139): 3 s without a time message. -/
  | plantTimeTimeout (t : Nat)
  /-- RECEIVE_SOF (R184): an SOF at the head; `ident`: the identity of the head that sent the frame. -/
  | receiveSof (t : Nat) (seg : Nat) (ch : Chan) (port : Port) (ident : Nat)
  /-- RECEIVE_FRAME_BLOCK (R163): 264 bytes: a frame block's payload and trailer; `corrupted`: a line block was corrupted (R144). -/
  | receiveFrameBlock (t : Nat) (seg : Nat) (ch : Chan) (port : Port) (block : Bytes) (corrupted : Bool)
  /-- WINDOW_WAIT_EXPIRY (R163): 200 ns after the other copy was due. -/
  | windowWaitExpiry (t : Nat) (seg pos : Nat)
  /-- RECEIVE_EOF (R166): EOF of a returning copy. -/
  | receiveEof (t : Nat) (seg : Nat) (ch : Chan) (crc : Nat) (blocks : Nat)
  /-- SOF_RETURN_TIMEOUT (R204): 1 µs after the expected return. -/
  | sofReturnTimeout (t : Nat) (seg : Nat) (ch : Chan)
  /-- SEGMENT_START (R182): the head enables the segment's ports. -/
  | segmentStart (t : Nat) (seg : Nat)
  /-- BLOCK_LOCK_TIMEOUT (R182): 100 ms after the start. -/
  | blockLockTimeout (t : Nat) (seg : Nat)
  /-- CLAIM_ROUND (R183): the next round begins. -/
  | claimRound (t : Nat) (seg : Nat)
  /-- RECEIVE_CLAIM (R184): a CLAIM at the head. -/
  | receiveClaim (t : Nat) (seg : Nat) (ch : Chan) (port : Port) (ident round : Nat)
  /-- CLAIM_WON (R185): 1.0 ms after round 3. -/
  | claimWon (t : Nat) (seg : Nat)
  /-- RECEIVE_LINK_NUMBER (R188): the Number block returns. -/
  | receiveLinkNumber (t : Nat) (seg : Nat) (ch : Chan) (port : Port) (value : Nat)
  /-- RECEIVE_LINK_VERIFY (R189): a Verify block returns. -/
  | receiveLinkVerify (t : Nat) (seg : Nat) (ch : Chan) (port : Port) (value : Nat)
  /-- LINK_RETURN_TIMEOUT (R188): 1.0 ms without the Number or Verify block. -/
  | linkReturnTimeout (t : Nat) (seg : Nat)
  /-- RECEIVE_DELAY_RESPONSE (R190): a DELAY response (or the returned request); T_rt and turnaround in ps. -/
  | receiveDelayResponse (t : Nat) (seg : Nat) (ch : Chan) (pos : Nat) (isResponse : Bool) (trt turnaround : Nat)
  /-- DELAY_TIMEOUT (R190): 1.0 ms without a DELAY response. -/
  | delayTimeout (t : Nat) (seg : Nat) (ch : Chan)
  /-- CYCLIC_WAIT_EXPIRY (R197): 64 frames without becoming cyclic. -/
  | cyclicWaitExpiry (t : Nat) (seg : Nat)
  /-- RECEIVE_PORT_REPORT (R207): a PortReport. -/
  | receivePortReport (t : Nat) (seg : Nat) (ch : Chan) (pos lockBits corrupted : Nat) (looped : Bool)
  /-- WRITE_RESTART (R208): TRUE written to 1120h:5. -/
  | writeRestart (t : Nat) (req : Req) (seg : Nat)
  /-- AUTO_RESTART_TIMER (R208): 100 ms after failure, then every 1 s. -/
  | autoRestartTimer (t : Nat) (seg : Nat)
  /-- STAGE_COMPLETE (R224): the stage in service on `blade` for `axis` ends. -/
  | stageComplete (t : Nat) (blade : Blade) (axis : Nat) (upset : Upset)
  /-- LAW_COMPLETE (R246): a law completes; `copyBad`: its output fails the frame writer's check. -/
  | lawComplete (t : Nat) (blade : Blade) (axis : Nat) (copyBad : Bool)
  /-- OUTPUT_RECOPY (R274): the second copy of an output arrives. -/
  | outputRecopy (t : Nat) (blade : Blade) (law : LawId) (good : Bool)
  /-- OUTPUT_CUTOFF (R246): L_k + P + 500 ns. -/
  | outputCutoff (t : Nat)
  /-- WRITE_FAULT_ACK (R251): TRUE written to 2160h:5. -/
  | writeFaultAck (t : Nat) (req : Req) (axis : Nat)
  /-- WRITE_FORCE_REGION (R263): write of 2170h:2. -/
  | writeForceRegion (t : Nat) (req : Req) (axis value : Nat)
  /-- GOVERNOR_EVAL_INTERVAL (R268): EvalInterval ends. -/
  | governorEvalInterval (t : Nat)
  /-- GOVERNOR_SETTLE (R270): SettleTime after a VOUT_COMMAND. -/
  | governorSettle (t : Nat)
  /-- PMBUS_TRANSACTION_COMPLETE (R270): the PMBus transaction in progress ends. -/
  | pmbusTransactionComplete (t : Nat) (ack pecOk : Bool) (data : Nat)
  /-- BLADE_HEARTBEAT_LOSS (R273): 200 Judge cycles without a toggle. -/
  | bladeHeartbeatLoss (t : Nat) (blade : Blade)
  /-- BLADE_LASTING_FAULT (R276): a lasting fault report. -/
  | bladeLastingFault (t : Nat) (blade : Blade) (cause : Nat)
  /-- REVOCATION_ACK (R282): the output stage acknowledges. -/
  | revocationAck (t : Nat) (blade : Blade)
  /-- REVOCATION_ACK_TIMEOUT (R276): 2.0 µs after the grant. -/
  | revocationAckTimeout (t : Nat) (blade : Blade)
  /-- TAKEOVER_COMPLETE (R278): the first replay has been written. -/
  | takeoverComplete (t : Nat)
  /-- BLADE_SELF_TEST_COMPLETE (R282): failing test bits, 0 pass. -/
  | bladeSelfTestComplete (t : Nat) (blade : Blade) (bits : Nat)
  /-- JUDGE_HEARTBEAT_LOSS (R290): 4.0 µs without a Judge toggle. -/
  | judgeHeartbeatLoss (t : Nat)
  /-- WRITE_SWAP_REQUEST (R291): TRUE written to 9020h:3. -/
  | writeSwapRequest (t : Nat) (req : Req)
  /-- LINE_LAW_COMPLETE (R307): the law of a line unit completes on `blade`; `copyBad`: its output fails the frame writer's check (R274). -/
  | lineLawComplete (t : Nat) (blade : Blade) (unit : Nat) (copyBad : Bool)
  /-- LINE_START (R312): 01h written to 3030h:5. -/
  | lineStart (t : Nat) (req : Req) (unit : Nat)
  /-- LINE_STOP (R312): 02h written to 3030h:5. -/
  | lineStop (t : Nat) (req : Req) (unit : Nat)
  /-- LINE_RESET_TRIP (R312): 03h written to 3030h:5. -/
  | lineResetTrip (t : Nat) (req : Req) (unit : Nat)
  /-- DEAD_BUS_TIMER (R311): 100 ms of dead bus. -/
  | deadBusTimer (t : Nat) (unit : Nat)
  /-- SYNC_CLOSE_TIMER (R315): 100 ms of the close conditions. -/
  | syncCloseTimer (t : Nat) (unit : Nat)
  /-- BREAKER_TIMEOUT (R313): BreakerTime after the close command. -/
  | breakerTimeout (t : Nat) (unit : Nat)
  /-- RIDE_RECOVER_TIMER (R318): RecoverTime of the recovery conditions. -/
  | rideRecoverTimer (t : Nat) (unit : Nat)
  /-- MAX_RIDE_TIME_EXPIRY (R318): MaxRideTime after entry into Riding. -/
  | maxRideTimeExpiry (t : Nat) (unit : Nat)
  /-- SIGMA_DELTA_STUCK (R305): 256 modulator clocks at one level. -/
  | sigmaDeltaStuck (t : Nat) (input : Nat)
  /-- SIGMA_DELTA_RECOVERY (R305): 16 ms without a stuck run. -/
  | sigmaDeltaRecovery (t : Nat) (input : Nat)
  /-- GLIDE_RESUME (R337): 01h written to 3110h:2. -/
  | glideResume (t : Nat) (req : Req) (group : Nat)
  /-- GLIDE_RELEASE (R337): 02h written to 3110h:2. -/
  | glideRelease (t : Nat) (req : Req) (group : Nat)
  /-- GLIDE_EXHAUST_TIMER (R339): ExhaustTime of the exhaustion conditions. -/
  | glideExhaustTimer (t : Nat) (unit : Nat)
  /-- MOVE_APPEND (R353): 01h written to 2210h:8. -/
  | moveAppend (t : Nat) (req : Req) (axis : Nat)
  /-- RUN_VELOCITY (R356): 02h written to 2210h:8. -/
  | runVelocity (t : Nat) (req : Req) (axis : Nat)
  /-- ENGAGE_GEAR (R359): 03h written to 2210h:8. -/
  | engageGear (t : Nat) (req : Req) (axis : Nat)
  /-- ENGAGE_CAM (R362): 04h written to 2210h:8. -/
  | engageCam (t : Nat) (req : Req) (axis : Nat)
  /-- HOME (R364): 05h written to 2210h:8. -/
  | home (t : Nat) (req : Req) (axis : Nat)
  /-- STOP_RAMP (R349): 06h written to 2210h:8. -/
  | stopRamp (t : Nat) (req : Req) (axis : Nat)
  /-- FLUSH (R355): 07h written to 2210h:8. -/
  | flush (t : Nat) (req : Req) (axis : Nat)
  /-- HARD_STOP_TIMER (R365): 10 ms of HardStopError. -/
  | hardStopTimer (t : Nat) (axis : Nat)
  /-- HOMING_TIMEOUT (R367): HomingTime after the homing began. -/
  | homingTimeout (t : Nat) (axis : Nat)
  /-- FEEDBACK_TRANSITION (R376): a sample instant at which raw levels changed: [0] HA, [1] HB, [2] HC, [3] A, [4] B, [5] Z. -/
  | feedbackTransition (t : Nat) (channel : Nat) (levels : Nat)
  /-- MINEDGE_EXPIRY (R376): MinEdge after the last accepted transition of `line`. -/
  | minedgeExpiry (t : Nat) (channel line : Nat)
  /-- WRITE_ARM (R390): TRUE written to 2710h:14. -/
  | writeArm (t : Nat) (req : Req) (channel : Nat)
  /-- CHECKPOINT_TIMER (R408): the effective checkpoint interval ends. -/
  | checkpointTimer (t : Nat)
  /-- LIFE_INTERVAL_TIMER (R407): the stretched LifeInterval ends. -/
  | lifeIntervalTimer (t : Nat)
  /-- PROOF_RECORD_SECOND_END (R407): the second since the last proof record ends. -/
  | proofRecordSecondEnd (t : Nat) (key : PosKey)
  /-- LINE_WRITE_COMPLETE (R396): a line write ends; `ok`: verify passed. -/
  | lineWriteComplete (t : Nat) (ok : Bool)
  /-- PFAIL_N_FALL (R410): falling edge of PFAIL_N. -/
  | pfailNFall (t : Nat)
  /-- PFAIL_N_RISE (R411): rising edge of PFAIL_N. -/
  | pfailNRise (t : Nat)
  /-- VNV_MONITOR_TRIP (R525): VNV falls to 1.70 V. -/
  | vnvMonitorTrip (t : Nat)
  /-- VNV_WRITE_LIMIT (R411): VNV falls below 1.55 V. -/
  | vnvWriteLimit (t : Nat)
  /-- RECOVERY_COMPLETE (R413): store recovery ends; lines whose read stayed uncorrectable. -/
  | recoveryComplete (t : Nat) (badLines : List Nat)
  /-- SET_STORE (R421): 01h written to 5070h:1. -/
  | setStore (t : Nat) (req : Req)
  /-- SET_RESTORE_PREVIOUS (R421): 02h written to 5070h:1. -/
  | setRestorePrevious (t : Nat) (req : Req)
  /-- SET_RESTORE_FACTORY (R421): 03h written to 5070h:1. -/
  | setRestoreFactory (t : Nat) (req : Req)
  /-- SET_WRITE_COMPLETE (R421): a set write or load ends. -/
  | setWriteComplete (t : Nat) (ok : Bool)
  /-- WRITE_FORMAT (R432): write of 5000h:8. -/
  | writeFormat (t : Nat) (req : Req) (value : Nat)
  /-- WRITE_READ_FROM (R426): write of 5060h:3. -/
  | writeReadFrom (t : Nat) (req : Req) (value : Nat)
  /-- ACCOUNTING_HOUR (R425): a new accounting hour begins. -/
  | accountingHour (t : Nat)
  /-- SCRUB_LINE (R428): the scrubber reads a line at the margin, at the nominal reference, and (where that is uncorrectable) once more. -/
  | scrubLine (t : Nat) (line : Nat) (marginClean : Bool) (nominal again : ReadResult)
  /-- SAFETY_INPUT_SAMPLE (R451): raw levels of SAFE_IN15..0 and output readback of SAFE_OUT7..0; residue errors of the judgement. -/
  | safetyInputSample (t : Nat) (levels readback : Nat) (upset : Upset)
  /-- STOP_TIME_EXPIRY (R444): StopTime after L_s. -/
  | stopTimeExpiry (t : Nat) (axis : Nat)
  /-- SAFETY_RESET (R448): TRUE written to 4040h:5. -/
  | safetyReset (t : Nat) (req : Req) (axis : Nat)
  /-- TEST_PULSE (R452): a test pulse of TPS0/TPS1 with the input levels read in its check window. -/
  | testPulse (t : Nat) (source : Nat) (levels : Nat)
  /-- TEST_PULSE_REPEAT (R452): the repeat pulse on one input. -/
  | testPulseRepeat (t : Nat) (source input : Nat) (level : Bool)
  /-- OUTPUT_TEST_PULSE (R453): SAFE_OUTn is driven off for its test. -/
  | outputTestPulse (t : Nat) (output : Nat)
  /-- OUTPUT_READBACK_CHECK (R453): readback 200 µs after an edge (or at a sample of an off output): `on` it reads on. -/
  | outputReadbackCheck (t : Nat) (output : Nat) (on : Bool)
  /-- OUTPUT_TEST_REPEAT (R455): the repeated check 10 ms later. -/
  | outputTestRepeat (t : Nat) (output : Nat) (good : Bool)
  /-- OUTPUT_FAULT_CLEAR (R455): 1 s of good off readback. -/
  | outputFaultClear (t : Nat) (output : Nat)
  /-- SEAL_READ (R457): the seal balls read with pull-up and with pull-down. -/
  | sealRead (t : Nat) (sealUp sealDown : Nat)
  /-- CAN_INIT (R470): write of CTRL.INIT. -/
  | canInit (t : Nat) (port : Die) (value : Bool)
  /-- CAN_TXQ_PUSH (R471): PUSH. -/
  | canTxqPush (t : Nat) (port : Die) (tag : Nat)
  /-- CAN_TXQ_CANCEL (R474): CANCEL. -/
  | canTxqCancel (t : Nat) (port : Die) (tag : Nat)
  /-- CAN_TXQ_FLUSH (R471): FLUSH. -/
  | canTxqFlush (t : Nat) (port : Die)
  /-- CAN_TXQ_RESULT_READ (R474): read of xCAN_TXQ_RESULT. -/
  | canTxqResultRead (t : Nat) (port : Die)
  /-- CAN_SLOT_DUE (R473): xCAN_TSC reaches DUE. -/
  | canSlotDue (t : Nat) (port : Die) (slot : Nat)
  /-- CAN_SLOT_WINDOW_EXPIRY (R473): DUE + WINDOW passed. -/
  | canSlotWindowExpiry (t : Nat) (port : Die) (slot : Nat)
  /-- CAN_ARBITRATION (R472): an arbitration opportunity. -/
  | canArbitration (t : Nat) (port : Die)
  /-- CAN_FRAME_SENT (R474): the frame on the bus completed; measured delay. -/
  | canFrameSent (t : Nat) (port : Die) (tdcv : Nat)
  /-- CAN_TX_ERROR (R476): the frame on the bus lost arbitration or ended in an error. -/
  | canTxError (t : Nat) (port : Die) (kind : CanErr)
  /-- CAN_FRAME_RECEIVED (R477): a frame received; xCAN_TSC at its SOF. -/
  | canFrameReceived (t : Nat) (port : Die) (sof : Nat) (frame : CanFrame)
  /-- CAN_PROTOCOL_EXCEPTION (R466): a recessive res bit. -/
  | canProtocolException (t : Nat) (port : Die)
  /-- BUS_OFF_RECOVERY (R475): 128 sequences of 11 recessive bits. -/
  | busOffRecovery (t : Nat) (port : Die)
  /-- LIFT_ENQUEUE (R488): write of LFT_ENQ_CMD. -/
  | liftEnqueue (t : Nat) (core queue : Nat)
  /-- LIFT_GET (R485): read of LFT_GET. -/
  | liftGet (t : Nat) (core : Nat)
  /-- LIFT_DONE (R486): write of LFT_DONE. -/
  | liftDone (t : Nat) (core : Nat)
  /-- LIFT_SLEEP (R482): write of LFT_SLEEP. -/
  | liftSleep (t : Nat) (core : Nat)
  /-- LIFT_QUEUE_CONFIG (R490): write of LFT_QCFGq. -/
  | liftQueueConfig (t : Nat) (queue value : Nat)
  /-- WATCHDOG_KICK (R483): write of LFT_WDOG_KICK. -/
  | watchdogKick (t : Nat) (core value : Nat)
  /-- CORE_WATCHDOG (R483): the watchdog of a core expires. -/
  | coreWatchdog (t : Nat) (core : Nat)
  /-- FLOW_OVERRUN (R489): an item in service exceeds LFT_FLOWLIMIT. -/
  | flowOverrun (t : Nat) (core : Nat)
  /-- MAILBOX_SEND (R491): SEND on internal mailbox m. -/
  | mailboxSend (t : Nat) (core m len : Nat)
  /-- MAILBOX_TAKE (R492): TAKE on internal mailbox m. -/
  | mailboxTake (t : Nat) (core m count : Nat)
  /-- BARRIER_MAILBOX_SEND (R27): SEND on MBX_BTXb. -/
  | barrierMailboxSend (t : Nat) (b len : Nat)
  /-- BARRIER_MAILBOX_TAKE (R493): TAKE on MBX_BRXb. -/
  | barrierMailboxTake (t : Nat) (b count : Nat)
  /-- EVENT_REPORT_SEND (R497): the field die sends its event report. -/
  | eventReportSend (t : Nat)
  /-- EVENT_REPORT_RECEIVED (R497): the field die takes host-die events. -/
  | eventReportReceived (t : Nat) (msg : Bytes)
  /-- BUS_ERROR_ACCESS (R481): a core access. -/
  | busErrorAccess (t : Nat) (core addr width : Nat) (write user : Bool)
  /-- REGISTER_WRITE (R481): a 32-bit register write. -/
  | registerWrite (t : Nat) (site : Die) (core addr value : Nat) (user : Bool)
  /-- CAPTURE_ARM (R502): ARM. -/
  | captureArm (t : Nat) (unit : Nat)
  /-- CAPTURE_FORCE (R504): FORCE. -/
  | captureForce (t : Nat) (unit : Nat)
  /-- CAPTURE_ABORT (R505): ABORT. -/
  | captureAbort (t : Nat) (unit : Nat)
  /-- CAPTURE_RELEASE (R506): RELEASE. -/
  | captureRelease (t : Nat) (unit : Nat)
  /-- CAPTURE_SAMPLE (R501): a sample instant; binary32 outputs of the sigma-delta decimators of a fast-clocked unit. -/
  | captureSample (t : Nat) (unit : Nat) (sd : List Nat)
  /-- CAPTURE_HOLDOFF_EXPIRY (R504): the hold-off time ends. -/
  | captureHoldoffExpiry (t : Nat) (unit : Nat)
  /-- CLOCK_CHECK_WINDOW (R517): a count window ends: 1 PLL_S, 2 PLL_T, 3 PLL_D, 4 PLL_H; deviation from the expected count. -/
  | clockCheckWindow (t : Nat) (pll : Nat) (ppm : Int)
  /-- PLL_RELOCK (R517): a PLL relocks. -/
  | pllRelock (t : Nat) (pll : Nat)
  /-- SUPPLY_MONITOR_RESET (R521): rails below threshold, bit per row of the table of supply rails. -/
  | supplyMonitorReset (t : Nat) (die : Die) (rails : Nat)
  /-- SUPPLY_RESET_RELEASE (R521): 1 ms after the rail returned. -/
  | supplyResetRelease (t : Nat) (die : Die)
  /-- BLOCK_LOCK_ACQUIRED (R182): block lock on the downstream port. -/
  | blockLockAcquired (t : Nat) (seg : Nat) (ch : Chan)
  /-- PORT_QUERY_TIMEOUT (R207): no PortReport. -/
  | portQueryTimeout (t : Nat) (seg : Nat) (ch : Chan)
  /-- PLL_LOCK (R516): every PLL of a die shows lock after its release. -/
  | pllLock (t : Nat) (die : Die)
  /-- CAN_RECEIVE_ERROR (R466): a frame of another node ends in an error. -/
  | canReceiveError (t : Nat) (port : Die)
  /-- FIELD_EVENT_REPORT (R497): the host die takes an event report. -/
  | fieldEventReport (t : Nat) (msg : Bytes)
  /-- THERMAL_SAMPLE (R545): the sensor's reading in °C. -/
  | thermalSample (t : Nat) (die : Die) (temp : Int)
deriving DecidableEq, Repr

/-- The instant at which a command occurs, ps from power-good. -/
def Instr.time : Instr → Nat
  | .frstNLow t _ => t
  | .frstNRelease t _ _ _ _ => t
  | .hrstNLow t _ => t
  | .hrstNRelease t _ => t
  | .powerUpSelfTestComplete t _ _ _ => t
  | .trainingComplete t => t
  | .trainingTimeout t => t
  | .retrainTimer t => t
  | .cellSlot t _ => t
  | .receiveCell t _ _ _ => t
  | .cellAckTimeout t _ _ => t
  | .nakWaitTimeout t _ => t
  | .heartbeatSend t _ => t
  | .heartbeatSilenceCheck t _ => t
  | .statusReportTimer t _ => t
  | .hostStatusReport t _ => t
  | .fieldStatusReport t _ => t
  | .fieldHeartbeatWait t => t
  | .fieldHeldTimer t => t
  | .resetHoldReport t _ => t
  | .clearCounts t _ _ _ => t
  | .clearHostBarrierCounts t _ => t
  | .writeModeRequest t _ _ => t
  | .controlledStopComplete t => t
  | .writeSafeHoldAck t _ _ => t
  | .hostLossGraceExpiry t => t
  | .loadTransferTimeout t => t
  | .downloadBlock t _ _ => t
  | .downloadEnd t _ _ => t
  | .downloadAbort t _ _ => t
  | .downloadSessionTimeout t => t
  | .forwardFieldBlock t => t
  | .firmwareBlock t _ _ _ => t
  | .blockResult t _ _ => t
  | .loadControlBegin t _ => t
  | .loadControlEnd t _ => t
  | .loadControlAbort t _ => t
  | .loadControlRejoin t _ => t
  | .loadStatus t _ => t
  | .verifyDigestComplete t _ => t
  | .fieldFirmwareHeartbeatTimeout t => t
  | .hostPartHeartbeatTimeout t => t
  | .rejoinStatusTimeout t => t
  | .writeKeySlot1 t _ _ => t
  | .rollbackAdvance t _ => t
  | .hcanBootWake t _ => t
  | .hcanDownloadFragment t _ => t
  | .objectRead t _ _ _ => t
  | .objectWrite t _ _ _ => t
  | .objectDescribe t _ _ _ => t
  | .objectNext t _ _ _ => t
  | .forwardRequest t _ => t
  | .objectResponse t _ _ => t
  | .forwardTimeout t _ _ => t
  | .responseCacheExpiry t _ _ => t
  | .stagingTimeout t _ _ _ => t
  | .commit t _ _ _ => t
  | .discard t _ _ _ => t
  | .editTimeout t _ _ => t
  | .canObjectFragment t _ _ _ => t
  | .gateResponseTimeout t _ _ => t
  | .latchInstant t _ => t
  | .frameLaunch t _ => t
  | .writeSetTime t _ _ => t
  | .writeIncrement t _ _ => t
  | .writeSteering t _ _ => t
  | .ptpAnnounce t _ _ => t
  | .ptpSync t _ _ => t
  | .ptpFollowUp t _ _ => t
  | .ptpDelayResp t _ _ => t
  | .ptpDelayReqTimer t => t
  | .announceTimeout t => t
  | .timeMessageTimer t => t
  | .timeMessage t _ => t
  | .deviceTimeReportTimer t => t
  | .deviceTimeReport t _ => t
  | .plantTimeTimeout t => t
  | .receiveSof t _ _ _ _ => t
  | .receiveFrameBlock t _ _ _ _ _ => t
  | .windowWaitExpiry t _ _ => t
  | .receiveEof t _ _ _ _ => t
  | .sofReturnTimeout t _ _ => t
  | .segmentStart t _ => t
  | .blockLockTimeout t _ => t
  | .claimRound t _ => t
  | .receiveClaim t _ _ _ _ _ => t
  | .claimWon t _ => t
  | .receiveLinkNumber t _ _ _ _ => t
  | .receiveLinkVerify t _ _ _ _ => t
  | .linkReturnTimeout t _ => t
  | .receiveDelayResponse t _ _ _ _ _ _ => t
  | .delayTimeout t _ _ => t
  | .cyclicWaitExpiry t _ => t
  | .receivePortReport t _ _ _ _ _ _ => t
  | .writeRestart t _ _ => t
  | .autoRestartTimer t _ => t
  | .stageComplete t _ _ _ => t
  | .lawComplete t _ _ _ => t
  | .outputRecopy t _ _ _ => t
  | .outputCutoff t => t
  | .writeFaultAck t _ _ => t
  | .writeForceRegion t _ _ _ => t
  | .governorEvalInterval t => t
  | .governorSettle t => t
  | .pmbusTransactionComplete t _ _ _ => t
  | .bladeHeartbeatLoss t _ => t
  | .bladeLastingFault t _ _ => t
  | .revocationAck t _ => t
  | .revocationAckTimeout t _ => t
  | .takeoverComplete t => t
  | .bladeSelfTestComplete t _ _ => t
  | .judgeHeartbeatLoss t => t
  | .writeSwapRequest t _ => t
  | .lineLawComplete t _ _ _ => t
  | .lineStart t _ _ => t
  | .lineStop t _ _ => t
  | .lineResetTrip t _ _ => t
  | .deadBusTimer t _ => t
  | .syncCloseTimer t _ => t
  | .breakerTimeout t _ => t
  | .rideRecoverTimer t _ => t
  | .maxRideTimeExpiry t _ => t
  | .sigmaDeltaStuck t _ => t
  | .sigmaDeltaRecovery t _ => t
  | .glideResume t _ _ => t
  | .glideRelease t _ _ => t
  | .glideExhaustTimer t _ => t
  | .moveAppend t _ _ => t
  | .runVelocity t _ _ => t
  | .engageGear t _ _ => t
  | .engageCam t _ _ => t
  | .home t _ _ => t
  | .stopRamp t _ _ => t
  | .flush t _ _ => t
  | .hardStopTimer t _ => t
  | .homingTimeout t _ => t
  | .feedbackTransition t _ _ => t
  | .minedgeExpiry t _ _ => t
  | .writeArm t _ _ => t
  | .checkpointTimer t => t
  | .lifeIntervalTimer t => t
  | .proofRecordSecondEnd t _ => t
  | .lineWriteComplete t _ => t
  | .pfailNFall t => t
  | .pfailNRise t => t
  | .vnvMonitorTrip t => t
  | .vnvWriteLimit t => t
  | .recoveryComplete t _ => t
  | .setStore t _ => t
  | .setRestorePrevious t _ => t
  | .setRestoreFactory t _ => t
  | .setWriteComplete t _ => t
  | .writeFormat t _ _ => t
  | .writeReadFrom t _ _ => t
  | .accountingHour t => t
  | .scrubLine t _ _ _ _ => t
  | .safetyInputSample t _ _ _ => t
  | .stopTimeExpiry t _ => t
  | .safetyReset t _ _ => t
  | .testPulse t _ _ => t
  | .testPulseRepeat t _ _ _ => t
  | .outputTestPulse t _ => t
  | .outputReadbackCheck t _ _ => t
  | .outputTestRepeat t _ _ => t
  | .outputFaultClear t _ => t
  | .sealRead t _ _ => t
  | .canInit t _ _ => t
  | .canTxqPush t _ _ => t
  | .canTxqCancel t _ _ => t
  | .canTxqFlush t _ => t
  | .canTxqResultRead t _ => t
  | .canSlotDue t _ _ => t
  | .canSlotWindowExpiry t _ _ => t
  | .canArbitration t _ => t
  | .canFrameSent t _ _ => t
  | .canTxError t _ _ => t
  | .canFrameReceived t _ _ _ => t
  | .canProtocolException t _ => t
  | .busOffRecovery t _ => t
  | .liftEnqueue t _ _ => t
  | .liftGet t _ => t
  | .liftDone t _ => t
  | .liftSleep t _ => t
  | .liftQueueConfig t _ _ => t
  | .watchdogKick t _ _ => t
  | .coreWatchdog t _ => t
  | .flowOverrun t _ => t
  | .mailboxSend t _ _ _ => t
  | .mailboxTake t _ _ _ => t
  | .barrierMailboxSend t _ _ => t
  | .barrierMailboxTake t _ _ => t
  | .eventReportSend t => t
  | .eventReportReceived t _ => t
  | .busErrorAccess t _ _ _ _ _ => t
  | .registerWrite t _ _ _ _ _ => t
  | .captureArm t _ => t
  | .captureForce t _ => t
  | .captureAbort t _ => t
  | .captureRelease t _ => t
  | .captureSample t _ _ => t
  | .captureHoldoffExpiry t _ => t
  | .clockCheckWindow t _ _ => t
  | .pllRelock t _ => t
  | .supplyMonitorReset t _ _ => t
  | .supplyResetRelease t _ => t
  | .blockLockAcquired t _ _ => t
  | .portQueryTimeout t _ _ => t
  | .pllLock t _ => t
  | .canReceiveError t _ => t
  | .fieldEventReport t _ => t
  | .thermalSample t _ _ => t

end Sys2Proof
end

