-- ==== Sys2Proof/WellFormed.lean ====
section
/-! DEFINITION. Well-formed commands: operands in the ranges the spec gives the things they name. -/

namespace Sys2Proof

/-- A barrier cell is 64 bytes (R16). -/
def cellOk (c : Bytes) : Bool := c.length == 64
/-- Segments are 0-3 (R10, R530). -/
def segOk (s : Nat) : Bool := decide (s < 4)
/-- Axis numbers are 0-511 (R4). -/
def axisOk (a : Nat) : Bool := decide (a < 512)
/-- Line-unit numbers are 0-7 (R4). -/
def unitOk (u : Nat) : Bool := decide (u < 8)
/-- Feedback channels are 0-7 (14_feedback_channels.md). -/
def channelOk (c : Nat) : Bool := decide (c < 8)
/-- Gate positions are 1-4,095 (R155). -/
def posOk (p : Nat) : Bool := decide (1 ≤ p ∧ p < 4096)
/-- Service cores are 0-7. -/
def coreOk (c : Nat) : Bool := decide (c < 8)
/-- Lift queues are 0-63. -/
def queueOk (q : Nat) : Bool := decide (q < 64)
/-- Object messages have a 16-byte header and at most 1,024 bytes of value (R86, R87). -/
def msgOk (m : Bytes) : Bool := decide (16 ≤ m.length)
/-- A law names an axis or a unit in range. -/
def lawOk : LawId → Bool
  | .axis a => axisOk a
  | .unit u => unitOk u
/-- A position record names an axis or a channel in range (R405). -/
def posKeyOk : PosKey → Bool
  | .axis a => axisOk a
  | .channel c => channelOk c
/-- A requester on a host port is on port 0 or 1 (R82). -/
def srcOk : Source → Bool
  | .port n _ _ => decide (n < 2)
  | .hcan b => decide (b < 2048)
  | .fcan b => decide (b < 2048)
/-- A request's Tag is a U16 (R86). -/
def reqOk (r : Req) : Bool := srcOk r.src && decide (r.tag < 65536)

/-- Every operand lies in its range. -/
def Instr.wf : Instr → Bool
  | .frstNLow _ _ => true
  | .frstNRelease _ _ _ _ _ => true
  | .hrstNLow _ _ => true
  | .hrstNRelease _ _ => true
  | .powerUpSelfTestComplete _ _ _ _ => true
  | .trainingComplete _  => true
  | .trainingTimeout _  => true
  | .retrainTimer _  => true
  | .cellSlot _ _ => true
  | .receiveCell _ _ _ cell => cellOk cell
  | .cellAckTimeout _ _ seq => decide (seq < 65536)
  | .nakWaitTimeout _ _ => true
  | .heartbeatSend _ _ => true
  | .heartbeatSilenceCheck _ _ => true
  | .statusReportTimer _ _ => true
  | .hostStatusReport _ _ => true
  | .fieldStatusReport _ _ => true
  | .fieldHeartbeatWait _  => true
  | .fieldHeldTimer _  => true
  | .resetHoldReport _ _ => true
  | .clearCounts _ req _ _ => reqOk req
  | .clearHostBarrierCounts _ req => reqOk req
  | .writeModeRequest _ req _ => reqOk req
  | .controlledStopComplete _  => true
  | .writeSafeHoldAck _ req _ => reqOk req
  | .hostLossGraceExpiry _  => true
  | .loadTransferTimeout _  => true
  | .downloadBlock _ src _ => srcOk src
  | .downloadEnd _ src _ => srcOk src
  | .downloadAbort _ src _ => srcOk src
  | .downloadSessionTimeout _  => true
  | .forwardFieldBlock _  => true
  | .firmwareBlock _ mailbox _ _ => decide (mailbox < 16)
  | .blockResult _ mailbox _ => decide (mailbox < 16)
  | .loadControlBegin _ _ => true
  | .loadControlEnd _ _ => true
  | .loadControlAbort _ _ => true
  | .loadControlRejoin _ _ => true
  | .loadStatus _ _ => true
  | .verifyDigestComplete _ _ => true
  | .fieldFirmwareHeartbeatTimeout _  => true
  | .hostPartHeartbeatTimeout _  => true
  | .rejoinStatusTimeout _  => true
  | .writeKeySlot1 _ req _ => reqOk req
  | .rollbackAdvance _ req => reqOk req
  | .hcanBootWake _ _ => true
  | .hcanDownloadFragment _ _ => true
  | .objectRead _ _ src msg => srcOk src && msgOk msg
  | .objectWrite _ _ src msg => srcOk src && msgOk msg
  | .objectDescribe _ _ src msg => srcOk src && msgOk msg
  | .objectNext _ _ src msg => srcOk src && msgOk msg
  | .forwardRequest _ mailbox => decide (mailbox < 16)
  | .objectResponse _ src msg => srcOk src && msgOk msg
  | .forwardTimeout _ src _ => srcOk src
  | .responseCacheExpiry _ src _ => srcOk src
  | .stagingTimeout _ _ _ _ => true
  | .commit _ req _ _ => reqOk req
  | .discard _ req _ _ => reqOk req
  | .editTimeout _ _ _ => true
  | .canObjectFragment _ _ _ _ => true
  | .gateResponseTimeout _ seg pos => segOk seg && posOk pos
  | .latchInstant _ _ => true
  | .frameLaunch _ _ => true
  | .writeSetTime _ req _ => reqOk req
  | .writeIncrement _ req _ => reqOk req
  | .writeSteering _ req _ => reqOk req
  | .ptpAnnounce _ port _ => decide (port < 2)
  | .ptpSync _ port _ => decide (port < 2)
  | .ptpFollowUp _ port _ => decide (port < 2)
  | .ptpDelayResp _ port _ => decide (port < 2)
  | .ptpDelayReqTimer _  => true
  | .announceTimeout _  => true
  | .timeMessageTimer _  => true
  | .timeMessage _ _ => true
  | .deviceTimeReportTimer _  => true
  | .deviceTimeReport _ _ => true
  | .plantTimeTimeout _  => true
  | .receiveSof _ seg _ _ _ => segOk seg
  | .receiveFrameBlock _ seg _ _ block _ => segOk seg && decide (block.length = 264)
  | .windowWaitExpiry _ seg pos => segOk seg && posOk pos
  | .receiveEof _ seg _ _ _ => segOk seg
  | .sofReturnTimeout _ seg _ => segOk seg
  | .segmentStart _ seg => segOk seg
  | .blockLockTimeout _ seg => segOk seg
  | .claimRound _ seg => segOk seg
  | .receiveClaim _ seg _ _ _ _ => segOk seg
  | .claimWon _ seg => segOk seg
  | .receiveLinkNumber _ seg _ _ _ => segOk seg
  | .receiveLinkVerify _ seg _ _ _ => segOk seg
  | .linkReturnTimeout _ seg => segOk seg
  | .receiveDelayResponse _ seg _ pos _ _ _ => segOk seg && posOk pos
  | .delayTimeout _ seg _ => segOk seg
  | .cyclicWaitExpiry _ seg => segOk seg
  | .receivePortReport _ seg _ pos _ _ _ => segOk seg && posOk pos
  | .writeRestart _ req seg => reqOk req && segOk seg
  | .autoRestartTimer _ seg => segOk seg
  | .stageComplete _ _ axis _ => axisOk axis
  | .lawComplete _ _ axis _ => axisOk axis
  | .outputRecopy _ _ law _ => lawOk law
  | .outputCutoff _  => true
  | .writeFaultAck _ req axis => reqOk req && axisOk axis
  | .writeForceRegion _ req axis _ => reqOk req && axisOk axis
  | .governorEvalInterval _  => true
  | .governorSettle _  => true
  | .pmbusTransactionComplete _ _ _ _ => true
  | .bladeHeartbeatLoss _ _ => true
  | .bladeLastingFault _ _ _ => true
  | .revocationAck _ _ => true
  | .revocationAckTimeout _ _ => true
  | .takeoverComplete _  => true
  | .bladeSelfTestComplete _ _ _ => true
  | .judgeHeartbeatLoss _  => true
  | .writeSwapRequest _ req => reqOk req
  | .lineLawComplete _ _ unit _ => unitOk unit
  | .lineStart _ req unit => reqOk req && unitOk unit
  | .lineStop _ req unit => reqOk req && unitOk unit
  | .lineResetTrip _ req unit => reqOk req && unitOk unit
  | .deadBusTimer _ unit => unitOk unit
  | .syncCloseTimer _ unit => unitOk unit
  | .breakerTimeout _ unit => unitOk unit
  | .rideRecoverTimer _ unit => unitOk unit
  | .maxRideTimeExpiry _ unit => unitOk unit
  | .sigmaDeltaStuck _ input => decide (input < 16)
  | .sigmaDeltaRecovery _ input => decide (input < 16)
  | .glideResume _ req group => reqOk req && decide (group < 8)
  | .glideRelease _ req group => reqOk req && decide (group < 8)
  | .glideExhaustTimer _ unit => unitOk unit
  | .moveAppend _ req axis => reqOk req && axisOk axis
  | .runVelocity _ req axis => reqOk req && axisOk axis
  | .engageGear _ req axis => reqOk req && axisOk axis
  | .engageCam _ req axis => reqOk req && axisOk axis
  | .home _ req axis => reqOk req && axisOk axis
  | .stopRamp _ req axis => reqOk req && axisOk axis
  | .flush _ req axis => reqOk req && axisOk axis
  | .hardStopTimer _ axis => axisOk axis
  | .homingTimeout _ axis => axisOk axis
  | .feedbackTransition _ channel _ => channelOk channel
  | .minedgeExpiry _ channel line => channelOk channel && decide (line < 6)
  | .writeArm _ req channel => reqOk req && channelOk channel
  | .checkpointTimer _  => true
  | .lifeIntervalTimer _  => true
  | .proofRecordSecondEnd _ key => posKeyOk key
  | .lineWriteComplete _ _ => true
  | .pfailNFall _  => true
  | .pfailNRise _  => true
  | .vnvMonitorTrip _  => true
  | .vnvWriteLimit _  => true
  | .recoveryComplete _ _ => true
  | .setStore _ req => reqOk req
  | .setRestorePrevious _ req => reqOk req
  | .setRestoreFactory _ req => reqOk req
  | .setWriteComplete _ _ => true
  | .writeFormat _ req _ => reqOk req
  | .writeReadFrom _ req _ => reqOk req
  | .accountingHour _  => true
  | .scrubLine _ line _ _ _ => decide (line < 524288)
  | .safetyInputSample _ _ _ _ => true
  | .stopTimeExpiry _ axis => axisOk axis
  | .safetyReset _ req axis => reqOk req && axisOk axis
  | .testPulse _ source _ => decide (source < 2)
  | .testPulseRepeat _ source input _ => decide (source < 2) && decide (input < 16)
  | .outputTestPulse _ output => decide (output < 8)
  | .outputReadbackCheck _ output _ => decide (output < 8)
  | .outputTestRepeat _ output _ => decide (output < 8)
  | .outputFaultClear _ output => decide (output < 8)
  | .sealRead _ _ _ => true
  | .canInit _ _ _ => true
  | .canTxqPush _ _ _ => true
  | .canTxqCancel _ _ _ => true
  | .canTxqFlush _ _ => true
  | .canTxqResultRead _ _ => true
  | .canSlotDue _ _ slot => decide (slot < 8)
  | .canSlotWindowExpiry _ _ slot => decide (slot < 8)
  | .canArbitration _ _ => true
  | .canFrameSent _ _ _ => true
  | .canTxError _ _ _ => true
  | .canFrameReceived _ _ _ _ => true
  | .canProtocolException _ _ => true
  | .busOffRecovery _ _ => true
  | .liftEnqueue _ core queue => coreOk core && queueOk queue
  | .liftGet _ core => coreOk core
  | .liftDone _ core => coreOk core
  | .liftSleep _ core => coreOk core
  | .liftQueueConfig _ queue _ => queueOk queue
  | .watchdogKick _ core _ => coreOk core
  | .coreWatchdog _ core => coreOk core
  | .flowOverrun _ core => coreOk core
  | .mailboxSend _ core m _ => coreOk core && decide (m < 32)
  | .mailboxTake _ core m _ => coreOk core && decide (m < 32)
  | .barrierMailboxSend _ b _ => decide (b < 16)
  | .barrierMailboxTake _ b _ => decide (b < 16)
  | .eventReportSend _  => true
  | .eventReportReceived _ _ => true
  | .busErrorAccess _ core _ _ _ _ => coreOk core
  | .registerWrite _ _ core _ _ _ => coreOk core
  | .captureArm _ unit => decide (unit < 4)
  | .captureForce _ unit => decide (unit < 4)
  | .captureAbort _ unit => decide (unit < 4)
  | .captureRelease _ unit => decide (unit < 4)
  | .captureSample _ unit _ => decide (unit < 4)
  | .captureHoldoffExpiry _ unit => decide (unit < 4)
  | .clockCheckWindow _ pll _ => decide (1 ≤ pll ∧ pll < 5)
  | .pllRelock _ pll => decide (1 ≤ pll ∧ pll < 5)
  | .supplyMonitorReset _ _ _ => true
  | .supplyResetRelease _ _ => true
  | .blockLockAcquired _ seg _ => segOk seg
  | .portQueryTimeout _ seg _ => segOk seg
  | .pllLock _ _ => true
  | .canReceiveError _ _ => true
  | .fieldEventReport _ _ => true
  | .thermalSample _ _ _ => true

end Sys2Proof
end

