-- ==== Sys2Proof/Config.lean ====
section
/-! DEFINITION. What one implementation fixes and what the spec leaves open: constants without a body, so that no proof
can see a value (notes/assumptions say which rule leaves each open). -/

namespace Sys2Proof.Config

/-- A free value that the spec leaves open, drawn with the state's counter. -/
opaque freeBool : Nat → Bool
/-- A free number that the spec leaves open, drawn with the state's counter. -/
opaque freeNat : Nat → Nat
/-- 0001h:3 Serial, per device (R64). -/
opaque serial : Nat
/-- 0001h:4 HeadIdentity, per device (R64). -/
opaque headIdentity : Nat
/-- 0001h:5 BootRomVersion, per device (R64). -/
opaque bootRomVersion : Nat
/-- 0040h:1 KeySlot0, programmed by Dorov before shipping (R63). -/
opaque keySlot0 : Bytes
/-- Number of elements of F000h, Dorov's factory data (R93). -/
opaque factoryCount : Nat
/-- Content of element n of F000h. -/
opaque factoryData : Nat → Bytes
/-- The payload bytes of a host status report, whose layout the spec does not give (R27). -/
opaque hostReportBytes : List (Nat × Int) → Bytes
/-- The payload bytes of a field status report, whose layout the spec does not give (R27). -/
opaque fieldReportBytes : List (Nat × Int) → Bytes
/-- The payload bytes of a mode command, a mode report, a safety acknowledgement, a safety status report or a reset-hold
report (mailboxes 6, 7, 8), whose layouts the spec does not give (R27): mailbox number and content. -/
opaque mailBytes : Nat → List Nat → Bytes
/-- Interpolated sine table of the line law: angle as a U32 fraction of a turn; value in units of 2^-22 (R307). -/
opaque sinTable : Nat → Int
/-- Arc tangent of y / x in turns as a U32 fraction, of the pairs mantissa, exponent (R307). -/
opaque atan2Table : Int → Int → Int → Int → Nat
/-- tan in binary64 of a binary64 operand, mantissa and exponent (R231). -/
opaque tan64 : Int → Int → Int × Int
/-- 10 to the power of a binary64 operand in binary64, mantissa and exponent (R231). -/
opaque pow10 : Int → Int → Int × Int

end Sys2Proof.Config
end

