-- ==== Sys2Proof/Machine/Flags.lean ====
section
/-! DEFINITION. Flags and counts: setting a bit of a status word, write-one-to-clear, counts that saturate. -/

namespace Sys2Proof.Machine

/-- `n` with bit `i` set to `b`. -/
def setBit (n i : Nat) (b : Bool) : Nat :=
  if bit n i == b then n else if b then n + 2 ^ i else n - 2 ^ i

/-- Write-one-to-clear of a flag: `v` carries a 1 in bit `i`. -/
def w1c (flag : Bool) (v i : Nat) : Bool := flag && !bit v i

/-- Saturation of a U32 count (R33 and the count rules of every chapter). -/
def sat32 (n : Nat) : Nat := min n 0xFFFFFFFF

end Sys2Proof.Machine
end

