-- ==== Sys2Proof/Machine/Bits.lean ====
section
/-! DEFINITION. Byte-string helpers, the two CRCs (R17, R148) and SHA-256 (FIPS 180-4, named by R61 to R74). -/

namespace Sys2Proof.Machine

/-- Byte `i` of `bs` as a number; 0 beyond its end. -/
def byteAt (bs : Bytes) (i : Nat) : Nat := (bs.getD i 0).toNat

/-- `k` bytes of `bs` from `i`. -/
def slice (bs : Bytes) (i k : Nat) : Bytes := (bs.drop i).take k

/-- The little-endian number in `k` bytes from `i` (R1). -/
def leAt (bs : Bytes) (i k : Nat) : Nat := ofLe (slice bs i k)

/-- `bs` padded with zero bytes, or cut, to `k` bytes. -/
def fit (bs : Bytes) (k : Nat) : Bytes := bs.take k ++ List.replicate (k - bs.length) 0

/-- `bs` with `xs` written from offset `i` on (bytes beyond its end are not written). -/
def splice (bs : Bytes) (i : Nat) (xs : Bytes) : Bytes :=
  bs.take i ++ xs.take (bs.length - i) ++ bs.drop (i + xs.length)

/-- `k` zero bytes. -/
def zeros (k : Nat) : Bytes := List.replicate k 0

/-- True when every byte is zero. -/
def allZero (bs : Bytes) : Bool := bs.all (· == 0)

/-- The bytes of an ASCII string. -/
def ascii (s : String) : Bytes := s.toList.map fun c => BitVec.ofNat 8 c.toNat

/-- Signed reading of the low `w` bits of `n` (two's complement). -/
def toSigned (w n : Nat) : Int :=
  let m := n % 2 ^ w
  if m < 2 ^ (w - 1) then (m : Int) else (m : Int) - (2 ^ w : Nat)

/-- The low `w` bits of a two's-complement integer. -/
def ofSigned (w : Nat) (i : Int) : Nat := (i % (2 ^ w : Nat)).toNat

/-- `n` rounded up to a multiple of `k`. -/
def roundUp (n k : Nat) : Nat := (n + k - 1) / k * k

/-! ### CRC-32 (R17) -/

/-- One bit of the reflected CRC-32: polynomial 04C1_1DB7h reflected is EDB8_8320h. -/
def crc32Bit : Nat → Nat → Nat
  | 0, c => c
  | k + 1, c => crc32Bit k (if c % 2 == 1 then Nat.xor (c / 2) 0xEDB88320 else c / 2)

/-- One byte of the CRC-32 register. -/
def crc32Byte (c : Nat) (b : Byte) : Nat := crc32Bit 8 (Nat.xor c b.toNat)

/-- CRC-32 of R17: reflected, initial value and final exclusive-or FFFF_FFFFh. -/
def crc32 (bs : Bytes) : Nat := Nat.xor (bs.foldl crc32Byte 0xFFFFFFFF) 0xFFFFFFFF

/-! ### CRC-16 (R148) -/

/-- One bit of the CRC-16, most significant first, polynomial 1021h. -/
def crc16Bit : Nat → Nat → Nat
  | 0, c => c
  | k + 1, c => crc16Bit k (if c / 32768 % 2 == 1 then Nat.xor (c * 2 % 65536) 0x1021 else c * 2 % 65536)

/-- One byte of the CRC-16 register. -/
def crc16Byte (c : Nat) (b : Byte) : Nat := crc16Bit 8 (Nat.xor c (b.toNat * 256))

/-- CRC-16 of R148: no reflection, initial value FFFFh, no final exclusive-or. -/
def crc16 (bs : Bytes) : Nat := bs.foldl crc16Byte 0xFFFF

/-! ### SHA-256 (FIPS 180-4) -/

/-- The round constants. -/
def shaK : List Nat :=
  [0x428a2f98, 0x71374491, 0xb5c0fbcf, 0xe9b5dba5, 0x3956c25b, 0x59f111f1, 0x923f82a4, 0xab1c5ed5,
   0xd807aa98, 0x12835b01, 0x243185be, 0x550c7dc3, 0x72be5d74, 0x80deb1fe, 0x9bdc06a7, 0xc19bf174,
   0xe49b69c1, 0xefbe4786, 0x0fc19dc6, 0x240ca1cc, 0x2de92c6f, 0x4a7484aa, 0x5cb0a9dc, 0x76f988da,
   0x983e5152, 0xa831c66d, 0xb00327c8, 0xbf597fc7, 0xc6e00bf3, 0xd5a79147, 0x06ca6351, 0x14292967,
   0x27b70a85, 0x2e1b2138, 0x4d2c6dfc, 0x53380d13, 0x650a7354, 0x766a0abb, 0x81c2c92e, 0x92722c85,
   0xa2bfe8a1, 0xa81a664b, 0xc24b8b70, 0xc76c51a3, 0xd192e819, 0xd6990624, 0xf40e3585, 0x106aa070,
   0x19a4c116, 0x1e376c08, 0x2748774c, 0x34b0bcb5, 0x391c0cb3, 0x4ed8aa4a, 0x5b9cca4f, 0x682e6ff3,
   0x748f82ee, 0x78a5636f, 0x84c87814, 0x8cc70208, 0x90befffa, 0xa4506ceb, 0xbef9a3f7, 0xc67178f2]

/-- The initial hash value. -/
def shaH0 : List Nat :=
  [0x6a09e667, 0xbb67ae85, 0x3c6ef372, 0xa54ff53a, 0x510e527f, 0x9b05688c, 0x1f83d9ab, 0x5be0cd19]

/-- 32-bit rotation right. -/
def rotr (n k : Nat) : Nat := Nat.lor (n / 2 ^ k) (n * 2 ^ (32 - k) % 4294967296)

/-- Big-endian 32-bit word of four bytes. -/
def beWord (a b c d : Byte) : Nat := ((a.toNat * 256 + b.toNat) * 256 + c.toNat) * 256 + d.toNat

/-- The words of a byte string, big-endian. -/
def beWords : Bytes → List Nat
  | a :: b :: c :: d :: r => beWord a b c d :: beWords r
  | _ => []

/-- Extension of the message schedule by `k` words; `w` holds the words newest first. -/
def shaSchedule : Nat → List Nat → List Nat
  | 0, w => w
  | k + 1, w =>
    let x := w.getD 14 0
    let y := w.getD 1 0
    let s0 := Nat.xor (Nat.xor (rotr x 7) (rotr x 18)) (x / 8)
    let s1 := Nat.xor (Nat.xor (rotr y 17) (rotr y 19)) (y / 1024)
    shaSchedule k ((w.getD 15 0 + s0 + w.getD 6 0 + s1) % 4294967296 :: w)

/-- The eight working variables. -/
structure ShaVars where
  a : Nat
  b : Nat
  c : Nat
  d : Nat
  e : Nat
  f : Nat
  g : Nat
  h : Nat
deriving DecidableEq, Repr

/-- One round, with the sum of its round constant and message word. -/
def shaRound (v : ShaVars) (kw : Nat) : ShaVars :=
  let s1 := Nat.xor (Nat.xor (rotr v.e 6) (rotr v.e 11)) (rotr v.e 25)
  let ch := Nat.xor (Nat.land v.e v.f) (Nat.land (4294967295 - v.e) v.g)
  let t1 := v.h + s1 + ch + kw
  let s0 := Nat.xor (Nat.xor (rotr v.a 2) (rotr v.a 13)) (rotr v.a 22)
  let mj := Nat.xor (Nat.xor (Nat.land v.a v.b) (Nat.land v.a v.c)) (Nat.land v.b v.c)
  let t2 := s0 + mj
  { a := (t1 + t2) % 4294967296, b := v.a, c := v.b, d := v.c
    e := (v.d + t1) % 4294967296, f := v.e, g := v.f, h := v.g }

/-- The compression of one 64-byte block given as its 16 words. -/
def shaBlock (h : List Nat) (ws : List Nat) : List Nat :=
  let w := (shaSchedule 48 ws.reverse).reverse
  let v0 : ShaVars := ⟨h.getD 0 0, h.getD 1 0, h.getD 2 0, h.getD 3 0, h.getD 4 0, h.getD 5 0, h.getD 6 0, h.getD 7 0⟩
  let v := (List.zipWith (· + ·) shaK w).foldl shaRound v0
  List.zipWith (fun x y => (x + y) % 4294967296) h [v.a, v.b, v.c, v.d, v.e, v.f, v.g, v.h]

/-- The compression of `n` blocks of words. -/
def shaBlocks : Nat → List Nat → List Nat → List Nat
  | 0, h, _ => h
  | n + 1, h, ws => shaBlocks n (shaBlock h (ws.take 16)) (ws.drop 16)

/-- `k` bytes of `n`, most significant first. -/
def beBytes (n k : Nat) : Bytes := (leBytes n k).reverse

/-- SHA-256 of a byte string. -/
def sha256 (bs : Bytes) : Bytes :=
  let z := (119 - bs.length % 64) % 64
  let m := bs ++ [0x80#8] ++ zeros z ++ beBytes (bs.length * 8) 8
  let h := shaBlocks (m.length / 64) shaH0 (beWords m)
  h.flatMap (beBytes · 4)

end Sys2Proof.Machine
end

