-- ==== Sys2Proof/Machine/Float.lean ====
section
/-! DEFINITION. Numbers: exact dyadic rationals, binary32 and binary64 rounding (R83), and the block floating point of
the engine: BF24 values and vectors (R85, R236 to R239). -/

namespace Sys2Proof.Machine

/-- An exact dyadic rational `man * 2 ^ exp`. -/
structure Dy where
  man : Int
  exp : Int
deriving DecidableEq, Repr

/-- Zero. -/
def Dy.zero : Dy := ⟨0, 0⟩
/-- An integer. -/
def Dy.ofInt (i : Int) : Dy := ⟨i, 0⟩
/-- The mantissa at the smaller exponent `e`. -/
def Dy.at (x : Dy) (e : Int) : Int := x.man * (2 ^ (x.exp - e).toNat : Nat)
/-- Exact sum. -/
def Dy.add (x y : Dy) : Dy := let e := min x.exp y.exp; ⟨x.at e + y.at e, e⟩
/-- Exact negation. -/
def Dy.neg (x : Dy) : Dy := ⟨-x.man, x.exp⟩
/-- Exact difference. -/
def Dy.sub (x y : Dy) : Dy := x.add y.neg
/-- Exact product. -/
def Dy.mul (x y : Dy) : Dy := ⟨x.man * y.man, x.exp + y.exp⟩
/-- Magnitude. -/
def Dy.abs (x : Dy) : Dy := ⟨x.man.natAbs, x.exp⟩
/-- `x < y`. -/
def Dy.lt (x y : Dy) : Bool := let e := min x.exp y.exp; decide (x.at e < y.at e)
/-- `x ≤ y`. -/
def Dy.le (x y : Dy) : Bool := let e := min x.exp y.exp; decide (x.at e ≤ y.at e)
/-- Equality of values. -/
def Dy.eqv (x y : Dy) : Bool := x.le y && y.le x
/-- The smaller of two. -/
def Dy.min (x y : Dy) : Dy := if x.le y then x else y
/-- The larger of two. -/
def Dy.max (x y : Dy) : Dy := if x.le y then y else x
/-- True for zero. -/
def Dy.isZero (x : Dy) : Bool := x.man == 0
/-- True below zero. -/
def Dy.isNeg (x : Dy) : Bool := decide (x.man < 0)
/-- Multiplication by a power of two. -/
def Dy.scale (x : Dy) (k : Int) : Dy := ⟨x.man, x.exp + k⟩

/-- The nearest integer to `n / 2 ^ k`, ties to even. -/
def shrRne (n : Int) (k : Nat) : Int :=
  let q := n / (2 ^ k : Nat)
  let r := n % (2 ^ k : Nat)
  let h := (2 ^ k : Nat)
  if 2 * r > h then q + 1 else if 2 * r < h then q else if q % 2 == 0 then q else q + 1

/-- The nearest integer to a dyadic, ties to even. -/
def Dy.round (x : Dy) : Int :=
  if x.exp ≥ 0 then x.man * (2 ^ x.exp.toNat : Nat) else shrRne x.man (-x.exp).toNat

/-- The greatest integer not above a dyadic. -/
def Dy.floor (x : Dy) : Int :=
  if x.exp ≥ 0 then x.man * (2 ^ x.exp.toNat : Nat) else x.man / (2 ^ (-x.exp).toNat : Nat)

/-- `floor(log2 |x|)` of a nonzero dyadic. -/
def Dy.log2 (x : Dy) : Int := (Nat.log2 x.man.natAbs : Int) + x.exp

/-- Rounds to a multiple of `2 ^ e`, ties to even. -/
def Dy.roundAt (x : Dy) (e : Int) : Dy :=
  if x.exp ≥ e then x else ⟨shrRne x.man (e - x.exp).toNat, e⟩

/-- Rounds to `p` significant bits with least exponent `emin`, ties to even. -/
def Dy.roundTo (x : Dy) (p : Nat) (emin : Int) : Dy :=
  if x.man == 0 then Dy.zero else x.roundAt (Max.max (x.log2 + 1 - p) emin)

/-- Rounding to binary64. -/
def f64 (x : Dy) : Dy := x.roundTo 53 (-1074)

/-- A quotient with `b` further bits below those of the rounding, the last of them sticky. -/
def Dy.divBits (x y : Dy) (b : Nat) : Dy :=
  if y.man == 0 || x.man == 0 then Dy.zero
  else
    let k := b + Nat.log2 y.man.natAbs + 2
    let n := x.man.natAbs * 2 ^ k
    let q := n / y.man.natAbs
    let q := if n % y.man.natAbs == 0 then 2 * q else 2 * q + 1
    ⟨if (x.man < 0) != (y.man < 0) then -(q : Int) else q, x.exp - y.exp - k - 1⟩

/-- Integer square root by bisection: `fuel` bits of result. -/
def isqrt (n : Nat) : Nat → Nat → Nat
  | 0, r => r
  | k + 1, r => let c := r + 2 ^ k; isqrt n k (if c * c ≤ n then c else r)

/-- A square root with sticky bit, at least 64 bits; zero for a negative operand. -/
def Dy.sqrtBits (x : Dy) : Dy :=
  if x.man ≤ 0 then Dy.zero
  else
    let sh : Nat := 130 + (x.exp % 2).toNat
    let n := x.man.natAbs * 2 ^ sh
    let r := isqrt n (Nat.log2 n / 2 + 1) 0
    ⟨if r * r == n then 2 * r else 2 * r + 1, (x.exp - sh) / 2 - 1⟩

/-! ### binary64 arithmetic -/

/-- binary64 sum. -/
def fadd (x y : Dy) : Dy := f64 (x.add y)
/-- binary64 difference. -/
def fsub (x y : Dy) : Dy := f64 (x.sub y)
/-- binary64 product. -/
def fmul (x y : Dy) : Dy := f64 (x.mul y)
/-- binary64 quotient. -/
def fdiv (x y : Dy) : Dy := f64 (x.divBits y 64)
/-- binary64 square root. -/
def fsqrt (x : Dy) : Dy := f64 x.sqrtBits
/-- The quotient of two integers in binary64. -/
def fratio (n d : Int) : Dy := fdiv (Dy.ofInt n) (Dy.ofInt d)

/-! ### binary32 -/

/-- True for a binary32 pattern of a NaN or an infinity. -/
def f32Special (b : Nat) : Bool := bits b 30 23 == 255
/-- True for a binary32 NaN. -/
def f32Nan (b : Nat) : Bool := bits b 30 23 == 255 && bits b 22 0 != 0
/-- True for a binary64 pattern of a NaN or an infinity. -/
def f64Special (b : Nat) : Bool := bits b 62 52 == 2047

/-- The value of a finite binary32 pattern. -/
def f32Val (b : Nat) : Dy :=
  let e := bits b 30 23
  let f := bits b 22 0
  let m : Nat := if e == 0 then f else f + 8388608
  ⟨if bit b 31 then -(m : Int) else m, (if e == 0 then 1 else (e : Int)) - 150⟩

/-- The binary32 pattern nearest to a dyadic, ties to even; infinity beyond the range. -/
def f32Of (x : Dy) : Nat :=
  if x.man == 0 then 0
  else
    let r := x.roundTo 24 (-149)
    let s : Nat := if r.man < 0 then 2147483648 else 0
    if r.man == 0 then s
    else
      let l := r.log2
      if l > 127 then s + 2139095040
      else if l < -126 then s + (r.abs.at (-149)).toNat
      else s + (l + 127).toNat * 8388608 + ((r.abs.scale (23 - l)).round.toNat - 8388608)

/-! ### BF24 and stage vectors -/

/-- A BF24 value `m * 2 ^ (e - 22)` (R83, R236). -/
structure Bf where
  m : Int
  e : Int
deriving DecidableEq, Repr

/-- Zero is m = 0 with e = 0 (R85). -/
def Bf.zero : Bf := ⟨0, 0⟩
/-- The value of a BF24. -/
def Bf.val (b : Bf) : Dy := ⟨b.m, b.e - 22⟩

/-- A vector of mantissas that share one exponent (R236). -/
structure Vec where
  ms : List Int
  e : Int
deriving DecidableEq, Repr

/-- Element `i` as a BF24 value. -/
def Vec.el (v : Vec) (i : Nat) : Bf := ⟨v.ms.getD i 0, v.e⟩
/-- The value of element `i`. -/
def Vec.val (v : Vec) (i : Nat) : Dy := (v.el i).val
/-- A vector of `n` zeros. -/
def Vec.zero (n : Nat) : Vec := ⟨List.replicate n 0, 0⟩

/-- The mantissa of an accumulator value under exponent `e` (R238). -/
def mantAt (e : Int) (a : Dy) : Int := (a.scale (22 - e)).round

/-- The largest of the magnitudes (R238). -/
def maxAbs (as : List Dy) : Dy := as.foldl (fun x a => x.max a.abs) Dy.zero

/-- Saturation of a mantissa at exponent 127 (R239). -/
def satMant (m : Int) : Int :=
  if m ≥ 4194304 then 4194303 else if m ≤ -4194304 then -4194303 else m

/-- Renormalisation of a vector from its accumulators (R238, R239), and whether it saturated. -/
def renorm (as : List Dy) : Vec × Bool :=
  let mx := maxAbs as
  if mx.isZero then (Vec.zero as.length, false)
  else
    let e0 := Max.max (mx.log2 + 1) (-128)
    let e1 := if (as.map (mantAt e0)).any (fun m => m.natAbs ≥ 4194304) then e0 + 1 else e0
    if e1 > 127 then (⟨as.map fun a => satMant (mantAt 127 a), 127⟩, true)
    else (⟨as.map (mantAt e1), e1⟩, false)

/-- One value rounded to BF24 under the renormalisation rules. -/
def bfOf (x : Dy) : Bf := (renorm [x]).1.el 0

/-- The exponent of a term for the accumulator's alignment (R237). -/
def termExp (x : Dy) : Int := x.log2 + 1

/-- A 56-bit accumulator with 8 bits of headroom above the largest product, aligned to the largest exponent among its
terms: bits of smaller terms below its bit 0 are discarded toward minus infinity (R237). -/
def accumulate (ts : List Dy) : Dy :=
  let ts := ts.filter fun t => !t.isZero
  match ts with
  | [] => Dy.zero
  | t :: r =>
    let e := r.foldl (fun x u => Max.max x (termExp u)) (termExp t)
    let lsb := e - 48
    ⟨ts.foldl (fun s u => s + (u.scale (-lsb)).floor) 0, lsb⟩

/-- The largest BF24 value of a sign (R221). -/
def bfMax (neg : Bool) : Bf := ⟨if neg then -4194303 else 4194303, 127⟩

/-- The stored pattern of a BF24 (R83): bytes 0-2 mantissa, byte 3 exponent. -/
def Bf.pack (b : Bf) : Nat := ofSigned 24 b.m + ofSigned 8 b.e * 16777216
/-- The BF24 of a stored pattern, as written. -/
def Bf.unpack (n : Nat) : Bf := ⟨toSigned 24 n, toSigned 8 (n / 16777216)⟩

/-- Normalisation of a written BF24 (R85); `none` when the normalised exponent leaves -128 to +127. -/
def Bf.normWritten (b : Bf) : Option Bf :=
  if b.m == 0 then some Bf.zero
  else
    let v := b.val
    let e := v.log2 + 1
    let m := mantAt e v
    let (m, e) := if m.natAbs ≥ 4194304 then (m / 2, e + 1) else (m, e)
    if e < -128 || e > 127 then none else some ⟨m, e⟩

end Sys2Proof.Machine
end

