-- ==== Sys2Proof/Machine/Dict.lean ====
section
/-! DEFINITION. The object dictionary: one row per element of every object table of the spec, with its type, access,
persistence class, instances, default and single-write range (R3 to R6, R83 and the object tables of every chapter). -/

namespace Sys2Proof.Machine

/-- The object types (R83). -/
inductive Ty where
  | bool | u8 | i8 | u16 | i16 | u32 | i32 | u64 | i64 | bf24 | f32 | f64 | time | str | blob
deriving DecidableEq, Repr

/-- Access codes (R5). -/
inductive Acc where
  | r | rw | rwp
deriving DecidableEq, Repr

/-- Persistence classes: volatile, parameter set, life record. -/
inductive Pers where
  | v | p | l
deriving DecidableEq, Repr

/-- The single-write range of an element, as its Unit column or its chapter gives it. F32 bounds are binary32 patterns. -/
inductive Rng where
  | any
  | int (lo hi : Int)
  | oneOf (vs : List Int)
  | orNone (lo hi none : Int)
  | step (lo hi by_ : Int)
  | channelOrField
  | flt (lo hi : Nat)
  | pos
  | nonneg
  | act
deriving DecidableEq, Repr

/-- A row of the dictionary: objects `lo` to `hi` that share one table, elements `e0` to `e1`. `insts` 0: no instances. -/
structure Desc where
  lo : Nat
  hi : Nat
  e0 : Nat
  e1 : Nat
  ty : Ty
  acc : Acc
  pers : Pers
  insts : Nat
  dflt : Int
  rng : Rng
deriving DecidableEq, Repr

/-- Rows of objects 0001h to 0040h. -/
def dictBoot : List Desc :=
  [⟨0x0001, 0x0001, 0, 0, .u8, .r, .v, 0, 5, .any⟩,
   ⟨0x0001, 0x0001, 1, 1, .str, .r, .v, 0, 0, .any⟩,
   ⟨0x0001, 0x0001, 2, 2, .str, .r, .v, 0, 0, .any⟩,
   ⟨0x0001, 0x0001, 3, 3, .u64, .r, .v, 0, 0, .any⟩,
   ⟨0x0001, 0x0001, 4, 4, .u64, .r, .v, 0, 0, .any⟩,
   ⟨0x0001, 0x0001, 5, 5, .u32, .r, .v, 0, 0, .any⟩,
   ⟨0x0020, 0x0020, 0, 0, .u8, .r, .v, 0, 9, .any⟩,
   ⟨0x0020, 0x0020, 1, 1, .u32, .r, .v, 0, 0, .any⟩,
   ⟨0x0020, 0x0020, 2, 2, .u32, .r, .v, 0, 0, .any⟩,
   ⟨0x0020, 0x0020, 3, 3, .u8, .r, .v, 0, 0, .any⟩,
   ⟨0x0020, 0x0020, 4, 4, .u8, .r, .v, 0, 0, .any⟩,
   ⟨0x0020, 0x0020, 5, 5, .u32, .r, .v, 0, 0, .any⟩,
   ⟨0x0020, 0x0020, 6, 6, .u32, .r, .v, 0, 0, .any⟩,
   ⟨0x0020, 0x0020, 7, 7, .u32, .r, .l, 0, 4294967295, .any⟩,
   ⟨0x0020, 0x0020, 8, 8, .bool, .rwp, .v, 0, 0, .any⟩,
   ⟨0x0020, 0x0020, 9, 9, .u64, .r, .v, 0, 0, .any⟩,
   ⟨0x0030, 0x0030, 0, 0, .u8, .r, .v, 0, 10, .any⟩,
   ⟨0x0030, 0x0030, 1, 1, .u8, .r, .v, 0, 0, .any⟩,
   ⟨0x0030, 0x0030, 2, 2, .u8, .r, .v, 0, 0, .any⟩,
   ⟨0x0030, 0x0030, 3, 3, .u8, .rw, .v, 0, 255, .any⟩,
   ⟨0x0030, 0x0030, 4, 4, .u8, .r, .v, 0, 0, .any⟩,
   ⟨0x0030, 0x0030, 5, 5, .u32, .r, .v, 0, 0, .any⟩,
   ⟨0x0030, 0x0030, 6, 6, .u32, .rw, .v, 0, 0, .any⟩,
   ⟨0x0030, 0x0030, 7, 7, .u32, .rw, .p, 0, 1000, .any⟩,
   ⟨0x0030, 0x0030, 8, 8, .u8, .r, .v, 0, 0, .any⟩,
   ⟨0x0030, 0x0030, 9, 9, .u32, .r, .v, 0, 0, .any⟩,
   ⟨0x0030, 0x0030, 10, 10, .u8, .r, .v, 0, 0, .any⟩,
   ⟨0x0040, 0x0040, 0, 0, .u8, .r, .v, 0, 2, .any⟩,
   ⟨0x0040, 0x0040, 1, 1, .blob, .r, .v, 0, 0, .any⟩,
   ⟨0x0040, 0x0040, 2, 2, .blob, .rw, .v, 0, 0, .any⟩]

/-- Rows of objects 1000h to 1022h. -/
def dictComm0 : List Desc :=
  [⟨0x1000, 0x1000, 0, 0, .u8, .r, .v, 0, 10, .any⟩,
   ⟨0x1000, 0x1000, 1, 1, .u16, .rwp, .p, 0, 48713, .any⟩,
   ⟨0x1000, 0x1000, 2, 2, .u16, .rwp, .p, 0, 1344, .any⟩,
   ⟨0x1000, 0x1000, 3, 3, .u16, .rwp, .p, 0, 65535, .any⟩,
   ⟨0x1000, 0x1000, 4, 4, .u8, .r, .v, 0, 0, .any⟩,
   ⟨0x1000, 0x1000, 5, 5, .u32, .r, .v, 0, 0, .any⟩,
   ⟨0x1000, 0x1000, 6, 6, .u32, .r, .v, 0, 0, .any⟩,
   ⟨0x1000, 0x1000, 7, 7, .u32, .r, .v, 0, 0, .any⟩,
   ⟨0x1000, 0x1000, 8, 8, .u32, .r, .v, 0, 0, .any⟩,
   ⟨0x1000, 0x1000, 9, 9, .u32, .r, .v, 0, 0, .any⟩,
   ⟨0x1000, 0x1000, 10, 10, .u32, .r, .v, 0, 0, .any⟩,
   ⟨0x1020, 0x1020, 0, 0, .u8, .r, .v, 0, 9, .any⟩,
   ⟨0x1020, 0x1020, 1, 1, .u8, .rw, .v, 0, 0, .any⟩,
   ⟨0x1020, 0x1020, 2, 2, .u8, .r, .v, 0, 0, .any⟩,
   ⟨0x1020, 0x1020, 3, 3, .u8, .r, .v, 0, 0, .any⟩,
   ⟨0x1020, 0x1020, 4, 4, .u16, .r, .v, 0, 0, .any⟩,
   ⟨0x1020, 0x1020, 5, 5, .u8, .r, .v, 0, 0, .any⟩,
   ⟨0x1020, 0x1020, 6, 6, .u16, .r, .v, 0, 0, .any⟩,
   ⟨0x1020, 0x1020, 7, 7, .u8, .r, .v, 0, 0, .any⟩,
   ⟨0x1020, 0x1020, 8, 8, .u32, .r, .v, 0, 0, .any⟩,
   ⟨0x1020, 0x1020, 9, 9, .u32, .r, .v, 0, 0, .any⟩,
   ⟨0x1021, 0x1021, 0, 0, .u8, .r, .v, 512, 9, .any⟩,
   ⟨0x1021, 0x1021, 1, 1, .u8, .rw, .v, 512, 0, .any⟩,
   ⟨0x1021, 0x1021, 2, 2, .u8, .r, .v, 512, 0, .any⟩,
   ⟨0x1021, 0x1021, 3, 3, .u8, .r, .v, 512, 0, .any⟩,
   ⟨0x1021, 0x1021, 4, 4, .u16, .r, .v, 512, 0, .any⟩,
   ⟨0x1021, 0x1021, 5, 5, .u8, .r, .v, 512, 0, .any⟩,
   ⟨0x1021, 0x1021, 6, 6, .u16, .r, .v, 512, 0, .any⟩,
   ⟨0x1021, 0x1021, 7, 7, .u8, .r, .v, 512, 0, .any⟩,
   ⟨0x1021, 0x1021, 8, 8, .u32, .r, .v, 512, 0, .any⟩,
   ⟨0x1021, 0x1021, 9, 9, .u32, .r, .v, 512, 0, .any⟩,
   ⟨0x1022, 0x1022, 0, 0, .u8, .r, .v, 512, 9, .any⟩,
   ⟨0x1022, 0x1022, 1, 1, .u8, .rw, .v, 512, 0, .any⟩,
   ⟨0x1022, 0x1022, 2, 2, .u8, .r, .v, 512, 0, .any⟩,
   ⟨0x1022, 0x1022, 3, 3, .u8, .r, .v, 512, 0, .any⟩,
   ⟨0x1022, 0x1022, 4, 4, .u16, .r, .v, 512, 0, .any⟩,
   ⟨0x1022, 0x1022, 5, 5, .u8, .r, .v, 512, 0, .any⟩,
   ⟨0x1022, 0x1022, 6, 6, .u16, .r, .v, 512, 0, .any⟩,
   ⟨0x1022, 0x1022, 7, 7, .u8, .r, .v, 512, 0, .any⟩,
   ⟨0x1022, 0x1022, 8, 8, .u32, .r, .v, 512, 0, .any⟩]

/-- Rows of objects 1022h to 1027h. -/
def dictComm1 : List Desc :=
  [⟨0x1022, 0x1022, 9, 9, .u32, .r, .v, 512, 0, .any⟩,
   ⟨0x1024, 0x1024, 0, 0, .u8, .r, .v, 512, 9, .any⟩,
   ⟨0x1024, 0x1024, 1, 1, .u8, .rw, .v, 512, 0, .any⟩,
   ⟨0x1024, 0x1024, 2, 2, .u8, .r, .v, 512, 0, .any⟩,
   ⟨0x1024, 0x1024, 3, 3, .u8, .r, .v, 512, 0, .any⟩,
   ⟨0x1024, 0x1024, 4, 4, .u16, .r, .v, 512, 0, .any⟩,
   ⟨0x1024, 0x1024, 5, 5, .u8, .r, .v, 512, 0, .any⟩,
   ⟨0x1024, 0x1024, 6, 6, .u16, .r, .v, 512, 0, .any⟩,
   ⟨0x1024, 0x1024, 7, 7, .u8, .r, .v, 512, 0, .any⟩,
   ⟨0x1024, 0x1024, 8, 8, .u32, .r, .v, 512, 0, .any⟩,
   ⟨0x1024, 0x1024, 9, 9, .u32, .r, .v, 512, 0, .any⟩,
   ⟨0x1025, 0x1025, 0, 0, .u8, .r, .v, 512, 9, .any⟩,
   ⟨0x1025, 0x1025, 1, 1, .u8, .rw, .v, 512, 0, .any⟩,
   ⟨0x1025, 0x1025, 2, 2, .u8, .r, .v, 512, 0, .any⟩,
   ⟨0x1025, 0x1025, 3, 3, .u8, .r, .v, 512, 0, .any⟩,
   ⟨0x1025, 0x1025, 4, 4, .u16, .r, .v, 512, 0, .any⟩,
   ⟨0x1025, 0x1025, 5, 5, .u8, .r, .v, 512, 0, .any⟩,
   ⟨0x1025, 0x1025, 6, 6, .u16, .r, .v, 512, 0, .any⟩,
   ⟨0x1025, 0x1025, 7, 7, .u8, .r, .v, 512, 0, .any⟩,
   ⟨0x1025, 0x1025, 8, 8, .u32, .r, .v, 512, 0, .any⟩,
   ⟨0x1025, 0x1025, 9, 9, .u32, .r, .v, 512, 0, .any⟩,
   ⟨0x1026, 0x1026, 0, 0, .u8, .r, .v, 0, 9, .any⟩,
   ⟨0x1026, 0x1026, 1, 1, .u8, .rw, .v, 0, 0, .any⟩,
   ⟨0x1026, 0x1026, 2, 2, .u8, .r, .v, 0, 0, .any⟩,
   ⟨0x1026, 0x1026, 3, 3, .u8, .r, .v, 0, 0, .any⟩,
   ⟨0x1026, 0x1026, 4, 4, .u16, .r, .v, 0, 0, .any⟩,
   ⟨0x1026, 0x1026, 5, 5, .u8, .r, .v, 0, 0, .any⟩,
   ⟨0x1026, 0x1026, 6, 6, .u16, .r, .v, 0, 0, .any⟩,
   ⟨0x1026, 0x1026, 7, 7, .u8, .r, .v, 0, 0, .any⟩,
   ⟨0x1026, 0x1026, 8, 8, .u32, .r, .v, 0, 0, .any⟩,
   ⟨0x1026, 0x1026, 9, 9, .u32, .r, .v, 0, 0, .any⟩,
   ⟨0x1027, 0x1027, 0, 0, .u8, .r, .v, 0, 9, .any⟩,
   ⟨0x1027, 0x1027, 1, 1, .u8, .rw, .v, 0, 0, .any⟩,
   ⟨0x1027, 0x1027, 2, 2, .u8, .r, .v, 0, 0, .any⟩,
   ⟨0x1027, 0x1027, 3, 3, .u8, .r, .v, 0, 0, .any⟩,
   ⟨0x1027, 0x1027, 4, 4, .u16, .r, .v, 0, 0, .any⟩,
   ⟨0x1027, 0x1027, 5, 5, .u8, .r, .v, 0, 0, .any⟩,
   ⟨0x1027, 0x1027, 6, 6, .u16, .r, .v, 0, 0, .any⟩,
   ⟨0x1027, 0x1027, 7, 7, .u8, .r, .v, 0, 0, .any⟩,
   ⟨0x1027, 0x1027, 8, 8, .u32, .r, .v, 0, 0, .any⟩]

/-- Rows of objects 1027h to 102Bh. -/
def dictComm2 : List Desc :=
  [⟨0x1027, 0x1027, 9, 9, .u32, .r, .v, 0, 0, .any⟩,
   ⟨0x1028, 0x1028, 0, 0, .u8, .r, .v, 8, 9, .any⟩,
   ⟨0x1028, 0x1028, 1, 1, .u8, .rw, .v, 8, 0, .any⟩,
   ⟨0x1028, 0x1028, 2, 2, .u8, .r, .v, 8, 0, .any⟩,
   ⟨0x1028, 0x1028, 3, 3, .u8, .r, .v, 8, 0, .any⟩,
   ⟨0x1028, 0x1028, 4, 4, .u16, .r, .v, 8, 0, .any⟩,
   ⟨0x1028, 0x1028, 5, 5, .u8, .r, .v, 8, 0, .any⟩,
   ⟨0x1028, 0x1028, 6, 6, .u16, .r, .v, 8, 0, .any⟩,
   ⟨0x1028, 0x1028, 7, 7, .u8, .r, .v, 8, 0, .any⟩,
   ⟨0x1028, 0x1028, 8, 8, .u32, .r, .v, 8, 0, .any⟩,
   ⟨0x1028, 0x1028, 9, 9, .u32, .r, .v, 8, 0, .any⟩,
   ⟨0x1029, 0x1029, 0, 0, .u8, .r, .v, 8, 9, .any⟩,
   ⟨0x1029, 0x1029, 1, 1, .u8, .rw, .v, 8, 0, .any⟩,
   ⟨0x1029, 0x1029, 2, 2, .u8, .r, .v, 8, 0, .any⟩,
   ⟨0x1029, 0x1029, 3, 3, .u8, .r, .v, 8, 0, .any⟩,
   ⟨0x1029, 0x1029, 4, 4, .u16, .r, .v, 8, 0, .any⟩,
   ⟨0x1029, 0x1029, 5, 5, .u8, .r, .v, 8, 0, .any⟩,
   ⟨0x1029, 0x1029, 6, 6, .u16, .r, .v, 8, 0, .any⟩,
   ⟨0x1029, 0x1029, 7, 7, .u8, .r, .v, 8, 0, .any⟩,
   ⟨0x1029, 0x1029, 8, 8, .u32, .r, .v, 8, 0, .any⟩,
   ⟨0x1029, 0x1029, 9, 9, .u32, .r, .v, 8, 0, .any⟩,
   ⟨0x102A, 0x102A, 0, 0, .u8, .r, .v, 0, 9, .any⟩,
   ⟨0x102A, 0x102A, 1, 1, .u8, .rw, .v, 0, 0, .any⟩,
   ⟨0x102A, 0x102A, 2, 2, .u8, .r, .v, 0, 0, .any⟩,
   ⟨0x102A, 0x102A, 3, 3, .u8, .r, .v, 0, 0, .any⟩,
   ⟨0x102A, 0x102A, 4, 4, .u16, .r, .v, 0, 0, .any⟩,
   ⟨0x102A, 0x102A, 5, 5, .u8, .r, .v, 0, 0, .any⟩,
   ⟨0x102A, 0x102A, 6, 6, .u16, .r, .v, 0, 0, .any⟩,
   ⟨0x102A, 0x102A, 7, 7, .u8, .r, .v, 0, 0, .any⟩,
   ⟨0x102A, 0x102A, 8, 8, .u32, .r, .v, 0, 0, .any⟩,
   ⟨0x102A, 0x102A, 9, 9, .u32, .r, .v, 0, 0, .any⟩,
   ⟨0x102B, 0x102B, 0, 0, .u8, .r, .v, 512, 9, .any⟩,
   ⟨0x102B, 0x102B, 1, 1, .u8, .rw, .v, 512, 0, .any⟩,
   ⟨0x102B, 0x102B, 2, 2, .u8, .r, .v, 512, 0, .any⟩,
   ⟨0x102B, 0x102B, 3, 3, .u8, .r, .v, 512, 0, .any⟩,
   ⟨0x102B, 0x102B, 4, 4, .u16, .r, .v, 512, 0, .any⟩,
   ⟨0x102B, 0x102B, 5, 5, .u8, .r, .v, 512, 0, .any⟩,
   ⟨0x102B, 0x102B, 6, 6, .u16, .r, .v, 512, 0, .any⟩,
   ⟨0x102B, 0x102B, 7, 7, .u8, .r, .v, 512, 0, .any⟩,
   ⟨0x102B, 0x102B, 8, 8, .u32, .r, .v, 512, 0, .any⟩]

/-- Rows of objects 102Bh to 102Fh. -/
def dictComm3 : List Desc :=
  [⟨0x102B, 0x102B, 9, 9, .u32, .r, .v, 512, 0, .any⟩,
   ⟨0x102C, 0x102C, 0, 0, .u8, .r, .v, 512, 9, .any⟩,
   ⟨0x102C, 0x102C, 1, 1, .u8, .rw, .v, 512, 0, .any⟩,
   ⟨0x102C, 0x102C, 2, 2, .u8, .r, .v, 512, 0, .any⟩,
   ⟨0x102C, 0x102C, 3, 3, .u8, .r, .v, 512, 0, .any⟩,
   ⟨0x102C, 0x102C, 4, 4, .u16, .r, .v, 512, 0, .any⟩,
   ⟨0x102C, 0x102C, 5, 5, .u8, .r, .v, 512, 0, .any⟩,
   ⟨0x102C, 0x102C, 6, 6, .u16, .r, .v, 512, 0, .any⟩,
   ⟨0x102C, 0x102C, 7, 7, .u8, .r, .v, 512, 0, .any⟩,
   ⟨0x102C, 0x102C, 8, 8, .u32, .r, .v, 512, 0, .any⟩,
   ⟨0x102C, 0x102C, 9, 9, .u32, .r, .v, 512, 0, .any⟩,
   ⟨0x102D, 0x102D, 0, 0, .u8, .r, .v, 64, 9, .any⟩,
   ⟨0x102D, 0x102D, 1, 1, .u8, .rw, .v, 64, 0, .any⟩,
   ⟨0x102D, 0x102D, 2, 2, .u8, .r, .v, 64, 0, .any⟩,
   ⟨0x102D, 0x102D, 3, 3, .u8, .r, .v, 64, 0, .any⟩,
   ⟨0x102D, 0x102D, 4, 4, .u16, .r, .v, 64, 0, .any⟩,
   ⟨0x102D, 0x102D, 5, 5, .u8, .r, .v, 64, 0, .any⟩,
   ⟨0x102D, 0x102D, 6, 6, .u16, .r, .v, 64, 0, .any⟩,
   ⟨0x102D, 0x102D, 7, 7, .u8, .r, .v, 64, 0, .any⟩,
   ⟨0x102D, 0x102D, 8, 8, .u32, .r, .v, 64, 0, .any⟩,
   ⟨0x102D, 0x102D, 9, 9, .u32, .r, .v, 64, 0, .any⟩,
   ⟨0x102E, 0x102E, 0, 0, .u8, .r, .v, 512, 9, .any⟩,
   ⟨0x102E, 0x102E, 1, 1, .u8, .rw, .v, 512, 0, .any⟩,
   ⟨0x102E, 0x102E, 2, 2, .u8, .r, .v, 512, 0, .any⟩,
   ⟨0x102E, 0x102E, 3, 3, .u8, .r, .v, 512, 0, .any⟩,
   ⟨0x102E, 0x102E, 4, 4, .u16, .r, .v, 512, 0, .any⟩,
   ⟨0x102E, 0x102E, 5, 5, .u8, .r, .v, 512, 0, .any⟩,
   ⟨0x102E, 0x102E, 6, 6, .u16, .r, .v, 512, 0, .any⟩,
   ⟨0x102E, 0x102E, 7, 7, .u8, .r, .v, 512, 0, .any⟩,
   ⟨0x102E, 0x102E, 8, 8, .u32, .r, .v, 512, 0, .any⟩,
   ⟨0x102E, 0x102E, 9, 9, .u32, .r, .v, 512, 0, .any⟩,
   ⟨0x102F, 0x102F, 0, 0, .u8, .r, .v, 512, 9, .any⟩,
   ⟨0x102F, 0x102F, 1, 1, .u8, .rw, .v, 512, 0, .any⟩,
   ⟨0x102F, 0x102F, 2, 2, .u8, .r, .v, 512, 0, .any⟩,
   ⟨0x102F, 0x102F, 3, 3, .u8, .r, .v, 512, 0, .any⟩,
   ⟨0x102F, 0x102F, 4, 4, .u16, .r, .v, 512, 0, .any⟩,
   ⟨0x102F, 0x102F, 5, 5, .u8, .r, .v, 512, 0, .any⟩,
   ⟨0x102F, 0x102F, 6, 6, .u16, .r, .v, 512, 0, .any⟩,
   ⟨0x102F, 0x102F, 7, 7, .u8, .r, .v, 512, 0, .any⟩,
   ⟨0x102F, 0x102F, 8, 8, .u32, .r, .v, 512, 0, .any⟩]

/-- Rows of objects 102Fh to 1033h. -/
def dictComm4 : List Desc :=
  [⟨0x102F, 0x102F, 9, 9, .u32, .r, .v, 512, 0, .any⟩,
   ⟨0x1030, 0x1030, 0, 0, .u8, .r, .v, 8, 9, .any⟩,
   ⟨0x1030, 0x1030, 1, 1, .u8, .rw, .v, 8, 0, .any⟩,
   ⟨0x1030, 0x1030, 2, 2, .u8, .r, .v, 8, 0, .any⟩,
   ⟨0x1030, 0x1030, 3, 3, .u8, .r, .v, 8, 0, .any⟩,
   ⟨0x1030, 0x1030, 4, 4, .u16, .r, .v, 8, 0, .any⟩,
   ⟨0x1030, 0x1030, 5, 5, .u8, .r, .v, 8, 0, .any⟩,
   ⟨0x1030, 0x1030, 6, 6, .u16, .r, .v, 8, 0, .any⟩,
   ⟨0x1030, 0x1030, 7, 7, .u8, .r, .v, 8, 0, .any⟩,
   ⟨0x1030, 0x1030, 8, 8, .u32, .r, .v, 8, 0, .any⟩,
   ⟨0x1030, 0x1030, 9, 9, .u32, .r, .v, 8, 0, .any⟩,
   ⟨0x1031, 0x1031, 0, 0, .u8, .r, .v, 512, 9, .any⟩,
   ⟨0x1031, 0x1031, 1, 1, .u8, .rw, .v, 512, 0, .any⟩,
   ⟨0x1031, 0x1031, 2, 2, .u8, .r, .v, 512, 0, .any⟩,
   ⟨0x1031, 0x1031, 3, 3, .u8, .r, .v, 512, 0, .any⟩,
   ⟨0x1031, 0x1031, 4, 4, .u16, .r, .v, 512, 0, .any⟩,
   ⟨0x1031, 0x1031, 5, 5, .u8, .r, .v, 512, 0, .any⟩,
   ⟨0x1031, 0x1031, 6, 6, .u16, .r, .v, 512, 0, .any⟩,
   ⟨0x1031, 0x1031, 7, 7, .u8, .r, .v, 512, 0, .any⟩,
   ⟨0x1031, 0x1031, 8, 8, .u32, .r, .v, 512, 0, .any⟩,
   ⟨0x1031, 0x1031, 9, 9, .u32, .r, .v, 512, 0, .any⟩,
   ⟨0x1032, 0x1032, 0, 0, .u8, .r, .v, 0, 9, .any⟩,
   ⟨0x1032, 0x1032, 1, 1, .u8, .rw, .v, 0, 0, .any⟩,
   ⟨0x1032, 0x1032, 2, 2, .u8, .r, .v, 0, 0, .any⟩,
   ⟨0x1032, 0x1032, 3, 3, .u8, .r, .v, 0, 0, .any⟩,
   ⟨0x1032, 0x1032, 4, 4, .u16, .r, .v, 0, 0, .any⟩,
   ⟨0x1032, 0x1032, 5, 5, .u8, .r, .v, 0, 0, .any⟩,
   ⟨0x1032, 0x1032, 6, 6, .u16, .r, .v, 0, 0, .any⟩,
   ⟨0x1032, 0x1032, 7, 7, .u8, .r, .v, 0, 0, .any⟩,
   ⟨0x1032, 0x1032, 8, 8, .u32, .r, .v, 0, 0, .any⟩,
   ⟨0x1032, 0x1032, 9, 9, .u32, .r, .v, 0, 0, .any⟩,
   ⟨0x1033, 0x1033, 0, 0, .u8, .r, .v, 0, 9, .any⟩,
   ⟨0x1033, 0x1033, 1, 1, .u8, .rw, .v, 0, 0, .any⟩,
   ⟨0x1033, 0x1033, 2, 2, .u8, .r, .v, 0, 0, .any⟩,
   ⟨0x1033, 0x1033, 3, 3, .u8, .r, .v, 0, 0, .any⟩,
   ⟨0x1033, 0x1033, 4, 4, .u16, .r, .v, 0, 0, .any⟩,
   ⟨0x1033, 0x1033, 5, 5, .u8, .r, .v, 0, 0, .any⟩,
   ⟨0x1033, 0x1033, 6, 6, .u16, .r, .v, 0, 0, .any⟩,
   ⟨0x1033, 0x1033, 7, 7, .u8, .r, .v, 0, 0, .any⟩,
   ⟨0x1033, 0x1033, 8, 8, .u32, .r, .v, 0, 0, .any⟩]

/-- Rows of objects 1033h to 1123h. -/
def dictComm5 : List Desc :=
  [⟨0x1033, 0x1033, 9, 9, .u32, .r, .v, 0, 0, .any⟩,
   ⟨0x1034, 0x1034, 0, 0, .u8, .r, .v, 0, 9, .any⟩,
   ⟨0x1034, 0x1034, 1, 1, .u8, .rw, .v, 0, 0, .any⟩,
   ⟨0x1034, 0x1034, 2, 2, .u8, .r, .v, 0, 0, .any⟩,
   ⟨0x1034, 0x1034, 3, 3, .u8, .r, .v, 0, 0, .any⟩,
   ⟨0x1034, 0x1034, 4, 4, .u16, .r, .v, 0, 0, .any⟩,
   ⟨0x1034, 0x1034, 5, 5, .u8, .r, .v, 0, 0, .any⟩,
   ⟨0x1034, 0x1034, 6, 6, .u16, .r, .v, 0, 0, .any⟩,
   ⟨0x1034, 0x1034, 7, 7, .u8, .r, .v, 0, 0, .any⟩,
   ⟨0x1034, 0x1034, 8, 8, .u32, .r, .v, 0, 0, .any⟩,
   ⟨0x1034, 0x1034, 9, 9, .u32, .r, .v, 0, 0, .any⟩,
   ⟨0x1100, 0x1103, 0, 0, .u8, .r, .v, 0, 12, .any⟩,
   ⟨0x1100, 0x1103, 1, 1, .bool, .rwp, .p, 0, 1, .any⟩,
   ⟨0x1100, 0x1103, 2, 2, .u8, .rwp, .p, 0, 0, (.int 0 2)⟩,
   ⟨0x1100, 0x1103, 3, 3, .u8, .rwp, .p, 0, 3, (.int 1 3)⟩,
   ⟨0x1100, 0x1103, 4, 4, .u8, .rwp, .p, 0, 2, (.int 0 2)⟩,
   ⟨0x1100, 0x1103, 5, 5, .bool, .rwp, .p, 0, 1, .any⟩,
   ⟨0x1100, 0x1103, 6, 6, .u32, .r, .v, 0, 0, .any⟩,
   ⟨0x1100, 0x1103, 7, 7, .u32, .r, .v, 0, 0, .any⟩,
   ⟨0x1100, 0x1103, 8, 8, .u8, .r, .v, 0, 0, .any⟩,
   ⟨0x1100, 0x1103, 9, 9, .u32, .r, .v, 0, 0, .any⟩,
   ⟨0x1100, 0x1103, 10, 10, .u32, .r, .v, 0, 0, .any⟩,
   ⟨0x1100, 0x1103, 11, 11, .u32, .r, .v, 0, 0, .any⟩,
   ⟨0x1100, 0x1103, 12, 12, .u32, .r, .v, 0, 0, .any⟩,
   ⟨0x1110, 0x1110, 0, 0, .u8, .r, .v, 0, 7, .any⟩,
   ⟨0x1110, 0x1110, 1, 1, .u32, .r, .v, 0, 1000, .any⟩,
   ⟨0x1110, 0x1110, 2, 2, .u32, .r, .v, 0, 12000, .any⟩,
   ⟨0x1110, 0x1110, 3, 3, .u32, .r, .v, 0, 0, .any⟩,
   ⟨0x1110, 0x1110, 4, 4, .u32, .r, .v, 0, 0, .any⟩,
   ⟨0x1110, 0x1110, 5, 5, .u32, .r, .v, 0, 31750, .any⟩,
   ⟨0x1110, 0x1110, 6, 6, .i32, .r, .v, 0, 0, .any⟩,
   ⟨0x1110, 0x1110, 7, 7, .u8, .r, .v, 0, 0, .any⟩,
   ⟨0x1120, 0x1123, 0, 0, .u8, .r, .v, 0, 11, .any⟩,
   ⟨0x1120, 0x1123, 1, 1, .u8, .r, .v, 0, 0, .any⟩,
   ⟨0x1120, 0x1123, 2, 2, .u16, .r, .v, 0, 0, .any⟩,
   ⟨0x1120, 0x1123, 3, 3, .u8, .r, .v, 0, 0, .any⟩,
   ⟨0x1120, 0x1123, 4, 4, .u32, .r, .v, 0, 0, .any⟩,
   ⟨0x1120, 0x1123, 5, 5, .bool, .rw, .v, 0, 0, .any⟩,
   ⟨0x1120, 0x1123, 6, 6, .u16, .rwp, .p, 0, 259, .any⟩,
   ⟨0x1120, 0x1123, 7, 7, .u32, .r, .v, 0, 0, .any⟩]

/-- Rows of objects 1120h to 1201h. -/
def dictComm6 : List Desc :=
  [⟨0x1120, 0x1123, 8, 8, .u8, .r, .v, 0, 0, .any⟩,
   ⟨0x1120, 0x1123, 9, 9, .u32, .r, .v, 0, 0, .any⟩,
   ⟨0x1120, 0x1123, 10, 10, .u16, .r, .v, 0, 0, .any⟩,
   ⟨0x1120, 0x1123, 11, 11, .u16, .r, .v, 0, 0, .any⟩,
   ⟨0x1140, 0x1143, 0, 0, .u8, .r, .v, 4096, 11, .any⟩,
   ⟨0x1140, 0x1143, 1, 1, .u32, .r, .v, 4096, 0, .any⟩,
   ⟨0x1140, 0x1143, 2, 2, .u16, .r, .v, 4096, 0, .any⟩,
   ⟨0x1140, 0x1143, 3, 3, .u8, .r, .v, 4096, 0, .any⟩,
   ⟨0x1140, 0x1143, 4, 4, .u8, .r, .v, 4096, 0, .any⟩,
   ⟨0x1140, 0x1143, 5, 5, .u32, .r, .v, 4096, 0, .any⟩,
   ⟨0x1140, 0x1143, 6, 6, .u32, .r, .v, 4096, 0, .any⟩,
   ⟨0x1140, 0x1143, 7, 7, .u32, .r, .v, 4096, 0, .any⟩,
   ⟨0x1140, 0x1143, 8, 8, .u32, .r, .v, 4096, 0, .any⟩,
   ⟨0x1140, 0x1143, 9, 9, .u32, .r, .v, 4096, 0, .any⟩,
   ⟨0x1140, 0x1143, 10, 10, .u32, .r, .v, 4096, 0, .any⟩,
   ⟨0x1140, 0x1143, 11, 11, .u8, .r, .v, 4096, 0, .any⟩,
   ⟨0x1200, 0x1201, 0, 0, .u8, .r, .v, 0, 12, .any⟩,
   ⟨0x1200, 0x1200, 1, 1, .bool, .rwp, .p, 0, 1, .any⟩,
   ⟨0x1201, 0x1201, 1, 1, .bool, .rwp, .p, 0, 0, .any⟩,
   ⟨0x1200, 0x1201, 2, 2, .u32, .rwp, .p, 0, 32763840, .any⟩,
   ⟨0x1200, 0x1201, 3, 3, .u32, .rwp, .p, 0, 8021888, .any⟩,
   ⟨0x1200, 0x1201, 4, 4, .u8, .rwp, .p, 0, 27, (.int 0 31)⟩,
   ⟨0x1200, 0x1201, 5, 5, .u8, .r, .v, 0, 0, .any⟩,
   ⟨0x1200, 0x1201, 6, 6, .u8, .r, .v, 0, 0, .any⟩,
   ⟨0x1200, 0x1201, 7, 7, .u8, .r, .v, 0, 0, .any⟩,
   ⟨0x1200, 0x1201, 8, 8, .u32, .r, .v, 0, 0, .any⟩,
   ⟨0x1200, 0x1201, 9, 9, .u32, .r, .v, 0, 0, .any⟩,
   ⟨0x1200, 0x1201, 10, 10, .u32, .r, .v, 0, 0, .any⟩,
   ⟨0x1200, 0x1201, 11, 11, .u32, .r, .v, 0, 0, .any⟩,
   ⟨0x1200, 0x1201, 12, 12, .u32, .r, .v, 0, 0, .any⟩]

/-- Rows of objects 2000h to 2160h. -/
def dictAxis0 : List Desc :=
  [⟨0x2000, 0x2000, 0, 0, .u8, .r, .v, 512, 4, .any⟩,
   ⟨0x2000, 0x2000, 1, 1, .bool, .rwp, .p, 512, 0, .any⟩,
   ⟨0x2000, 0x2000, 2, 2, .u8, .rwp, .p, 512, 0, (.int 0 3)⟩,
   ⟨0x2000, 0x2000, 3, 3, .u16, .rwp, .p, 512, 1, (.int 1 4095)⟩,
   ⟨0x2000, 0x2000, 4, 4, .u8, .rwp, .p, 512, 0, (.int 0 7)⟩,
   ⟨0x2010, 0x2010, 0, 0, .u8, .r, .v, 512, 2, .any⟩,
   ⟨0x2010, 0x2010, 1, 1, .u8, .rwp, .p, 512, 1, (.oneOf [1, 2, 4, 8])⟩,
   ⟨0x2010, 0x2010, 2, 2, .u8, .rwp, .p, 512, 0, (.int 0 7)⟩,
   ⟨0x2020, 0x2020, 0, 0, .u8, .r, .v, 512, 16, .any⟩,
   ⟨0x2020, 0x2020, 1, 8, .u32, .rwp, .p, 512, 0, .any⟩,
   ⟨0x2020, 0x2020, 9, 16, .f32, .rwp, .p, 512, 1065353216, .any⟩,
   ⟨0x2030, 0x2030, 0, 0, .u8, .r, .v, 512, 1, .any⟩,
   ⟨0x2030, 0x2030, 1, 1, .f32, .rw, .v, 512, 0, .any⟩,
   ⟨0x2100, 0x2100, 0, 0, .u8, .r, .v, 512, 17, .any⟩,
   ⟨0x2100, 0x2100, 1, 1, .u8, .rwp, .p, 512, 0, (.int 0 16)⟩,
   ⟨0x2100, 0x2100, 2, 17, .u32, .rwp, .p, 512, 0, .any⟩,
   ⟨0x2120, 0x2120, 0, 0, .u8, .r, .v, 512, 4, .any⟩,
   ⟨0x2120, 0x2120, 1, 4, .u32, .rwp, .p, 512, 0, .any⟩,
   ⟨0x2130, 0x2130, 0, 0, .u8, .r, .v, 512, 32, .any⟩,
   ⟨0x2130, 0x2130, 1, 4, .f32, .rw, .p, 512, 1148846080, (.flt 1101004800 1174011904)⟩,
   ⟨0x2130, 0x2130, 5, 8, .f32, .rw, .p, 512, 0, (.flt 3262119936 0)⟩,
   ⟨0x2130, 0x2130, 9, 12, .f32, .rw, .p, 512, 1120403456, (.flt 1065353216 1165623296)⟩,
   ⟨0x2130, 0x2130, 13, 32, .bf24, .r, .v, 512, 0, .any⟩,
   ⟨0x2140, 0x214F, 0, 0, .u8, .r, .v, 512, 128, .any⟩,
   ⟨0x2140, 0x214F, 1, 64, .f32, .rw, .p, 512, 0, .any⟩,
   ⟨0x2140, 0x214F, 65, 128, .bf24, .r, .v, 512, 0, .any⟩,
   ⟨0x2150, 0x2150, 0, 0, .u8, .r, .v, 512, 5, .any⟩,
   ⟨0x2150, 0x2150, 1, 1, .u8, .r, .v, 512, 0, .any⟩,
   ⟨0x2150, 0x2150, 2, 2, .u16, .r, .v, 512, 0, .any⟩,
   ⟨0x2150, 0x2150, 3, 3, .u32, .r, .v, 512, 0, .any⟩,
   ⟨0x2150, 0x2150, 4, 4, .u32, .r, .v, 512, 0, .any⟩,
   ⟨0x2150, 0x2150, 5, 5, .u32, .r, .v, 512, 0, .any⟩,
   ⟨0x2160, 0x2160, 0, 0, .u8, .r, .v, 512, 10, .any⟩,
   ⟨0x2160, 0x2160, 1, 1, .u8, .rwp, .p, 512, 1, (.int 0 2)⟩,
   ⟨0x2160, 0x2160, 2, 2, .u8, .rwp, .p, 512, 3, (.int 1 16)⟩,
   ⟨0x2160, 0x2160, 3, 3, .u8, .r, .v, 512, 0, .any⟩,
   ⟨0x2160, 0x2160, 4, 4, .u8, .r, .v, 512, 0, .any⟩,
   ⟨0x2160, 0x2160, 5, 5, .bool, .rw, .v, 512, 0, .any⟩,
   ⟨0x2160, 0x2160, 6, 6, .u32, .r, .v, 512, 0, .any⟩,
   ⟨0x2160, 0x2160, 7, 7, .u8, .r, .v, 512, 0, .any⟩]

/-- Rows of objects 2160h to 2230h. -/
def dictAxis1 : List Desc :=
  [⟨0x2160, 0x2160, 8, 8, .u32, .r, .v, 512, 0, .any⟩,
   ⟨0x2160, 0x2160, 9, 9, .u32, .r, .v, 512, 0, .any⟩,
   ⟨0x2160, 0x2160, 10, 10, .u32, .r, .v, 512, 0, .any⟩,
   ⟨0x2170, 0x2170, 0, 0, .u8, .r, .v, 512, 4, .any⟩,
   ⟨0x2170, 0x2170, 1, 1, .u8, .r, .v, 512, 0, .any⟩,
   ⟨0x2170, 0x2170, 2, 2, .u8, .rw, .v, 512, 255, .any⟩,
   ⟨0x2170, 0x2170, 3, 3, .u32, .r, .v, 512, 0, .any⟩,
   ⟨0x2170, 0x2170, 4, 4, .f32, .r, .v, 512, 0, .any⟩,
   ⟨0x2200, 0x2200, 0, 0, .u8, .r, .v, 512, 9, .any⟩,
   ⟨0x2200, 0x2200, 1, 1, .f32, .rw, .p, 512, 1232348160, .pos⟩,
   ⟨0x2200, 0x2200, 2, 2, .f32, .rw, .p, 512, 1259902592, .pos⟩,
   ⟨0x2200, 0x2200, 3, 3, .f32, .rw, .p, 512, 1315859240, .pos⟩,
   ⟨0x2200, 0x2200, 4, 4, .f32, .rw, .p, 512, 1259902592, .pos⟩,
   ⟨0x2200, 0x2200, 5, 5, .f32, .rw, .p, 512, 1315859240, .pos⟩,
   ⟨0x2200, 0x2200, 6, 6, .f32, .rw, .p, 512, 0, .any⟩,
   ⟨0x2200, 0x2200, 7, 7, .f32, .rw, .p, 512, 0, .any⟩,
   ⟨0x2200, 0x2200, 8, 8, .u8, .rw, .p, 512, 255, (.orNone 0 7 0xFF)⟩,
   ⟨0x2200, 0x2200, 9, 9, .u8, .rw, .p, 512, 255, (.orNone 0 7 0xFF)⟩,
   ⟨0x2210, 0x2210, 0, 0, .u8, .r, .v, 512, 8, .any⟩,
   ⟨0x2210, 0x2210, 1, 1, .i64, .rw, .v, 512, 0, .any⟩,
   ⟨0x2210, 0x2210, 2, 2, .bool, .rw, .v, 512, 0, .any⟩,
   ⟨0x2210, 0x2210, 3, 3, .f32, .rw, .v, 512, 0, .any⟩,
   ⟨0x2210, 0x2210, 4, 4, .f32, .rw, .v, 512, 0, .any⟩,
   ⟨0x2210, 0x2210, 5, 5, .f32, .rw, .v, 512, 0, .any⟩,
   ⟨0x2210, 0x2210, 6, 6, .f32, .rw, .v, 512, 0, .any⟩,
   ⟨0x2210, 0x2210, 7, 7, .bool, .rw, .v, 512, 0, .any⟩,
   ⟨0x2210, 0x2210, 8, 8, .u8, .rw, .v, 512, 0, .any⟩,
   ⟨0x2220, 0x2220, 0, 0, .u8, .r, .v, 512, 10, .any⟩,
   ⟨0x2220, 0x2220, 1, 1, .u8, .rw, .p, 512, 0, (.int 0 2)⟩,
   ⟨0x2220, 0x2220, 2, 2, .u16, .rw, .p, 512, 0, (.int 0 511)⟩,
   ⟨0x2220, 0x2220, 3, 3, .i32, .rw, .p, 512, 1, .any⟩,
   ⟨0x2220, 0x2220, 4, 4, .u32, .rw, .p, 512, 1, (.int 1 0x80000000)⟩,
   ⟨0x2220, 0x2220, 5, 5, .u8, .rw, .p, 512, 0, (.int 0 1)⟩,
   ⟨0x2220, 0x2220, 6, 6, .i64, .rw, .p, 512, 0, .any⟩,
   ⟨0x2220, 0x2220, 7, 7, .u8, .rw, .p, 512, 0, (.int 0 63)⟩,
   ⟨0x2220, 0x2220, 8, 8, .i64, .rw, .p, 512, 0, .any⟩,
   ⟨0x2220, 0x2220, 9, 9, .u16, .rw, .p, 512, 500, (.int 1 60000)⟩,
   ⟨0x2220, 0x2220, 10, 10, .bool, .rw, .p, 512, 0, .any⟩,
   ⟨0x2230, 0x2230, 0, 0, .u8, .r, .v, 512, 14, .any⟩,
   ⟨0x2230, 0x2230, 1, 1, .u8, .rw, .p, 512, 11, (.int 1 12)⟩]

/-- Rows of objects 2230h to 2251h. -/
def dictAxis2 : List Desc :=
  [⟨0x2230, 0x2230, 2, 2, .f32, .rw, .p, 512, 1176256512, .pos⟩,
   ⟨0x2230, 0x2230, 3, 3, .f32, .rw, .p, 512, 1148846080, .pos⟩,
   ⟨0x2230, 0x2230, 4, 4, .f32, .rw, .p, 512, 1203982336, .pos⟩,
   ⟨0x2230, 0x2230, 5, 5, .i64, .rw, .p, 512, 0, .any⟩,
   ⟨0x2230, 0x2230, 6, 6, .u32, .rw, .p, 512, 0, .any⟩,
   ⟨0x2230, 0x2230, 7, 7, .u16, .rw, .p, 512, 0, .any⟩,
   ⟨0x2230, 0x2230, 8, 8, .u16, .rw, .p, 512, 0, .any⟩,
   ⟨0x2230, 0x2230, 9, 9, .u16, .rw, .p, 512, 0, .any⟩,
   ⟨0x2230, 0x2230, 10, 10, .u8, .rw, .p, 512, 255, .channelOrField⟩,
   ⟨0x2230, 0x2230, 11, 11, .u16, .rw, .p, 512, 0, .any⟩,
   ⟨0x2230, 0x2230, 12, 12, .u32, .rw, .p, 512, 10000, .any⟩,
   ⟨0x2230, 0x2230, 13, 13, .u32, .rw, .p, 512, 4000000000, .any⟩,
   ⟨0x2230, 0x2230, 14, 14, .u32, .rw, .p, 512, 60000, .any⟩,
   ⟨0x2240, 0x2240, 0, 0, .u8, .r, .v, 512, 8, .any⟩,
   ⟨0x2240, 0x2240, 1, 1, .u8, .r, .v, 512, 0, .any⟩,
   ⟨0x2240, 0x2240, 2, 2, .u8, .r, .v, 512, 0, .any⟩,
   ⟨0x2240, 0x2240, 3, 3, .i64, .r, .v, 512, 0, .any⟩,
   ⟨0x2240, 0x2240, 4, 4, .f32, .r, .v, 512, 0, .any⟩,
   ⟨0x2240, 0x2240, 5, 5, .f32, .r, .v, 512, 0, .any⟩,
   ⟨0x2240, 0x2240, 6, 6, .i64, .r, .l, 512, 0, .any⟩,
   ⟨0x2240, 0x2240, 7, 7, .u8, .r, .v, 512, 0, .any⟩,
   ⟨0x2240, 0x2240, 8, 8, .u32, .r, .v, 512, 0, .any⟩,
   ⟨0x2250, 0x2250, 0, 0, .u8, .r, .v, 512, 11, .any⟩,
   ⟨0x2250, 0x2250, 1, 1, .u8, .rw, .p, 512, 128, .any⟩,
   ⟨0x2250, 0x2250, 2, 2, .u8, .rw, .p, 512, 204, .any⟩,
   ⟨0x2250, 0x2250, 3, 3, .u8, .rw, .p, 512, 255, .any⟩,
   ⟨0x2250, 0x2250, 4, 4, .f32, .rw, .p, 512, 1195900928, .pos⟩,
   ⟨0x2250, 0x2250, 5, 5, .f32, .rw, .p, 512, 1176502272, .nonneg⟩,
   ⟨0x2250, 0x2250, 6, 6, .u8, .rw, .p, 512, 255, (.orNone 0 7 0xFF)⟩,
   ⟨0x2250, 0x2250, 7, 7, .f32, .rw, .p, 512, 1106247680, (.flt 0 1119092736)⟩,
   ⟨0x2250, 0x2250, 8, 8, .f32, .rw, .p, 512, 1065353216, (.flt 0 1101004800)⟩,
   ⟨0x2250, 0x2250, 9, 9, .f32, .rw, .p, 512, 1119092736, (.flt 1106247680 1124532224)⟩,
   ⟨0x2250, 0x2250, 10, 10, .u8, .rw, .p, 512, 4, (.int 1 255)⟩,
   ⟨0x2250, 0x2250, 11, 11, .u8, .rw, .p, 512, 0, (.int 0 3)⟩,
   ⟨0x2251, 0x2251, 0, 0, .u8, .r, .v, 512, 5, .any⟩,
   ⟨0x2251, 0x2251, 1, 1, .u8, .r, .v, 512, 0, .any⟩,
   ⟨0x2251, 0x2251, 2, 2, .bool, .r, .v, 512, 0, .any⟩,
   ⟨0x2251, 0x2251, 3, 3, .f32, .r, .v, 512, 0, .any⟩,
   ⟨0x2251, 0x2251, 4, 4, .u32, .r, .v, 512, 0, .any⟩,
   ⟨0x2251, 0x2251, 5, 5, .bool, .r, .v, 512, 0, .any⟩]

/-- Rows of objects 2400h to 2710h. -/
def dictAxis3 : List Desc :=
  [⟨0x2400, 0x2400, 0, 0, .u8, .r, .v, 16, 6, .any⟩,
   ⟨0x2400, 0x2400, 1, 1, .bool, .rwp, .p, 16, 0, .any⟩,
   ⟨0x2400, 0x2400, 2, 2, .f32, .rw, .v, 16, 0, .any⟩,
   ⟨0x2400, 0x2400, 3, 3, .f32, .rw, .p, 16, 1232348160, .pos⟩,
   ⟨0x2400, 0x2400, 4, 4, .f32, .rw, .p, 16, 1287568416, .pos⟩,
   ⟨0x2400, 0x2400, 5, 5, .i64, .r, .v, 16, 0, .any⟩,
   ⟨0x2400, 0x2400, 6, 6, .f32, .r, .v, 16, 0, .any⟩,
   ⟨0x2500, 0x2500, 0, 0, .u8, .r, .v, 64, 4, .any⟩,
   ⟨0x2500, 0x2500, 1, 1, .u16, .rw, .p, 64, 0, .any⟩,
   ⟨0x2500, 0x2500, 2, 2, .u32, .rw, .p, 64, 1, .any⟩,
   ⟨0x2500, 0x2500, 3, 3, .i32, .rw, .p, 64, 0, .any⟩,
   ⟨0x2500, 0x2500, 4, 4, .blob, .rw, .p, 64, 0, .any⟩,
   ⟨0x2600, 0x2603, 0, 0, .u8, .r, .v, 0, 1, .any⟩,
   ⟨0x2600, 0x2603, 1, 1, .blob, .rwp, .p, 0, 0, .any⟩,
   ⟨0x2700, 0x2700, 0, 0, .u8, .r, .v, 8, 15, .any⟩,
   ⟨0x2700, 0x2700, 1, 1, .bool, .rwp, .p, 8, 0, .any⟩,
   ⟨0x2700, 0x2700, 2, 2, .u8, .rwp, .p, 8, 1, (.int 0 2)⟩,
   ⟨0x2700, 0x2700, 3, 3, .u32, .rwp, .p, 8, 100, (.int 20 40000)⟩,
   ⟨0x2700, 0x2700, 4, 4, .u8, .rwp, .p, 8, 0, (.int 0 63)⟩,
   ⟨0x2700, 0x2700, 5, 5, .bool, .rwp, .p, 8, 0, .any⟩,
   ⟨0x2700, 0x2700, 6, 6, .u8, .rwp, .p, 8, 0, (.int 0 2)⟩,
   ⟨0x2700, 0x2700, 7, 7, .u32, .rwp, .p, 8, 0, .any⟩,
   ⟨0x2700, 0x2700, 8, 8, .u32, .rwp, .p, 8, 4096, (.int 6 0x40000000)⟩,
   ⟨0x2700, 0x2700, 9, 9, .u16, .rwp, .p, 8, 4, .any⟩,
   ⟨0x2700, 0x2700, 10, 10, .u16, .rwp, .p, 8, 16, (.int 1 256)⟩,
   ⟨0x2700, 0x2700, 11, 11, .u8, .rwp, .p, 8, 0, (.int 0 64)⟩,
   ⟨0x2700, 0x2700, 12, 12, .u32, .rwp, .p, 8, 0, .any⟩,
   ⟨0x2700, 0x2700, 13, 13, .u16, .rwp, .p, 8, 65535, (.orNone 0 511 0xFFFF)⟩,
   ⟨0x2700, 0x2700, 14, 14, .u8, .rwp, .p, 8, 255, (.orNone 0 7 0xFF)⟩,
   ⟨0x2700, 0x2700, 15, 15, .u8, .rwp, .p, 8, 255, (.orNone 0 7 0xFF)⟩,
   ⟨0x2710, 0x2710, 0, 0, .u8, .r, .v, 8, 14, .any⟩,
   ⟨0x2710, 0x2710, 1, 1, .i64, .r, .l, 8, 0, .any⟩,
   ⟨0x2710, 0x2710, 2, 2, .u32, .r, .v, 8, 0, .any⟩,
   ⟨0x2710, 0x2710, 3, 3, .f32, .r, .v, 8, 0, .any⟩,
   ⟨0x2710, 0x2710, 4, 4, .bool, .r, .v, 8, 0, .any⟩,
   ⟨0x2710, 0x2710, 5, 5, .u8, .r, .v, 8, 255, .any⟩,
   ⟨0x2710, 0x2710, 6, 6, .u8, .r, .v, 8, 0, .any⟩,
   ⟨0x2710, 0x2710, 7, 7, .u32, .r, .v, 8, 0, .any⟩,
   ⟨0x2710, 0x2710, 8, 8, .bool, .r, .v, 8, 0, .any⟩,
   ⟨0x2710, 0x2710, 9, 9, .i64, .r, .v, 8, 0, .any⟩]

/-- Rows of objects 2710h to 2720h. -/
def dictAxis4 : List Desc :=
  [⟨0x2710, 0x2710, 10, 10, .i32, .r, .v, 8, 0, .any⟩,
   ⟨0x2710, 0x2710, 11, 11, .u32, .r, .v, 8, 0, .any⟩,
   ⟨0x2710, 0x2710, 12, 12, .u32, .r, .v, 8, 0, .any⟩,
   ⟨0x2710, 0x2710, 13, 13, .u32, .r, .v, 8, 0, .any⟩,
   ⟨0x2710, 0x2710, 14, 14, .bool, .rw, .v, 8, 0, .any⟩,
   ⟨0x2720, 0x2720, 0, 0, .u8, .r, .v, 8, 8, .any⟩,
   ⟨0x2720, 0x2720, 1, 1, .u32, .r, .v, 8, 0, .any⟩,
   ⟨0x2720, 0x2720, 2, 2, .u32, .r, .v, 8, 0, .any⟩,
   ⟨0x2720, 0x2720, 3, 3, .u32, .r, .v, 8, 0, .any⟩,
   ⟨0x2720, 0x2720, 4, 4, .u32, .r, .v, 8, 0, .any⟩,
   ⟨0x2720, 0x2720, 5, 5, .u32, .r, .v, 8, 0, .any⟩,
   ⟨0x2720, 0x2720, 6, 6, .u32, .r, .v, 8, 0, .any⟩,
   ⟨0x2720, 0x2720, 7, 7, .u32, .r, .v, 8, 0, .any⟩,
   ⟨0x2720, 0x2720, 8, 8, .bool, .rw, .v, 8, 0, .any⟩]

/-- Rows of objects 3000h to 3020h. -/
def dictLine0 : List Desc :=
  [⟨0x3000, 0x3000, 0, 0, .u8, .r, .v, 8, 14, .any⟩,
   ⟨0x3000, 0x3000, 1, 1, .bool, .rwp, .p, 8, 0, .any⟩,
   ⟨0x3000, 0x3000, 2, 2, .u8, .rwp, .p, 8, 0, (.int 0 1)⟩,
   ⟨0x3000, 0x3000, 3, 3, .u8, .rwp, .p, 8, 0, (.int 0 1)⟩,
   ⟨0x3000, 0x3000, 4, 4, .f32, .rwp, .p, 8, 1232348160, .any⟩,
   ⟨0x3000, 0x3000, 5, 5, .f32, .rwp, .p, 8, 1143767040, .any⟩,
   ⟨0x3000, 0x3000, 6, 6, .f32, .rwp, .p, 8, 1112014848, .any⟩,
   ⟨0x3000, 0x3000, 7, 10, .u32, .rwp, .p, 8, 0, .any⟩,
   ⟨0x3000, 0x3000, 11, 14, .f32, .rwp, .p, 8, 0, .any⟩,
   ⟨0x3010, 0x3010, 0, 0, .u8, .r, .v, 8, 14, .any⟩,
   ⟨0x3010, 0x3010, 1, 1, .f32, .rw, .p, 8, 1073741824, (.flt 1045220557 1101004800)⟩,
   ⟨0x3010, 0x3010, 2, 2, .f32, .rw, .p, 8, 1101004800, (.flt 0 1128792064)⟩,
   ⟨0x3010, 0x3010, 3, 3, .f32, .rw, .p, 8, 1056964608, (.flt 1008981770 1092616192)⟩,
   ⟨0x3010, 0x3010, 4, 4, .f32, .rw, .p, 8, 1082130432, (.flt 0 1092616192)⟩,
   ⟨0x3010, 0x3010, 5, 5, .f32, .rw, .p, 8, 1056964608, (.flt 1008981770 1092616192)⟩,
   ⟨0x3010, 0x3010, 6, 6, .f32, .rw, .p, 8, 1084227584, (.flt 0 1101004800)⟩,
   ⟨0x3010, 0x3010, 7, 7, .f32, .rw, .p, 8, 1092616192, (.flt 1056964608 1120403456)⟩,
   ⟨0x3010, 0x3010, 8, 8, .f32, .rw, .p, 8, 1101004800, (.flt 1065353216 1140457472)⟩,
   ⟨0x3010, 0x3010, 9, 9, .f32, .rw, .p, 8, 1008981770, (.flt 0 1056964608)⟩,
   ⟨0x3010, 0x3010, 10, 10, .f32, .rw, .p, 8, 1041865114, (.flt 0 1065353216)⟩,
   ⟨0x3010, 0x3010, 11, 11, .f32, .rw, .p, 8, 1066192077, (.flt 1045220557 1073741824)⟩,
   ⟨0x3010, 0x3010, 12, 12, .f32, .rw, .p, 8, 1056964608, (.flt 0 1092616192)⟩,
   ⟨0x3010, 0x3010, 13, 13, .f32, .rw, .p, 8, 0, (.flt 0 1112014848)⟩,
   ⟨0x3010, 0x3010, 14, 14, .f32, .rw, .p, 8, 1065353216, (.flt 1056964608 1069547520)⟩,
   ⟨0x3020, 0x3020, 0, 0, .u8, .r, .v, 8, 17, .any⟩,
   ⟨0x3020, 0x3020, 1, 1, .f32, .rw, .p, 8, 1073741824, (.flt 1045220557 1084227584)⟩,
   ⟨0x3020, 0x3020, 2, 2, .f32, .rw, .p, 8, 1045220557, (.flt 1028443341 1065353216)⟩,
   ⟨0x3020, 0x3020, 3, 3, .f32, .rw, .p, 8, 1036831949, (.flt 1017370378 1050253722)⟩,
   ⟨0x3020, 0x3020, 4, 4, .f32, .rw, .p, 8, 1061997773, (.flt 1056964608 1064514355)⟩,
   ⟨0x3020, 0x3020, 5, 5, .f32, .rw, .p, 8, 1084227584, (.flt 1065353216 1101004800)⟩,
   ⟨0x3020, 0x3020, 6, 6, .f32, .rw, .p, 8, 1036831949, (.flt 1008981770 1056964608)⟩,
   ⟨0x3020, 0x3020, 7, 7, .f32, .rw, .p, 8, 1028443341, (.flt 1008981770 1045220557)⟩,
   ⟨0x3020, 0x3020, 8, 8, .u16, .rw, .p, 8, 200, (.int 20 2000)⟩,
   ⟨0x3020, 0x3020, 9, 9, .f32, .rw, .p, 8, 1062836634, (.flt 1050253722 1064514355)⟩,
   ⟨0x3020, 0x3020, 10, 10, .f32, .rw, .p, 8, 1063675494, (.flt 1051931443 1065017672)⟩,
   ⟨0x3020, 0x3020, 11, 11, .f32, .rw, .p, 8, 1066611507, (.flt 1065772646 1069547520)⟩,
   ⟨0x3020, 0x3020, 12, 12, .f32, .rw, .p, 8, 1066192077, (.flt 1065520988 1069128090)⟩,
   ⟨0x3020, 0x3020, 13, 13, .f32, .rw, .p, 8, 1069547520, (.flt 1056964608 1082130432)⟩,
   ⟨0x3020, 0x3020, 14, 14, .f32, .rw, .p, 8, 1050253722, (.flt 0 1073741824)⟩,
   ⟨0x3020, 0x3020, 15, 15, .u16, .rw, .p, 8, 50, (.int 10 1000)⟩]

/-- Rows of objects 3020h to 3080h. -/
def dictLine1 : List Desc :=
  [⟨0x3020, 0x3020, 16, 16, .u16, .rw, .p, 8, 3000, (.int 100 10000)⟩,
   ⟨0x3020, 0x3020, 17, 17, .u8, .rw, .p, 8, 8, (.int 1 32)⟩,
   ⟨0x3030, 0x3030, 0, 0, .u8, .r, .v, 8, 5, .any⟩,
   ⟨0x3030, 0x3030, 1, 1, .f32, .rw, .v, 8, 0, .flt 3214514586 1067030938⟩,
   ⟨0x3030, 0x3030, 2, 2, .f32, .rw, .v, 8, 0, .flt 3212836864 1065353216⟩,
   ⟨0x3030, 0x3030, 3, 3, .f32, .rw, .v, 8, 1065353216, .flt 1061997773 1067030938⟩,
   ⟨0x3030, 0x3030, 4, 4, .f32, .rw, .v, 8, 1065353216, .flt 1064514355 1065772646⟩,
   ⟨0x3030, 0x3030, 5, 5, .u8, .rw, .v, 8, 0, .any⟩,
   ⟨0x3040, 0x3040, 0, 0, .u8, .r, .v, 8, 15, .any⟩,
   ⟨0x3040, 0x3040, 1, 1, .u8, .r, .v, 8, 0, .any⟩,
   ⟨0x3040, 0x3040, 2, 2, .u8, .r, .v, 8, 0, .any⟩,
   ⟨0x3040, 0x3040, 3, 3, .f32, .r, .v, 8, 0, .any⟩,
   ⟨0x3040, 0x3040, 4, 4, .f32, .r, .v, 8, 0, .any⟩,
   ⟨0x3040, 0x3040, 5, 5, .f32, .r, .v, 8, 0, .any⟩,
   ⟨0x3040, 0x3040, 6, 6, .f32, .r, .v, 8, 0, .any⟩,
   ⟨0x3040, 0x3040, 7, 7, .f32, .r, .v, 8, 0, .any⟩,
   ⟨0x3040, 0x3040, 8, 8, .f32, .r, .v, 8, 0, .any⟩,
   ⟨0x3040, 0x3040, 9, 9, .f32, .r, .v, 8, 0, .any⟩,
   ⟨0x3040, 0x3040, 10, 10, .bool, .r, .v, 8, 0, .any⟩,
   ⟨0x3040, 0x3040, 11, 11, .u32, .r, .v, 8, 0, .any⟩,
   ⟨0x3040, 0x3040, 12, 12, .u8, .r, .v, 8, 0, .any⟩,
   ⟨0x3040, 0x3040, 13, 13, .u32, .r, .v, 8, 0, .any⟩,
   ⟨0x3040, 0x3040, 14, 14, .u32, .r, .v, 8, 0, .any⟩,
   ⟨0x3040, 0x3040, 15, 15, .u32, .r, .v, 8, 0, .any⟩,
   ⟨0x3050, 0x3050, 0, 0, .u8, .r, .v, 8, 4, .any⟩,
   ⟨0x3050, 0x3050, 1, 1, .u64, .r, .l, 8, 0, .any⟩,
   ⟨0x3050, 0x3050, 2, 2, .u64, .r, .l, 8, 0, .any⟩,
   ⟨0x3050, 0x3050, 3, 3, .u32, .r, .l, 8, 0, .any⟩,
   ⟨0x3050, 0x3050, 4, 4, .u32, .r, .l, 8, 0, .any⟩,
   ⟨0x3060, 0x3060, 0, 0, .u8, .r, .v, 8, 5, .any⟩,
   ⟨0x3060, 0x3060, 1, 1, .f32, .rw, .p, 8, 1064514355, (.flt 1060320051 1067030938)⟩,
   ⟨0x3060, 0x3060, 2, 2, .f32, .rw, .p, 8, 1101004800, (.flt 0 1128792064)⟩,
   ⟨0x3060, 0x3060, 3, 3, .f32, .rw, .p, 8, 1084227584, (.flt 0 1120403456)⟩,
   ⟨0x3060, 0x3060, 4, 4, .f32, .rw, .p, 8, 1036831949, (.flt 1017370378 1065353216)⟩,
   ⟨0x3060, 0x3060, 5, 5, .u16, .rw, .p, 8, 20, (.int 1 1000)⟩,
   ⟨0x3080, 0x3080, 0, 0, .u8, .r, .v, 0, 34, .any⟩,
   ⟨0x3080, 0x3080, 1, 1, .u16, .rwp, .p, 0, 128, (.int 64 256)⟩,
   ⟨0x3080, 0x3080, 2, 2, .bool, .rwp, .p, 0, 0, .any⟩,
   ⟨0x3080, 0x3080, 3, 18, .u8, .rwp, .p, 0, 0,
      (.oneOf [0, 0x10, 0x11, 0x12, 0x13, 0x14, 0x15, 0x20, 0x21, 0x22, 0x23, 0x24, 0x25, 0x30])⟩,
   ⟨0x3080, 0x3080, 19, 34, .f32, .rwp, .p, 0, 1065353216, .any⟩]

/-- Rows of objects 3090h to 3120h. -/
def dictLine2 : List Desc :=
  [⟨0x3090, 0x3091, 0, 0, .u8, .r, .v, 0, 6, .any⟩,
   ⟨0x3090, 0x3091, 1, 1, .bool, .r, .v, 0, 0, .any⟩,
   ⟨0x3090, 0x3091, 2, 2, .f32, .r, .v, 0, 0, .any⟩,
   ⟨0x3090, 0x3091, 3, 3, .f32, .r, .v, 0, 0, .any⟩,
   ⟨0x3090, 0x3091, 4, 4, .u32, .r, .v, 0, 0, .any⟩,
   ⟨0x3090, 0x3091, 5, 5, .u16, .r, .v, 0, 0, .any⟩,
   ⟨0x3090, 0x3091, 6, 6, .u32, .r, .v, 0, 0, .any⟩,
   ⟨0x3100, 0x3107, 0, 0, .u8, .r, .v, 0, 4, .any⟩,
   ⟨0x3100, 0x3107, 1, 1, .bool, .rwp, .p, 0, 0, .any⟩,
   ⟨0x3100, 0x3107, 2, 2, .u8, .rwp, .p, 0, 0, (.int 0 7)⟩,
   ⟨0x3100, 0x3107, 3, 3, .f32, .rwp, .p, 0, 1058642330, (.flt 1045220557 1064514355)⟩,
   ⟨0x3100, 0x3107, 4, 4, .f32, .rwp, .p, 0, 981668463, (.flt 925353388 1036831949)⟩,
   ⟨0x3110, 0x3117, 0, 0, .u8, .r, .v, 0, 11, .any⟩,
   ⟨0x3110, 0x3117, 1, 1, .u8, .r, .v, 0, 0, .any⟩,
   ⟨0x3110, 0x3117, 2, 2, .u8, .rw, .v, 0, 0, .any⟩,
   ⟨0x3110, 0x3117, 3, 3, .f32, .r, .v, 0, 1065353216, .any⟩,
   ⟨0x3110, 0x3117, 4, 4, .f32, .r, .v, 0, 0, .any⟩,
   ⟨0x3110, 0x3117, 5, 5, .f32, .r, .v, 0, 0, .any⟩,
   ⟨0x3110, 0x3117, 6, 6, .f32, .r, .v, 0, 0, .any⟩,
   ⟨0x3110, 0x3117, 7, 7, .f32, .r, .v, 0, 0, .any⟩,
   ⟨0x3110, 0x3117, 8, 8, .f32, .r, .v, 0, 0, .any⟩,
   ⟨0x3110, 0x3117, 9, 9, .u32, .r, .v, 0, 0, .any⟩,
   ⟨0x3110, 0x3117, 10, 10, .f32, .r, .v, 0, 1065353216, .any⟩,
   ⟨0x3110, 0x3117, 11, 11, .f32, .r, .v, 0, 0, .any⟩,
   ⟨0x3120, 0x3120, 0, 0, .u8, .r, .v, 512, 5, .any⟩,
   ⟨0x3120, 0x3120, 1, 1, .u8, .rwp, .p, 512, 255, (.orNone 0 7 0xFF)⟩,
   ⟨0x3120, 0x3120, 2, 2, .f32, .rwp, .p, 512, 0, .any⟩,
   ⟨0x3120, 0x3120, 3, 3, .f32, .rwp, .p, 512, 1065353216, .any⟩,
   ⟨0x3120, 0x3120, 4, 4, .f32, .rwp, .p, 512, 1065353216, .pos⟩,
   ⟨0x3120, 0x3120, 5, 5, .u8, .rwp, .p, 512, 255, (.orNone 0 7 0xFF)⟩]

/-- Rows of objects 4000h to 4030h. -/
def dictSafety0 : List Desc :=
  [⟨0x4000, 0x4000, 0, 0, .u8, .r, .v, 0, 9, .any⟩,
   ⟨0x4000, 0x4000, 1, 1, .u16, .r, .v, 0, 0, .any⟩,
   ⟨0x4000, 0x4000, 2, 2, .u16, .r, .v, 0, 0, .any⟩,
   ⟨0x4000, 0x4000, 3, 3, .u8, .r, .v, 0, 1, .any⟩,
   ⟨0x4000, 0x4000, 4, 4, .u16, .rwp, .p, 0, 4, (.int 2 255)⟩,
   ⟨0x4000, 0x4000, 5, 5, .u8, .rwp, .p, 0, 3, (.int 1 16)⟩,
   ⟨0x4000, 0x4000, 6, 6, .u8, .r, .v, 0, 0, .any⟩,
   ⟨0x4000, 0x4000, 7, 7, .u32, .r, .v, 0, 0, .any⟩,
   ⟨0x4000, 0x4000, 8, 8, .u32, .r, .v, 0, 0, .any⟩,
   ⟨0x4000, 0x4000, 9, 9, .u16, .r, .v, 0, 0, .any⟩,
   ⟨0x4010, 0x4010, 0, 0, .u8, .r, .v, 16, 6, .any⟩,
   ⟨0x4010, 0x4010, 1, 1, .u8, .rwp, .p, 16, 0, (.int 0 4)⟩,
   ⟨0x4010, 0x4010, 2, 2, .u8, .rwp, .p, 16, 0, .any⟩,
   ⟨0x4010, 0x4010, 3, 3, .u16, .rwp, .p, 16, 1000, (.int 0 10000)⟩,
   ⟨0x4010, 0x4010, 4, 4, .u8, .rwp, .p, 16, 0, (.int 0 2)⟩,
   ⟨0x4010, 0x4010, 5, 5, .bool, .r, .v, 16, 0, .any⟩,
   ⟨0x4010, 0x4010, 6, 6, .u32, .r, .v, 16, 0, .any⟩,
   ⟨0x4020, 0x4020, 0, 0, .u8, .r, .v, 8, 6, .any⟩,
   ⟨0x4020, 0x4020, 1, 1, .bool, .rwp, .p, 8, 0, .any⟩,
   ⟨0x4020, 0x4020, 2, 2, .u8, .r, .v, 8, 0, .any⟩,
   ⟨0x4020, 0x4020, 3, 3, .u32, .r, .v, 8, 0, .any⟩,
   ⟨0x4020, 0x4020, 4, 4, .u32, .r, .v, 8, 0, .any⟩,
   ⟨0x4020, 0x4020, 5, 5, .u8, .r, .v, 8, 0, .any⟩,
   ⟨0x4020, 0x4020, 6, 6, .time, .r, .v, 8, 0, .any⟩,
   ⟨0x4030, 0x4030, 0, 0, .u8, .r, .v, 512, 17, .any⟩,
   ⟨0x4030, 0x4030, 1, 1, .u8, .rwp, .p, 512, 255, (.orNone 0 7 0xFF)⟩,
   ⟨0x4030, 0x4030, 2, 2, .u8, .rwp, .p, 512, 0, (.int 0 1)⟩,
   ⟨0x4030, 0x4030, 3, 3, .f32, .rwp, .p, 512, 1232348160, .pos⟩,
   ⟨0x4030, 0x4030, 4, 4, .u8, .rwp, .p, 512, 0, .act⟩,
   ⟨0x4030, 0x4030, 5, 5, .i64, .rwp, .p, 512, (-9223372036854775808), .any⟩,
   ⟨0x4030, 0x4030, 6, 6, .i64, .rwp, .p, 512, 9223372036854775807, .any⟩,
   ⟨0x4030, 0x4030, 7, 7, .u8, .rwp, .p, 512, 0, .act⟩,
   ⟨0x4030, 0x4030, 8, 8, .f32, .rwp, .p, 512, 1148846080, .pos⟩,
   ⟨0x4030, 0x4030, 9, 9, .u8, .rwp, .p, 512, 0, (.int 0 1)⟩,
   ⟨0x4030, 0x4030, 10, 10, .u8, .rwp, .p, 512, 0, .act⟩,
   ⟨0x4030, 0x4030, 11, 11, .f32, .rwp, .p, 512, 1120403456, .nonneg⟩,
   ⟨0x4030, 0x4030, 12, 12, .f32, .rwp, .p, 512, 1259902592, .pos⟩,
   ⟨0x4030, 0x4030, 13, 13, .u16, .rwp, .p, 512, 10, (.int 0 1000)⟩,
   ⟨0x4030, 0x4030, 14, 14, .u32, .rwp, .p, 512, 5000, (.int 10 600000)⟩,
   ⟨0x4030, 0x4030, 15, 15, .f32, .rwp, .p, 512, 1120403456, .pos⟩]

/-- Rows of objects 4030h to 4040h. -/
def dictSafety1 : List Desc :=
  [⟨0x4030, 0x4030, 16, 16, .f32, .rwp, .p, 512, 1148846080, .nonneg⟩,
   ⟨0x4030, 0x4030, 17, 17, .u32, .rwp, .p, 512, 100000, .any⟩,
   ⟨0x4040, 0x4040, 0, 0, .u8, .r, .v, 512, 9, .any⟩,
   ⟨0x4040, 0x4040, 1, 1, .u8, .r, .v, 512, 0, .any⟩,
   ⟨0x4040, 0x4040, 2, 2, .u8, .r, .v, 512, 0, .any⟩,
   ⟨0x4040, 0x4040, 3, 3, .u8, .r, .v, 512, 0, .any⟩,
   ⟨0x4040, 0x4040, 4, 4, .f32, .r, .v, 512, 0, .any⟩,
   ⟨0x4040, 0x4040, 5, 5, .bool, .rw, .v, 512, 0, .any⟩,
   ⟨0x4040, 0x4040, 6, 6, .u32, .r, .v, 512, 0, .any⟩,
   ⟨0x4040, 0x4040, 7, 7, .u32, .r, .v, 512, 0, .any⟩,
   ⟨0x4040, 0x4040, 8, 8, .u32, .r, .v, 512, 0, .any⟩,
   ⟨0x4040, 0x4040, 9, 9, .i64, .r, .v, 512, 0, .any⟩]

/-- Rows of objects 5000h to 5021h. -/
def dictStore0 : List Desc :=
  [⟨0x5000, 0x5000, 0, 0, .u8, .r, .v, 0, 10, .any⟩,
   ⟨0x5000, 0x5000, 1, 1, .u8, .r, .v, 0, 0, .any⟩,
   ⟨0x5000, 0x5000, 2, 2, .u8, .r, .v, 0, 0, .any⟩,
   ⟨0x5000, 0x5000, 3, 3, .u32, .r, .v, 0, 0, .any⟩,
   ⟨0x5000, 0x5000, 4, 4, .u32, .r, .v, 0, 0, .any⟩,
   ⟨0x5000, 0x5000, 5, 5, .u32, .r, .v, 0, 0, .any⟩,
   ⟨0x5000, 0x5000, 6, 6, .u16, .r, .v, 0, 0, .any⟩,
   ⟨0x5000, 0x5000, 7, 7, .u8, .r, .v, 0, 0, .any⟩,
   ⟨0x5000, 0x5000, 8, 8, .u32, .rw, .v, 0, 0, .any⟩,
   ⟨0x5000, 0x5000, 9, 9, .u32, .r, .v, 0, 0, .any⟩,
   ⟨0x5000, 0x5000, 10, 10, .u16, .r, .v, 0, 0, .any⟩,
   ⟨0x5001, 0x5001, 0, 0, .u8, .r, .v, 0, 5, .any⟩,
   ⟨0x5001, 0x5001, 1, 1, .u32, .rw, .p, 0, 1000, (.int 100 60000)⟩,
   ⟨0x5001, 0x5001, 2, 2, .u32, .rw, .p, 0, 60, (.int 10 3600)⟩,
   ⟨0x5001, 0x5001, 3, 3, .u32, .rw, .p, 0, 8000000, (.int 100000 8000000)⟩,
   ⟨0x5001, 0x5001, 4, 4, .u32, .rw, .p, 0, 1000000, (.int 10000 1000000)⟩,
   ⟨0x5001, 0x5001, 5, 5, .u16, .rw, .p, 0, 168, (.int 24 720)⟩,
   ⟨0x5002, 0x5002, 0, 0, .u8, .r, .v, 0, 7, .any⟩,
   ⟨0x5002, 0x5002, 1, 1, .u8, .r, .v, 0, 0, .any⟩,
   ⟨0x5002, 0x5002, 2, 2, .f32, .r, .v, 0, 0, .any⟩,
   ⟨0x5002, 0x5002, 3, 3, .u32, .r, .l, 0, 0, .any⟩,
   ⟨0x5002, 0x5002, 4, 4, .u32, .r, .l, 0, 0, .any⟩,
   ⟨0x5002, 0x5002, 5, 5, .u32, .r, .v, 0, 0, .any⟩,
   ⟨0x5002, 0x5002, 6, 6, .u8, .r, .v, 0, 0, .any⟩,
   ⟨0x5002, 0x5002, 7, 7, .f32, .r, .v, 0, 0, .any⟩,
   ⟨0x5010, 0x5010, 0, 0, .u8, .r, .v, 512, 6, .any⟩,
   ⟨0x5010, 0x5010, 1, 1, .u8, .rwp, .p, 512, 0, (.int 0 2)⟩,
   ⟨0x5010, 0x5010, 2, 2, .u8, .rwp, .p, 512, 255, .channelOrField⟩,
   ⟨0x5010, 0x5010, 3, 3, .u8, .rwp, .p, 512, 1, (.int 1 64)⟩,
   ⟨0x5010, 0x5010, 4, 4, .u32, .rwp, .p, 512, 0, .any⟩,
   ⟨0x5010, 0x5010, 5, 5, .u32, .rwp, .p, 512, 4096, (.int 6 0x40000000)⟩,
   ⟨0x5010, 0x5010, 6, 6, .f32, .rwp, .p, 512, 1065353216, .pos⟩,
   ⟨0x5020, 0x5020, 0, 0, .u8, .r, .v, 512, 5, .any⟩,
   ⟨0x5020, 0x5020, 1, 1, .u8, .r, .l, 512, 3, .any⟩,
   ⟨0x5020, 0x5020, 2, 2, .u8, .r, .l, 512, 0, .any⟩,
   ⟨0x5020, 0x5020, 3, 3, .u8, .r, .v, 512, 0, .any⟩,
   ⟨0x5020, 0x5020, 4, 4, .time, .r, .v, 512, 0, .any⟩,
   ⟨0x5020, 0x5020, 5, 5, .i64, .r, .v, 512, 0, .any⟩,
   ⟨0x5021, 0x5021, 0, 0, .u8, .r, .v, 8, 3, .any⟩,
   ⟨0x5021, 0x5021, 1, 1, .u8, .r, .l, 8, 3, .any⟩]

/-- Rows of objects 5021h to 5070h. -/
def dictStore1 : List Desc :=
  [⟨0x5021, 0x5021, 2, 2, .u8, .r, .l, 8, 0, .any⟩,
   ⟨0x5021, 0x5021, 3, 3, .u8, .r, .v, 8, 0, .any⟩,
   ⟨0x5040, 0x5040, 0, 0, .u8, .r, .v, 512, 9, .any⟩,
   ⟨0x5040, 0x5040, 1, 1, .u64, .r, .l, 512, 0, .any⟩,
   ⟨0x5040, 0x5040, 2, 9, .u32, .r, .l, 512, 0, .any⟩,
   ⟨0x5050, 0x5050, 0, 0, .u8, .r, .v, 0, 5, .any⟩,
   ⟨0x5050, 0x5050, 1, 1, .u32, .r, .l, 0, 0, .any⟩,
   ⟨0x5050, 0x5050, 2, 2, .u32, .r, .l, 0, 0, .any⟩,
   ⟨0x5050, 0x5050, 3, 3, .u32, .r, .l, 0, 0, .any⟩,
   ⟨0x5050, 0x5050, 4, 4, .u32, .r, .l, 0, 0, .any⟩,
   ⟨0x5050, 0x5050, 5, 5, .u32, .r, .l, 0, 0, .any⟩,
   ⟨0x5060, 0x5060, 0, 0, .u8, .r, .v, 0, 4, .any⟩,
   ⟨0x5060, 0x5060, 1, 1, .u32, .r, .v, 0, 0, .any⟩,
   ⟨0x5060, 0x5060, 2, 2, .u32, .r, .v, 0, 0, .any⟩,
   ⟨0x5060, 0x5060, 3, 3, .u32, .rw, .v, 0, 0, .any⟩,
   ⟨0x5060, 0x5060, 4, 4, .blob, .r, .v, 0, 0, .any⟩,
   ⟨0x5070, 0x5070, 0, 0, .u8, .r, .v, 0, 9, .any⟩,
   ⟨0x5070, 0x5070, 1, 1, .u8, .rw, .v, 0, 0, .any⟩,
   ⟨0x5070, 0x5070, 2, 2, .bool, .r, .v, 0, 0, .any⟩,
   ⟨0x5070, 0x5070, 3, 3, .bool, .r, .v, 0, 0, .any⟩,
   ⟨0x5070, 0x5070, 4, 4, .u32, .r, .v, 0, 0, .any⟩,
   ⟨0x5070, 0x5070, 5, 5, .u32, .r, .v, 0, 0, .any⟩,
   ⟨0x5070, 0x5070, 6, 6, .u32, .r, .v, 0, 0, .any⟩,
   ⟨0x5070, 0x5070, 7, 7, .u16, .r, .v, 0, 0, .any⟩,
   ⟨0x5070, 0x5070, 8, 8, .u8, .r, .v, 0, 0, .any⟩,
   ⟨0x5070, 0x5070, 9, 9, .u32, .r, .v, 0, 0, .any⟩]

/-- Rows of objects 6000h to 6003h. -/
def dictCapture : List Desc :=
  [⟨0x6000, 0x6003, 0, 0, .u8, .r, .v, 0, 9, .any⟩,
   ⟨0x6000, 0x6003, 1, 1, .u8, .r, .v, 0, 0, .any⟩,
   ⟨0x6000, 0x6003, 2, 2, .blob, .rw, .p, 0, 0, .any⟩,
   ⟨0x6000, 0x6003, 3, 3, .u8, .rw, .v, 0, 0, .any⟩,
   ⟨0x6000, 0x6003, 4, 4, .time, .r, .v, 0, 0, .any⟩,
   ⟨0x6000, 0x6003, 5, 5, .u64, .r, .v, 0, 0, .any⟩,
   ⟨0x6000, 0x6003, 6, 6, .u32, .r, .v, 0, 0, .any⟩,
   ⟨0x6000, 0x6003, 7, 7, .u32, .r, .v, 0, 0, .any⟩,
   ⟨0x6000, 0x6003, 8, 8, .u32, .rw, .v, 0, 0, .any⟩,
   ⟨0x6000, 0x6003, 9, 9, .blob, .r, .v, 0, 0, .any⟩]

/-- Rows of objects 7000h to 7020h. -/
def dictTime : List Desc :=
  [⟨0x7000, 0x7000, 0, 0, .u8, .r, .v, 0, 9, .any⟩,
   ⟨0x7000, 0x7000, 1, 1, .time, .r, .v, 0, 0, .any⟩,
   ⟨0x7000, 0x7000, 2, 2, .u64, .rw, .v, 0, 17179869184, .any⟩,
   ⟨0x7000, 0x7000, 3, 3, .time, .rw, .v, 0, 0, .any⟩,
   ⟨0x7000, 0x7000, 4, 4, .u8, .rw, .p, 0, 0, (.int 0 1)⟩,
   ⟨0x7000, 0x7000, 5, 5, .u8, .r, .v, 0, 0, .any⟩,
   ⟨0x7000, 0x7000, 6, 6, .u32, .rw, .p, 0, 1000, .any⟩,
   ⟨0x7000, 0x7000, 7, 7, .u32, .rw, .p, 0, 100000, .any⟩,
   ⟨0x7000, 0x7000, 8, 8, .u32, .r, .v, 0, 0, .any⟩,
   ⟨0x7000, 0x7000, 9, 9, .i64, .r, .v, 0, 0, .any⟩,
   ⟨0x7010, 0x7010, 0, 0, .u8, .r, .v, 0, 4, .any⟩,
   ⟨0x7010, 0x7010, 1, 1, .u32, .rwp, .p, 0, 31250, (.step 12500 1000000 125)⟩,
   ⟨0x7010, 0x7010, 2, 2, .u64, .r, .v, 0, 0, .any⟩,
   ⟨0x7010, 0x7010, 3, 3, .blob, .r, .v, 0, 0, .any⟩,
   ⟨0x7010, 0x7010, 4, 4, .u32, .r, .v, 0, 0, .any⟩,
   ⟨0x7020, 0x7020, 0, 0, .u8, .r, .v, 0, 10, .any⟩,
   ⟨0x7020, 0x7020, 1, 1, .u8, .rwp, .p, 0, 0, (.int 0 2)⟩,
   ⟨0x7020, 0x7020, 2, 2, .u8, .rwp, .p, 0, 0, (.int 0 127)⟩,
   ⟨0x7020, 0x7020, 3, 3, .u8, .r, .v, 0, 0, .any⟩,
   ⟨0x7020, 0x7020, 4, 4, .u64, .r, .v, 0, 0, .any⟩,
   ⟨0x7020, 0x7020, 5, 5, .i64, .r, .v, 0, 0, .any⟩,
   ⟨0x7020, 0x7020, 6, 6, .u32, .r, .v, 0, 0, .any⟩,
   ⟨0x7020, 0x7020, 7, 7, .i32, .r, .v, 0, 0, .any⟩,
   ⟨0x7020, 0x7020, 8, 8, .u32, .r, .v, 0, 0, .any⟩,
   ⟨0x7020, 0x7020, 9, 9, .u32, .r, .v, 0, 0, .any⟩,
   ⟨0x7020, 0x7020, 10, 10, .u32, .r, .v, 0, 0, .any⟩]

/-- Rows of objects 8020h to 8109h. -/
def dictDiag0 : List Desc :=
  [⟨0x8020, 0x8020, 0, 0, .u8, .r, .v, 64, 7, .any⟩,
   ⟨0x8020, 0x8020, 1, 1, .u16, .r, .v, 64, 0, .any⟩,
   ⟨0x8020, 0x8020, 2, 2, .u16, .r, .v, 64, 0, .any⟩,
   ⟨0x8020, 0x8020, 3, 3, .u32, .r, .v, 64, 0, .any⟩,
   ⟨0x8020, 0x8020, 4, 4, .u32, .r, .v, 64, 0, .any⟩,
   ⟨0x8020, 0x8020, 5, 5, .u32, .r, .v, 64, 0, .any⟩,
   ⟨0x8020, 0x8020, 6, 6, .u32, .r, .v, 64, 0, .any⟩,
   ⟨0x8020, 0x8020, 7, 7, .u32, .r, .v, 64, 0, .any⟩,
   ⟨0x8030, 0x8030, 0, 0, .u8, .r, .v, 8, 6, .any⟩,
   ⟨0x8030, 0x8030, 1, 1, .u8, .r, .v, 8, 0, .any⟩,
   ⟨0x8030, 0x8030, 2, 2, .u8, .r, .v, 8, 0, .any⟩,
   ⟨0x8030, 0x8030, 3, 3, .u32, .r, .v, 8, 0, .any⟩,
   ⟨0x8030, 0x8030, 4, 4, .u32, .r, .v, 8, 0, .any⟩,
   ⟨0x8030, 0x8030, 5, 5, .u32, .r, .v, 8, 0, .any⟩,
   ⟨0x8030, 0x8030, 6, 6, .u32, .r, .v, 8, 0, .any⟩,
   ⟨0x8040, 0x8040, 0, 0, .u8, .r, .v, 0, 6, .any⟩,
   ⟨0x8040, 0x8040, 1, 1, .u16, .r, .v, 0, 0, .any⟩,
   ⟨0x8040, 0x8040, 2, 2, .u16, .r, .v, 0, 0, .any⟩,
   ⟨0x8040, 0x8040, 3, 3, .u32, .r, .v, 0, 0, .any⟩,
   ⟨0x8040, 0x8040, 4, 4, .u16, .r, .v, 0, 0, .any⟩,
   ⟨0x8040, 0x8040, 5, 5, .u32, .r, .v, 0, 0, .any⟩,
   ⟨0x8040, 0x8040, 6, 6, .u32, .r, .v, 0, 0, .any⟩,
   ⟨0x8050, 0x8050, 0, 0, .u8, .r, .v, 0, 7, .any⟩,
   ⟨0x8050, 0x8050, 1, 1, .u8, .r, .v, 0, 0, .any⟩,
   ⟨0x8050, 0x8050, 2, 2, .u8, .r, .v, 0, 0, .any⟩,
   ⟨0x8050, 0x8050, 3, 3, .u32, .r, .v, 0, 0, .any⟩,
   ⟨0x8050, 0x8050, 4, 4, .u32, .r, .v, 0, 0, .any⟩,
   ⟨0x8050, 0x8050, 5, 5, .u8, .r, .v, 0, 0, .any⟩,
   ⟨0x8050, 0x8050, 6, 6, .u16, .r, .v, 0, 0, .any⟩,
   ⟨0x8050, 0x8050, 7, 7, .bool, .r, .v, 0, 1, .any⟩,
   ⟨0x8060, 0x8060, 0, 0, .u8, .r, .v, 0, 4, .any⟩,
   ⟨0x8060, 0x8060, 1, 1, .i16, .r, .v, 0, 0, .any⟩,
   ⟨0x8060, 0x8060, 2, 2, .i16, .r, .v, 0, (-40), .any⟩,
   ⟨0x8060, 0x8060, 3, 3, .i16, .r, .v, 0, 0, .any⟩,
   ⟨0x8060, 0x8060, 4, 4, .i16, .r, .v, 0, (-40), .any⟩,
   ⟨0x8100, 0x8109, 0, 0, .u8, .r, .v, 0, 7, .any⟩,
   ⟨0x8100, 0x8109, 1, 1, .u32, .r, .v, 0, 0, .any⟩,
   ⟨0x8100, 0x8109, 2, 2, .u32, .r, .v, 0, 0, .any⟩,
   ⟨0x8100, 0x8109, 3, 3, .u32, .r, .l, 0, 0, .any⟩,
   ⟨0x8100, 0x8109, 4, 4, .u32, .r, .l, 0, 0, .any⟩]

/-- Rows of objects 8100h to 8110h. -/
def dictDiag1 : List Desc :=
  [⟨0x8100, 0x8109, 5, 5, .time, .r, .v, 0, 0, .any⟩,
   ⟨0x8100, 0x8109, 6, 6, .time, .r, .v, 0, 0, .any⟩,
   ⟨0x8100, 0x8109, 7, 7, .bool, .rw, .v, 0, 0, .any⟩,
   ⟨0x8110, 0x8110, 0, 0, .u8, .r, .v, 0, 6, .any⟩,
   ⟨0x8110, 0x8110, 1, 1, .u8, .r, .v, 0, 0, .any⟩,
   ⟨0x8110, 0x8110, 2, 2, .u32, .r, .v, 0, 0, .any⟩,
   ⟨0x8110, 0x8110, 3, 3, .u32, .r, .v, 0, 0, .any⟩,
   ⟨0x8110, 0x8110, 4, 4, .u32, .r, .v, 0, 0, .any⟩,
   ⟨0x8110, 0x8110, 5, 5, .u32, .r, .v, 0, 0, .any⟩,
   ⟨0x8110, 0x8110, 6, 6, .u32, .r, .v, 0, 0, .any⟩]

/-- Rows of objects 9000h to 9031h. -/
def dictEngine0 : List Desc :=
  [⟨0x9000, 0x9000, 0, 0, .u8, .r, .v, 0, 6, .any⟩,
   ⟨0x9000, 0x9000, 1, 1, .u32, .r, .v, 0, 0, .any⟩,
   ⟨0x9000, 0x9000, 2, 2, .u32, .r, .v, 0, 0, .any⟩,
   ⟨0x9000, 0x9000, 3, 3, .i32, .r, .v, 0, 0, .any⟩,
   ⟨0x9000, 0x9000, 4, 4, .i32, .r, .v, 0, 0, .any⟩,
   ⟨0x9000, 0x9000, 5, 5, .u32, .r, .v, 0, 0, .any⟩,
   ⟨0x9000, 0x9000, 6, 6, .u16, .r, .v, 0, 0, .any⟩,
   ⟨0x9010, 0x9010, 0, 0, .u8, .r, .v, 0, 18, .any⟩,
   ⟨0x9010, 0x9010, 1, 1, .u8, .rw, .p, 0, 2, (.int 0 2)⟩,
   ⟨0x9010, 0x9010, 2, 2, .u8, .rw, .p, 0, 64, (.int 0x08 0x77)⟩,
   ⟨0x9010, 0x9010, 3, 3, .u8, .rw, .p, 0, 255, .any⟩,
   ⟨0x9010, 0x9010, 4, 4, .u8, .rw, .p, 0, 25, (.int 15 60)⟩,
   ⟨0x9010, 0x9010, 5, 5, .u8, .rw, .p, 0, 10, (.int 5 55)⟩,
   ⟨0x9010, 0x9010, 6, 6, .u16, .rw, .p, 0, 5, (.int 1 25)⟩,
   ⟨0x9010, 0x9010, 7, 7, .u16, .rw, .p, 0, 600, .any⟩,
   ⟨0x9010, 0x9010, 8, 8, .u16, .rw, .p, 0, 850, .any⟩,
   ⟨0x9010, 0x9010, 9, 9, .u16, .rw, .p, 0, 800, .any⟩,
   ⟨0x9010, 0x9010, 10, 10, .u16, .rw, .p, 0, 200, (.int 50 5000)⟩,
   ⟨0x9010, 0x9010, 11, 11, .u16, .rw, .p, 0, 32, (.int 1 1000)⟩,
   ⟨0x9010, 0x9010, 12, 12, .u16, .r, .v, 0, 0, .any⟩,
   ⟨0x9010, 0x9010, 13, 13, .u16, .r, .v, 0, 0, .any⟩,
   ⟨0x9010, 0x9010, 14, 14, .u8, .r, .v, 0, 0, .any⟩,
   ⟨0x9010, 0x9010, 15, 15, .u32, .r, .v, 0, 0, .any⟩,
   ⟨0x9010, 0x9010, 16, 16, .u32, .r, .v, 0, 0, .any⟩,
   ⟨0x9010, 0x9010, 17, 17, .u32, .r, .v, 0, 0, .any⟩,
   ⟨0x9010, 0x9010, 18, 18, .u32, .r, .v, 0, 0, .any⟩,
   ⟨0x9020, 0x9020, 0, 0, .u8, .r, .v, 0, 10, .any⟩,
   ⟨0x9020, 0x9020, 1, 1, .u8, .r, .v, 0, 0, .any⟩,
   ⟨0x9020, 0x9020, 2, 2, .u8, .r, .v, 0, 0, .any⟩,
   ⟨0x9020, 0x9020, 3, 3, .bool, .rw, .v, 0, 0, .any⟩,
   ⟨0x9020, 0x9020, 4, 4, .u32, .r, .v, 0, 0, .any⟩,
   ⟨0x9020, 0x9020, 5, 5, .u32, .r, .v, 0, 0, .any⟩,
   ⟨0x9020, 0x9020, 6, 6, .u8, .r, .v, 0, 0, .any⟩,
   ⟨0x9020, 0x9020, 7, 7, .time, .r, .v, 0, 0, .any⟩,
   ⟨0x9020, 0x9020, 8, 8, .u32, .r, .v, 0, 0, .any⟩,
   ⟨0x9020, 0x9020, 9, 9, .u8, .rwp, .p, 0, 3, (.int 1 15)⟩,
   ⟨0x9020, 0x9020, 10, 10, .u8, .r, .v, 0, 0, .any⟩,
   ⟨0x9030, 0x9031, 0, 0, .u8, .r, .v, 0, 9, .any⟩,
   ⟨0x9030, 0x9031, 1, 1, .u8, .r, .v, 0, 1, .any⟩,
   ⟨0x9030, 0x9031, 2, 2, .u8, .r, .v, 0, 0, .any⟩]

/-- Rows of objects 9030h to 9031h. -/
def dictEngine1 : List Desc :=
  [⟨0x9030, 0x9031, 3, 3, .u32, .r, .v, 0, 0, .any⟩,
   ⟨0x9030, 0x9031, 4, 4, .u32, .r, .v, 0, 0, .any⟩,
   ⟨0x9030, 0x9031, 5, 5, .u32, .r, .v, 0, 0, .any⟩,
   ⟨0x9030, 0x9031, 6, 6, .u32, .r, .v, 0, 0, .any⟩,
   ⟨0x9030, 0x9031, 7, 7, .u32, .r, .v, 0, 0, .any⟩,
   ⟨0x9030, 0x9031, 8, 8, .u32, .r, .v, 0, 0, .any⟩,
   ⟨0x9030, 0x9031, 9, 9, .u32, .r, .v, 0, 0, .any⟩]

/-- The rows of the object range that holds object `o` (the table of object ranges). -/
def dictOf (o : Nat) : List Desc :=
  match o / 0x1000 with
  | 0 => dictBoot
  | 1 => dictComm0 ++ dictComm1 ++ dictComm2 ++ dictComm3 ++ dictComm4 ++ dictComm5 ++ dictComm6
  | 2 => dictAxis0 ++ dictAxis1 ++ dictAxis2 ++ dictAxis3 ++ dictAxis4
  | 3 => dictLine0 ++ dictLine1 ++ dictLine2
  | 4 => dictSafety0 ++ dictSafety1
  | 5 => dictStore0 ++ dictStore1
  | 6 => dictCapture
  | 7 => dictTime
  | 8 => dictDiag0 ++ dictDiag1
  | 9 => dictEngine0 ++ dictEngine1
  | _ => []

/-- The row of object `o`, element `e`. -/
def desc? (o e : Nat) : Option Desc :=
  (dictOf o).find? fun d => d.lo ≤ o && o ≤ d.hi && d.e0 ≤ e && e ≤ d.e1

/-- True when object `o` exists. -/
def objKnown (o : Nat) : Bool := (desc? o 0).isSome || o == 0xF000

/-- Element 0 of object `o` (R3); the spec gives no elements of the factory record F000h (R93). -/
def objCount (o : Nat) : Nat :=
  if o == 0xF000 then Config.factoryCount % 256 else ((desc? o 0).map fun d => d.dflt.toNat).getD 0

/-- The commit record of the linked group that element `e` of object `o` belongs to; 0 when it is no member
(R116, R120, R176, R228, R230, R241, R271, R324 to R326, R330, R348, R350, R361, R363, R373, R392, R433, R454, R479). -/
def groupRec (o e : Nat) : Nat :=
  if e == 0 then 0
  else if o == 0x7010 && e == 1 then 0x1020
  else if 0x1100 ≤ o && o ≤ 0x1103 && e ≤ 5 then 0x1020
  else if o == 0x2010 then 0x1021
  else if o == 0x2000 || o == 0x2020 || o == 0x2100 || o == 0x2120 then 0x1022
  else if o == 0x2130 && e ≤ 12 then 0x1024
  else if 0x2140 ≤ o && o ≤ 0x214F && e ≤ 64 then 0x1025
  else if o == 0x9010 && e ≤ 11 then 0x1026
  else if o == 0x3080 && e ≤ 34 then 0x1027
  else if o == 0x3000 then 0x1028
  else if o == 0x3010 || o == 0x3020 then 0x1029
  else if 0x3100 ≤ o && o ≤ 0x3107 then 0x102A
  else if o == 0x3120 then 0x102A
  else if o == 0x2200 then 0x102B
  else if o == 0x2210 && e ≤ 7 then 0x102C
  else if o == 0x2220 then 0x102C
  else if o == 0x2500 then 0x102D
  else if o == 0x2230 then 0x102E
  else if o == 0x2250 then 0x102F
  else if o == 0x2700 then 0x1030
  else if o == 0x5010 then 0x1031
  else if o == 0x4000 && (e == 4 || e == 5) then 0x1032
  else if o == 0x4010 && e ≤ 4 then 0x1032
  else if o == 0x4020 && e == 1 then 0x1032
  else if o == 0x4030 then 0x1032
  else if o == 0x1200 && e ≤ 4 then 0x1033
  else if o == 0x1201 && e ≤ 4 then 0x1034
  else 0

end Sys2Proof.Machine
end

