-- ==== Sys2Proof/Machine/Tab.lean ====
section
/-! DEFINITION. Sparse tables and byte memories as plain data: lists of key and value pairs with strictly rising keys.
A byte memory lists no byte that equals what an unlisted address reads as (00h; notes/assumptions/4.md). -/

namespace Sys2Proof.Machine

/-- A sparse table: keys strictly rising. -/
abbrev Tab (α : Type) := List (Nat × α)

/-- The value listed under `k`. -/
def Tab.find {α : Type} : Tab α → Nat → Option α
  | [], _ => none
  | (j, a) :: t, k => if j == k then some a else if j < k then Tab.find t k else none

/-- The value listed under `k`, or `a`. -/
def Tab.get {α : Type} (t : Tab α) (k : Nat) (a : α) : α := (Tab.find t k).getD a

/-- `t` with `a` listed under `k`. -/
def Tab.put {α : Type} : Tab α → Nat → α → Tab α
  | [], k, a => [(k, a)]
  | (j, b) :: t, k, a =>
    if k < j then (k, a) :: (j, b) :: t else if j == k then (k, a) :: t else (j, b) :: Tab.put t k a

/-- `t` without an entry under `k`. -/
def Tab.del {α : Type} : Tab α → Nat → Tab α
  | [], _ => []
  | (j, b) :: t, k => if k < j then (j, b) :: t else if j == k then t else (j, b) :: Tab.del t k

/-- `t` with the entry under `k` replaced by its image, `a` where none is listed. -/
def Tab.mod {α : Type} (t : Tab α) (k : Nat) (a : α) (f : α → α) : Tab α := Tab.put t k (f (Tab.get t k a))

/-! ### Byte memories -/

/-- A byte memory. -/
abbrev Mem := List Host.Cell

/-- What an unlisted address reads as. -/
def memDefault : Byte := 0

/-- Keys above `lo`, strictly rising, and no value equal to the default. -/
def memWfFrom (lo : Nat) : Mem → Bool
  | [] => true
  | (a, b) :: m => decide (lo ≤ a) && b != memDefault && memWfFrom (a + 1) m

/-- The canonical form. -/
def Mem.wf (m : Mem) : Bool := memWfFrom 0 m

/-- The byte at `a`. -/
def memRead : Mem → Nat → Byte
  | [], _ => memDefault
  | (j, b) :: m, a => if j == a then b else if j < a then memRead m a else memDefault

/-- `m` with byte `b` at `a`. -/
def memWrite : Mem → Nat → Byte → Mem
  | [], a, b => if b == memDefault then [] else [(a, b)]
  | (j, c) :: m, a, b =>
    if a < j then (if b == memDefault then (j, c) :: m else (a, b) :: (j, c) :: m)
    else if j == a then (if b == memDefault then m else (a, b) :: m)
    else (j, c) :: memWrite m a b

/-- `k` bytes from `a`. -/
def memSlice (m : Mem) (a : Nat) : Nat → Bytes
  | 0 => []
  | k + 1 => memRead m a :: memSlice m (a + 1) k

/-- `m` with a byte string written from `a`. -/
def memStore (m : Mem) (a : Nat) : Bytes → Mem
  | [] => m
  | b :: bs => memStore (memWrite m a b) (a + 1) bs

end Sys2Proof.Machine
end

