-- ==== Sys2Proof/Machine/State.lean ====
section
/-! DEFINITION. The state of the block as plain data: one structure per chapter of the spec, the object values, the two
byte memories and the queue of waiting commands. Every field's default is its value at power-good (INVENTORY.md). -/

namespace Sys2Proof.Machine

/-- Reasons a step can stop with a fault. -/
inductive Fault where
  /-- Raised by no meaning: every command of this block has an effect in the spec. Safe. -/
  | none
deriving DecidableEq, Repr

/-- Reasons a step can be refused. -/
inductive Refusal where
  /-- Raised by `exec` for a command that the model gives no meaning, by the command's mnemonic. Safe. -/
  | notModelled (mnemonic : String)
deriving DecidableEq, Repr

/-- A value of an object element: a number (F32 and TIME as their bit patterns) or a byte string (R83). -/
inductive Val where
  | num (n : Int)
  | blob (b : Bytes)
deriving DecidableEq, Repr

/-- What leaves the block. -/
inductive Output where
  /-- An object response from `die` to `src` (R86). -/
  | response (die : Die) (src : Source) (msg : Bytes)
  /-- A Result packet to a download source (R66). -/
  | result (src : Source) (packet : Bytes)
  /-- A cell of `die`'s sender (R16). -/
  | cell (die : Die) (bytes : Bytes)
  /-- A Slalom frame on a segment: cycle, channel mask, frame blocks of 264 bytes, CRC-32 of its EOF (R145 to R149). -/
  | frame (seg cycle chans : Nat) (blocks : List Bytes) (crc : Nat)
  /-- A CLAIM block (R183). -/
  | claim (seg round ident : Nat)
  /-- A Number or Verify block (R188, R189). -/
  | number (seg : Nat) (verify : Bool) (chans value : Nat)
  /-- A DELAY request (R190). -/
  | delay (seg : Nat) (ch : Chan) (pos : Nat)
  /-- A LINK block of code 03h DelaySet, 04h Remeasure or 05h PortQuery (R187). -/
  | link (seg : Nat) (ch : Chan) (code pos value : Nat)
  /-- A PMBus transaction (R269, R270). -/
  | pmbus (address command data : Nat)
  /-- A CAN frame sent by `die`'s port. -/
  | can (die : Die) (f : CanFrame)
  /-- A Delay_Req (R135). -/
  | delayReq (port seq : Nat)
  /-- A revocation order of the Judge to a blade's output stage (R276). -/
  | revoke (blade : Blade)
deriving DecidableEq, Repr

/-! ### The object dictionary (04) -/

/-- A write or commit waiting for the next cycle boundary (R97, R98, R103). -/
structure DueWrite where
  o : Nat
  e : Nat
  i : Nat
  v : Val
  req : Req
  /-- The 16 header bytes of the request; the response copies them. -/
  hdr : Bytes
deriving DecidableEq, Repr

/-- An open edit of a linked group (R102). `pending`: the request whose Command 01h waits (R103). -/
structure Edit where
  owner : Source
  touched : Nat
  shadows : List ((Nat × Nat × Nat) × Val)
  pending : Option (Req × Bytes)
deriving DecidableEq, Repr

/-- A staging copy (R90). -/
structure Staging where
  o : Nat
  e : Nat
  i : Nat
  src : Source
  data : Bytes
  touched : Nat
deriving DecidableEq, Repr

/-- A request received by the host die and not yet answered (R48, R94). `later`: retries that wait for its answer;
`route`: 0 served by the host die, else the mailbox that carries it; `resp`: an answer that waits for earlier requests of
the source (R82); `expired`: that answer is the 09h of R95. -/
structure Outstanding where
  src : Source
  tag : Nat
  msg : Bytes
  at_ : Nat
  later : Nat := 0
  route : Nat := 0
  forwarded : Bool := false
  resp : Option Bytes := none
  expired : Bool := false
deriving DecidableEq, Repr

/-- A kept response (R94). `expired`: the 09h of R95, which a later field response replaces. -/
structure Kept where
  src : Source
  tag : Nat
  resp : Bytes
  at_ : Nat
  expired : Bool
deriving DecidableEq, Repr

/-- A message in assembly from CAN fragments (R107). -/
structure Assembly where
  next : Nat := 0
  data : Bytes := []
deriving DecidableEq, Repr

/-- A request for a gate (R111): delivered at `at_` when it is the one outstanding. -/
structure GateReq where
  req : Req
  msg : Bytes
  at_ : Option Nat
deriving DecidableEq, Repr

/-- Object service. `od`, `hod`: numbers held by the field and the host die; `obl`, `hobl`: byte strings. -/
structure Objs where
  od : Tab Int := []
  obl : Tab Bytes := []
  hod : Tab Int := []
  hobl : Tab Bytes := []
  /-- Counts last reported by the host die, where a field-die count stands beside them (R114). -/
  hostRep : Tab Int := []
  due : List DueWrite := []
  edits : Tab Edit := []
  staging : List Staging := []
  outstanding : List Outstanding := []
  kept : List Kept := []
  /-- Messages of the host die waiting for barrier mailbox 4 and 5 (R81), with their sources. -/
  fwd4 : List (Source × Bytes) := []
  fwd5 : List (Source × Bytes) := []
  /-- Mode commands and safety acknowledgements waiting for mailboxes 6 and 7 (R37). -/
  fwd6 : List (Source × Bytes) := []
  fwd7 : List (Source × Bytes) := []
  /-- Responses of the field die waiting for mailboxes 4 to 7. -/
  resp4 : List Bytes := []
  resp5 : List Bytes := []
  resp6 : List Bytes := []
  resp7 : List Bytes := []
  /-- Requests that the field die has taken, with their responses when ready, in order: the responses to one source leave
  in the order of its requests (R82). -/
  order : List (Req × Option Bytes) := []
  /-- Elements 1-9 of 0030h as they stood when the response to a write of the record left the field die; the host die reads
  them with that response (R548). -/
  bootVals : List (Req × List Int) := []
  asmHcan : Option Assembly := none
  asmFcan : Option Assembly := none
  /-- FCAN requests received and not yet answered (R108). -/
  fcanOpen : List Req := []
  gates : Tab (List GateReq) := []
  /-- Tags of gate requests answered by the 2 ms timeout (R111): segment-position key, tag. -/
  gateLate : List (Nat × Nat) := []
  /-- UdpPort and HcanBase that the host die serves (R105, R113). -/
  hostUdp : Nat := 48713
  hostHcanBase : Nat := 0x540
deriving DecidableEq, Repr

/-! ### The barrier (01, 18) -/

/-- A cell that a sender holds until it is acknowledged (R19). -/
structure HeldCell where
  seq : Nat
  ty : Nat
  b1 : Nat
  payload : Bytes
  sentAt : Nat
  resent : Bool
  due : Bool
  /-- The message of `flight` the cell belongs to. -/
  msg : Option Nat
deriving DecidableEq, Repr

/-- A message of a sender: cells not yet sent, and sequence numbers of the sent ones. -/
structure TxMsg where
  id : Nat
  mbx : Nat
  all : List Bytes
  rest : List Bytes
  sent : List Nat
deriving DecidableEq, Repr

/-- Send side of a barrier mailbox. -/
structure SendSlot where
  pending : Bool := false
  taken : Bool := false
  lost : Bool := false
  collision : Bool := false
  buf : Bytes := []
deriving DecidableEq, Repr

/-- Receive side of a barrier mailbox. -/
structure RecvSlot where
  full : Bool := false
  collision : Bool := false
  count : Nat := 0
  msg : Bytes := []
  /-- The message in assembly: payload so far. -/
  partialMsg : Option Bytes := none
deriving DecidableEq, Repr

/-- One die's end of the barrier. -/
structure BarDie where
  next : Nat := 0
  held : List HeldCell := []
  idleAgain : List Nat := []
  queue : List TxMsg := []
  flight : List TxMsg := []
  msgIds : Nat := 0
  /-- LinkCtl cells to send: byte 6 and the number in bytes 7 and 8. -/
  ctl : List (Nat × Nat) := []
  hb : Option Bytes := none
  expected : Nat := 0
  reorder : Tab Bytes := []
  /-- NAK outstanding: sequence number and time (R20, R22). -/
  nak : Option (Nat × Nat) := none
  send : Tab SendSlot := []
  recv : Tab RecvSlot := []
  hbCount : Nat := 0
  /-- Partner's last heartbeat count, its arrival, and whether the silence test runs (R26, R46). -/
  hbLast : Option Nat := none
  hbAt : Nat := 0
  started : Bool := false
  silent : Bool := false
  /-- Event report (mailbox 8): this die's report waits for its taking; entries that wait (R497). -/
  report : List Bytes := []
  reportOut : Bool := false
deriving DecidableEq, Repr

/-- The barrier. `link`: 0 training, 1 up, 2 down (8110h:1); `training`: a training is under way; `since`: it came up. -/
structure Barrier where
  link : Nat := 0
  training : Bool := true
  since : Nat := 0
  fails : Nat := 0
  firstDone : Bool := false
  /-- The training under way follows a lasting incident (R24). -/
  lasting : Bool := false
  host : BarDie := {}
  field : BarDie := {}
  /-- 8101h: a clear waits to be carried; reports are ignored until one is marked (R34). -/
  clearDue : Bool := false
  clearWait : Bool := false
  /-- Host side: counts from the clear. -/
  hostMarked : Bool := false
  /-- Barrier lost at (R52). -/
  downAt : Option Nat := none
  /-- The 4 ms in which the host die waits for a field Heartbeat after the barrier came up are running (R548). -/
  fieldDue : Bool := false
deriving DecidableEq, Repr

/-! ### Modes (02) -/

/-- The field die's mode and its transitions. -/
structure Modes where
  hostReset : Bool := false
  fieldReset : Bool := false
  /-- The controlled stop of request 02h is in progress; every axis has come to standstill (R41). -/
  stopping : Bool := false
  stopDone : Bool := false
  /-- Request 02h held through Ride-through (R40). -/
  heldRequest : Bool := false
  ackAccepted : Bool := false
  /-- Safe-hold cause that takes effect at the next boundary. -/
  cause : Option Nat := none
  /-- Safe-hold deferred to the end of Ride-through (R57). -/
  deferred : Option Nat := none
  /-- The safe stop of this Safe-hold has completed (R160). -/
  stopped : Bool := false
  grace : Option Nat := none
  /-- Firmware of the dies: the host part runs; the field firmware runs; the host part is accepted (R58). -/
  hostFw : Bool := false
  fieldFw : Bool := false
  hostAccepted : Bool := false
  hostBeat : Bool := false
  fieldBeat : Bool := false
  /-- Hold time counted by the host die and due for report at Prepare (R52, R53). -/
  holdMs : Option Nat := none
  fieldHeld : Bool := false
  /-- Store recovery finished (R413); event 25h due in the history. -/
  recovered : Bool := false
  /-- Host die: the field die has reported (R548). -/
  fieldReported : Bool := false
deriving DecidableEq, Repr

/-! ### Load (03) -/

/-- A download session at the host die (R67). -/
structure Session where
  src : Source
  num : Nat
  next : Nat := 0
  accepted : List Nat := []
  held : List (Nat × Bytes) := []
  failed : List Nat := []
  last : Nat := 0
  headerOk : Bool := false
  tableOk : Bool := false
  rejoin : Bool := false
  begun : Bool := false
  beginOk : Bool := false
  endWait : Bool := false
  trans : Nat := 0
deriving DecidableEq, Repr

/-- Firmware load. -/
structure Load where
  session : Option Session := none
  header : Bytes := []
  /-- Verified or waiting blocks by number: table and parts in host-die SRAM. -/
  blocks : Tab Bytes := []
  /-- The next field block to cross; blocks to send again with Attempt; blocks without a result (R71, R72). -/
  fwdNext : Nat := 0
  toForward : List (Nat × Nat) := []
  crossing : List (Nat × Nat) := []
  accepted : List Nat := []
  incidents : Nat := 0
  /-- The load that End began is still running (R67). -/
  running : Bool := false
  endSent : Bool := false
  hostStartAt : Option Nat := none
  rejoinAt : Option Nat := none
  /-- Field side: Begin's F, digest, identity, security version. -/
  fBlocks : Nat := 0
  fDigest : Bytes := []
  fIdentity : Nat := 0
  fSecurity : Nat := 0
  fFailed : List Nat := []
  fDone : List Nat := []
  fIncidents : Nat := 0
  verifyAgain : Bool := false
  phaseAt : Nat := 0
  lastCell : Nat := 0
  endSeen : Bool := false
  /-- Firmware SRAM of the field die, in blocks of 1,024 bytes by field block number. -/
  fw : Tab Bytes := []
  runIdentity : Nat := 0
  runVersion : Nat := 0
  runSecurity : Nat := 0
  /-- Anti-rollback counter as the field die holds it (R74, R399). -/
  rollback : Nat := 0
  keySlot1 : Bytes := []
  /-- HCAN boot exchange woken (R79); the block in assembly (R80). -/
  hcanWake : Bool := false
  asm : Option Assembly := none
deriving DecidableEq, Repr

/-! ### Cycle and time (05) -/

/-- Time base, latch generator and plant time. -/
structure TimeSt where
  /-- Device time in units of 2^-32 ns, and PLL_T ticks counted. -/
  dev : Nat := 0
  ticks : Nat := 0
  inc : Nat := 0x400000000
  /-- Latch generator: running, cycle number of the latest latch instant, its nominal instant in ns of PLL_T time, next one. -/
  running : Bool := false
  started : Bool := false
  cycle : Nat := 0
  latchNs : Nat := 0
  nextNs : Nat := 0
  /-- The latch instant before, and the period in force at the latest one. -/
  prevNs : Nat := 0
  perWas : Nat := 0
  latchDev : Nat := 0
  /-- Steering (R138): c and r as binary64 values. -/
  settle : Nat := 0
  lastGm : Nat := 0
  oPrev : Int := 0
  r : Dy := ⟨0, 0⟩
  lastPlant : Nat := 0
  lastMsg : Nat := 0
  /-- A step by `-o` at the next latch instant; an increment from the next boundary; SetTime. -/
  stepBy : Option Int := none
  incNext : Option Nat := none
  setNext : Option Nat := none
  /-- Host die: base of its estimate (R137). -/
  hostBase : Option (Nat × Nat × Nat) := none
  /-- PTP: best master, its port identity, announce interval. -/
  best : Option Announce := none
  bestAt : Nat := 0
  syncSeq : Nat := 0
  syncRx : Nat := 0
  syncCorr : Int := 0
  syncOpen : Bool := false
  offset : Option (Nat × Int) := none
  prevPair : Option (Nat × Int) := none
  delaySeq : Nat := 0
  delayTx : Nat := 0
  delayOpen : Bool := false
  delayInt : Int := 0
  t2mt1 : Int := 0
deriving DecidableEq, Repr

/-! ### Service cores, Lift, mailboxes, events (18) -/

/-- A Lift item (the table of Lift items). -/
structure Item where
  flow : Nat := 0
  atomic : Bool := false
  queue : Nat := 0
  source : Nat := 0
  payload : Bytes := []
deriving DecidableEq, Repr

/-- A Lift queue (R484); the counts of 8020h stand among the object values. -/
structure LQueue where
  limit : Nat := 0
  prio : Nat := 0
  /-- Items with their enqueue time, oldest first. -/
  items : List (Item × Nat) := []
  waitSum : Nat := 0
  waitNum : Nat := 0
  second : Nat := 0
  fullAt : Option Nat := none
deriving DecidableEq, Repr

/-- A service core (private LFT_ registers). State: 0 reset, 1 sleeping, 2 running; the counts of 8030h stand among the
object values. -/
structure SCore where
  state : Nat := 0
  staged : Bytes := []
  enqStatus : Nat := 0
  item : Option (Item × Nat) := none
  overrun : Bool := false
  wdPeriod : Nat := 100
  wdEnable : Bool := false
  kickAt : Nat := 0
  /-- Wake due: an interrupt or event arrived and was not yet served (R482). -/
  wake : Bool := false
  sleepAt : Nat := 0
  awake : Nat := 0
  second : Nat := 0
deriving DecidableEq, Repr

/-- An internal mailbox (R491 to R494). -/
structure IntMail where
  cfg : Nat := 0
  sendBuf : Bytes := []
  recvBuf : Bytes := []
  full : Bool := false
  collision : Bool := false
  pending : Bool := false
  taken : Bool := false
  length : Nat := 0
  count : Nat := 0
  /-- The one item held for a full queue (R494). -/
  held : Option Item := none
  f3At : Option Nat := none
deriving DecidableEq, Repr

/-- Latest occurrence of an event (EVT_DATAn). -/
structure EvData where
  params : Bytes := []
  rep : Nat := 0
  count : Nat := 0
deriving DecidableEq, Repr

/-- The Lift, the cores, internal mailboxes and the event controller. -/
structure LiftSt where
  queues : Tab LQueue := []
  cores : Tab SCore := []
  poolMin : Nat := 4096
  flowLast : Tab Nat := []
  lastServed : Tab Nat := []
  flowLimit : Nat := 0
  mails : Tab IntMail := []
  /-- EVT_ROUTEn where it differs from its reset value (HOST set). -/
  routes : Tab Nat := []
  /-- EVT_PENDc_w keyed by 8c + w. -/
  pend : Tab Nat := []
  evData : Tab EvData := []
  /-- Held event items (R496) by event: the item and its Repeat. -/
  heldEv : Tab Item := []
deriving DecidableEq, Repr

/-! ### Capture units (19) -/

/-- Accumulation of one channel over an interval (R501): first sample, minimum, maximum, sum, sum of squares. -/
structure CapAcc where
  first : Nat := 0
  min : Nat := 0
  max : Nat := 0
  sum : Dy := ⟨0, 0⟩
  sumSq : Dy := ⟨0, 0⟩
deriving DecidableEq, Repr

/-- A capture unit. `regs`: CAP_ configuration registers by offset where they differ from reset. -/
structure CapUnit where
  regs : Tab Nat := []
  state : Nat := 0
  cfgErr : Bool := false
  trigSrc : Nat := 0
  trigSub : Nat := 0
  frac : Nat := 0
  trigRow : Nat := 0
  trigStamp : Nat := 0
  trigCycle : Nat := 0
  trigTime : Nat := 0
  startRow : Nat := 0
  rows : Nat := 0
  ignored : Nat := 0
  readRow : Nat := 0
  /-- Rows written since arming, samples taken in the interval, rows left after the trigger. -/
  written : Nat := 0
  sub : Nat := 0
  postLeft : Nat := 0
  acc : Tab CapAcc := []
  /-- Latch instants until the next cycle-clocked sample. -/
  skip : Nat := 0
  holdCount : Nat := 0
  armedAt : Nat := 0
  /-- Trigger condition: previous sample, its instant (ns/256), side of L1, side of L2, begin of the pulse, L2 crossed. -/
  prev : Option (Dy × Int) := none
  low1 : Bool := false
  high1 : Bool := false
  low2 : Bool := false
  high2 : Bool := false
  pulseAt : Option Int := none
  pulseF : Nat := 0
  crossed2 : Bool := false
  trigAt : Nat := 0
deriving DecidableEq, Repr

/-- The capture units. `slalomNext`: the next frame carries Trigger (R508). -/
structure CapSt where
  units : Tab CapUnit := []
  slalomNext : Bool := false
deriving DecidableEq, Repr

/-! ### The Saffron store (15) -/

/-- An event waiting to be written to the ring (R424): number, data, device time (TIME), quality, arrival. -/
structure EvEntry where
  num : Nat
  data : Bytes
  time : Nat
  quality : Nat
  at_ : Nat
deriving DecidableEq, Repr

/-- Event history side of the store (R424, R425). -/
structure RingSt where
  queue : List EvEntry := []
  nextSeq : Nat := 1
  /-- Entries taken in the accounting hour; occurrences left out: count, numbers, first, last. -/
  taken : Nat := 0
  leftOut : Nat := 0
  leftNums : List Nat := []
  leftFirst : Nat := 0
  leftLast : Nat := 0
  /-- Entries written less than 1 s ago; repeats to add to the next entry of that number and data. -/
  recent : List (Nat × Bytes × Nat) := []
  repeats : List (Nat × Bytes × Nat) := []
deriving DecidableEq, Repr

/-! ### CAN ports (17) -/

/-- An entry of the transmit FIFO (R471). -/
structure CanTx where
  tag : Nat
  image : Bytes
  started : Bool := false
  cancel : Bool := false
deriving DecidableEq, Repr

/-- A transmit slot (R473). `w…`: values written and in force from its next DUE. -/
structure CanSlot where
  arm : Bool := false
  flag : Bool := false
  tag : Nat := 0
  due : Nat := 0
  period : Nat := 0
  window : Nat := 0
  image : Bytes := []
  wDue : Option Nat := none
  wPeriod : Option Nat := none
  wWindow : Option Nat := none
  wImage : Option Bytes := none
deriving DecidableEq, Repr

/-- A receive buffer (R477). -/
structure CanRx where
  filter : Nat := 0
  mask : Nat := 0
  newData : Bool := false
  lost : Bool := false
  enable : Bool := false
  time : Nat := 0
  image : Bytes := []
deriving DecidableEq, Repr

/-- A CAN controller. `onBus`: the frame sent now, the FIFO head (`none`) or a slot. -/
structure CanPort where
  ctrl : Nat := 1
  nbt : Nat := 0
  dbt : Nat := 0
  int : Nat := 0
  inten : Nat := 0
  tec : Nat := 0
  rxe : Nat := 0
  /-- 0 error active, 1 error passive, 2 bus-off. -/
  state : Nat := 0
  recovering : Bool := false
  tdcv : Nat := 0
  stage : Bytes := []
  fifo : List CanTx := []
  results : List Nat := []
  slots : Tab CanSlot := []
  rx : Tab CanRx := []
  onBus : Option (Option Nat) := none
  initPending : Bool := false
  applyPending : Bool := false
  clashAt : Option Nat := none
  overAt : Option Nat := none
deriving DecidableEq, Repr

/-! ### Slalom segments (06, 07) -/

/-- An exchange of DELAY requests on a channel (R190): position, exchanges done, sums in ps, one silence seen. `last`:
the position after which the exchange ends; `drift`: a remeasurement of one gate (R202). -/
structure DelayRun where
  pos : Nat
  last : Nat
  n : Nat := 0
  sumT : Nat := 0
  sumTa : Nat := 0
  silent : Bool := false
  drift : Bool := false
deriving DecidableEq, Repr

/-- The copy of the present frame that returns on a channel. -/
structure Copy where
  sof : Bool := false
  sofAt : Nat := 0
  idx : Nat := 0
  good : List Nat := []
  bad : List Nat := []
  /-- CRC-32 register over the blocks so far. -/
  crc : Nat := 0xFFFFFFFF
  done : Bool := false
  timedOut : Bool := false
  /-- Payloads of the acyclic blocks that were good. -/
  acyclic : Tab Bytes := []
deriving DecidableEq, Repr

/-- A channel of a segment. `latency` in ps; `back`: the port on which the head's own CLAIM returned. -/
structure SegChan where
  locked : Bool := false
  lost : Bool := false
  latency : Nat := 0
  back : Option Port := none
  run : Option DelayRun := none
  incident : Bool := false
  goodRun : Nat := 0
  lateRun : Nat := 0
  lateMax : Nat := 0
  query : Option Nat := none
  /-- Gates unreachable in the exchanges (R190); gates that wait to be measured again (R202). -/
  deaf : List Nat := []
  queue : List Nat := []
  copy : Copy := {}
deriving DecidableEq, Repr

/-- Kind of an open incident on a gate's window. -/
inductive GateInc where
  | late | missing
deriving DecidableEq, Repr

/-- A gate of a segment: descriptor, incident, timers. -/
structure GateSt where
  desc : Bytes := []
  incident : Option GateInc := none
  lost : Bool := false
  goodRun : Nat := 0
  lateAt : Option Nat := none
  mismatchAt : Option Nat := none
  delaySetAt : Option Nat := none
  measuring : Bool := false
  loopA : Bool := false
  loopB : Bool := false
  /-- The window of the present frame: decided; first good copy was null; Late noted; valid data. -/
  decided : Bool := false
  waiting : Bool := false
  lateNoted : Bool := false
  lateA : Bool := false
  lateB : Bool := false
  data : Option Bytes := none
  flags : Nat := 0
deriving DecidableEq, Repr

/-- An assignment record (R195). -/
structure AsgRec where
  inOff : Nat
  inLen : Nat
  outOff : Nat
  outLen : Nat
  safety : Nat
  hold : Nat
deriving DecidableEq, Repr

/-- A Slalom segment; its state (1120h:1) and counts stand among the object values. -/
structure Seg where
  startDue : Bool := false
  startAt : Nat := 0
  round : Nat := 0
  roundAt : Nat := 0
  /-- Numbering: 1 Number sent, 2 Verify sent, 3 Verify on the other channel; channel, attempt, value. -/
  numStage : Nat := 0
  numCh : Chan := .a
  numTry : Nat := 0
  numValue : Nat := 0
  linkAt : Nat := 0
  a : SegChan := {}
  b : SegChan := {}
  gates : Tab GateSt := []
  /-- Positions whose descriptor or record failed once; first position of the range in progress. -/
  badOnce : List Nat := []
  first : Nat := 1
  asg : Tab AsgRec := []
  tag : Nat := 0
  tagsUsed : List Nat := []
  lastAsg : Tab AsgRec := []
  lastTag : Nat := 0
  lastDesc : Tab Bytes := []
  /-- Frames of kind 01h launched since assignment, consecutive good ones. -/
  tagged : Bool := false
  frames : Nat := 0
  goodFrames : Nat := 0
  /-- The frame on its way: launched at, cycle, kind, blocks, accepted bytes, descriptors, judged. -/
  launched : Bool := false
  launchAt : Nat := 0
  cycle : Nat := 0
  kind : Nat := 0
  blocks : Nat := 0
  judged : Bool := true
  trigSent : Bool := false
  trigSeen : Bool := false
  got : Tab Bytes := []
  frameInc : Bool := false
  blockInc : List Nat := []
  blockLast : List Nat := []
  /-- Safety container: Seq, ReplyFirst, reply slots taken. -/
  seq : Nat := 0
  replyFirst : Nat := 0
  replied : List Nat := []
  /-- Object slots: message going down (gate, rest, fragment), gate granted, message coming up. -/
  down : Option (Nat × Bytes × Nat) := none
  grant : Nat := 0
  up : Option (Nat × Assembly) := none
  upDone : Bool := false
  failAt : Nat := 0
  autoAt : Nat := 0
deriving DecidableEq, Repr

/-- What a segment hands on inside one command: a decided window (`none`: null), a gate lost or present again, a safety
reply or its absence, a gate's object response, a trigger seen. -/
inductive SegSig where
  | window (seg pos : Nat) (data : Option Bytes) (flags : Nat)
  | gateLost (seg pos : Nat)
  | gateBack (seg pos : Nat)
  | reply (seg index sto echo : Nat)
  | noReply (seg index : Nat)
  | response (seg pos : Nat) (msg : Bytes)
  | trigger (seg cycle : Nat)
deriving DecidableEq, Repr

/-! ### Carve engine, blades, governor (08, 09, 10) -/

/-- The set-points a law reads (R343, R222). -/
structure Setp where
  pos : Int := 0
  vel : Bf := ⟨0, 0⟩
  acc : Bf := ⟨0, 0⟩
  tff : Bf := ⟨0, 0⟩
  aux : Bf := ⟨0, 0⟩
deriving DecidableEq, Repr

/-- A law that is due in a cycle and whose window is decided (R217, R244): its inputs. -/
structure Job where
  axis : Nat
  cycle : Nat
  at_ : Nat
  null : Bool
  fields : List Bf
  raws : List Nat
  sp : Setp
deriving DecidableEq, Repr

/-- A law in service on a lane: its next stage, the stage vectors and outputs so far. -/
structure LawRun where
  job : Job
  stage : Nat := 0
  first : Bool := false
  refill : Bool := false
  region : Nat := 0
  sel : Nat := 0
  vecs : Tab Vec := []
  c0s : Tab Bf := []
  ran : Nat := 0
  /-- OUT fields written: offset, bytes. -/
  outs : List (Nat × Bytes) := []
  outSat : Nat := 0
  stSat : List Nat := []
  schedV : Dy := ⟨0, 0⟩
  sched : Bool := false
  outX : Option Bf := none
deriving DecidableEq, Repr

/-- The engine state of one axis law on one blade. -/
structure AxLaw where
  vecs : Tab Vec := []
  c0s : Tab Bf := []
  /-- Region selected for the next run, and region of the last run. -/
  sel : Nat := 0
  ran : Nat := 0
  first : Bool := true
  refill : Bool := false
  /-- Outputs of the stages completed, by cycle (R235); a few cycles back. -/
  ys : Tab (Tab Bf) := []
  /-- Cycle of the last completed run, of the last abandoned one, and its output in the result buffer. -/
  done : Option Nat := none
  dropped : Option Nat := none
  out : Bytes := []
  outSat : Nat := 0
  stSat : Nat := 0
  fmtErr : Nat := 0
  /-- Input of the first OUT stage in the last run (R408). -/
  outX : Bf := ⟨0, 0⟩
  run : Option LawRun := none
deriving DecidableEq, Repr

/-- A line law that is ready in a cycle (R306): its inputs, the latch instant, the state of the unit. -/
structure LineJob where
  cycle : Nat
  at_ : Nat
  ia : Bf
  ib : Bf
  ic : Bf
  vdc : Bf
  st : Nat
  brk : Bool
  valid : Bool
  v : Bf
  theta : Nat
  f : Bf
  closing : Bool
deriving DecidableEq, Repr

/-- The state of one line law on one blade (the table of law states). -/
structure LineLaw where
  first : Bool := true
  theta : Nat := 0
  w : Bf := ⟨0, 0⟩
  wf : Bf := ⟨0, 0⟩
  piso : Bf := ⟨0, 0⟩
  pf : Bf := ⟨0, 0⟩
  qf : Bf := ⟨0, 0⟩
  ifl : Bf := ⟨0, 0⟩
  vse : Bf := ⟨0, 0⟩
  e : Bf := ⟨0, 0⟩
  xr : Bf := ⟨0, 0⟩
  x : Bf := ⟨0, 0⟩
  imag : Bf := ⟨0, 0⟩
  /-- References (vd, vq) computed in the last run and in the one before; angles applied. -/
  ref1 : Bf × Bf := (⟨0, 0⟩, ⟨0, 0⟩)
  ref2 : Bf × Bf := (⟨0, 0⟩, ⟨0, 0⟩)
  ang1 : Nat := 0
  ang2 : Nat := 0
  done : Option Nat := none
  out : Bytes := []
  /-- Runs that wait or are in service, oldest first. -/
  jobs : List LineJob := []
deriving DecidableEq, Repr

/-- A blade; its state and counts stand in 9030h or 9031h. -/
structure BladeSt where
  laws : Tab AxLaw := []
  jobs : List Job := []
  lanes : Tab LawId := []
  lines : Tab LineLaw := []
  /-- Lasting faults reported to the Judge and not yet taken; a self-test is running; resynchronisation cycle. -/
  reports : List Nat := []
  testing : Bool := false
  resync : Option Nat := none
  copyDue : List LawId := []
  copied : List LawId := []
  /-- The output stage may write. -/
  revoked : Bool := false
deriving DecidableEq, Repr

/-- An input window of a cycle (R163). -/
structure WinRec where
  cycle : Nat
  data : Option Bytes
  flags : Nat
deriving DecidableEq, Repr

/-- The engine, the frame writer and the Judge. -/
structure EngSt where
  a : BladeSt := {}
  b : BladeSt := {}
  win : Tab WinRec := []
  /-- Input fields held of the last valid window (R245): BF24 values, raw numbers, and null runs in a row. -/
  held : Tab (List Bf × List Nat) := []
  nulls : Tab Nat := []
  setps : Tab Setp := []
  /-- Frame writer: fields written in the cycle, what the closed frame carries with its Stale bit. -/
  outs : Tab Bytes := []
  uouts : Tab Bytes := []
  fresh : List LawId := []
  closed : Tab (Bytes × Bool) := []
  uclosed : Tab (Bytes × Bool) := []
  /-- Outputs asked for once more (R274); outputs still to replay (R278). -/
  recopy : List (Blade × LawId) := []
  replay : List LawId := []
  /-- Takeover under way: cause, device time and instant of the fault; the blade whose revocation is not yet in effect,
  and the grant's instant. -/
  takeover : Option (Nat × Nat × Nat) := none
  revoking : Option (Blade × Nat) := none
  swapDue : Bool := false
  noArb : Bool := false
  diverged : Option Blade := none
  /-- Every slot is held with Stale set (R287). -/
  holdAll : Bool := false
  /-- Latest completion in the cycle, ns from L_k (R267); least slack of the second in progress. -/
  latest : Option Nat := none
  slackSec : Nat := 0
  slackMin : Option Int := none
  /-- Cut-off of cycle `cutFor` is to come. -/
  cutFor : Option Nat := none
  ranThis : List LawId := []
  /-- Axes whose laws were due in the cycle that ended at the latest latch instant. -/
  dueThis : List Nat := []
  /-- Axes whose slot is permitted in the frame of this cycle (R435). -/
  permits : List Nat := []
deriving DecidableEq, Repr

/-- The slack governor (9010h): sequence in progress, values in ns of slack. -/
structure GovSt where
  /-- Transaction in progress: 0 none, 1 PAGE, 2 VOUT_MODE, 3 VOUT_COMMAND, 4 READ_VOUT; its repeat. -/
  trans : Nat := 0
  again : Bool := false
  exp : Int := 0
  /-- A start sequence or a request waiting for the transaction in progress. -/
  restart : Bool := false
  want : Bool := false
  /-- VOUT_MODE has been read and VStart commanded. -/
  linked : Bool := false
  hold : Nat := 0
  raised : Bool := false
  /-- Least slack of the interval, as the pair S, W. -/
  smin : Option (Int × Int) := none
  /-- Reads of READ_VOUT to come: instant, and whether it is the repeat. -/
  settles : List (Nat × Bool) := []
  readAgain : Bool := false
  evalAt : Nat := 0
deriving DecidableEq, Repr

/-! ### Line engine and Glide (11, 12) -/

/-- Converter inputs of a slot as last valid (R298). -/
structure ConvIn where
  ia : Int := 0
  ib : Int := 0
  ic : Int := 0
  vdc : Nat := 0
  status : Nat := 0
deriving DecidableEq, Repr

/-- A line unit. -/
structure LineUnit where
  cmd : Option Nat := none
  fit : Bool := false
  conv : Tab ConvIn := []
  dist : Nat := 0
  conf : Nat := 0
  deadAt : Option Nat := none
  deadDue : Bool := false
  syncAt : Option Nat := none
  closing : Bool := false
  closeAt : Option Nat := none
  breakerLate : Bool := false
  bsSeen : Bool := false
  rideAt : Nat := 0
  rideLong : Bool := false
  recAt : Option Nat := none
  recDue : Bool := false
  causes : List Nat := []
  exhAt : Option Nat := none
  exhausted : Bool := false
  xi : Dy := ⟨0, 0⟩
  /-- Energy in W·ns not yet a whole Wh; time in ns not yet a whole hour. -/
  whOut : Nat := 0
  whIn : Nat := 0
  formPs : Nat := 0
  /-- Cycle whose law has become ready. -/
  ready : Option Nat := none
  vdc : Dy := ⟨0, 0⟩
  /-- Current of the last run. -/
  imag : Bf := ⟨0, 0⟩
deriving DecidableEq, Repr

/-- A point of common coupling (R304). -/
structure Pcc where
  v : Bf := ⟨0, 0⟩
  theta : Nat := 0
  f : Bf := ⟨0, 0⟩
  prev : Option (Nat × Nat) := none
deriving DecidableEq, Repr

/-- A Glide group (R331, R333). -/
structure GlideSt where
  lam : Dy := ⟨1, 0⟩
  lamDot : Dy := ⟨0, 0⟩
  tau : Dy := ⟨0, 0⟩
  cmd : Option Nat := none
  lent : Dy := ⟨0, 0⟩
  lowest : Dy := ⟨1, 0⟩
  exhaust : Bool := false
deriving DecidableEq, Repr

/-- The Line engine and Glide. -/
structure LineSt where
  units : Tab LineUnit := []
  pccs : Tab Pcc := []
  /-- Latched outputs of the sigma-delta inputs; faulted inputs; instant of the last run of one level of each. -/
  sd : List SdOut := []
  faulted : List Nat := []
  stuckAt : Tab Nat := []
  groups : Tab GlideSt := []
  enableWas : Bool := false
  modeWas : Nat := 0
  /-- Riding was so at the last boundary. -/
  riding : Bool := false
deriving DecidableEq, Repr

/-! ### Profiles (13) -/

/-- A move of the queue (R353): its target as a count, values of the motion group at its acceptance. -/
structure Move where
  target : Int
  vel : Dy
  acc : Dy
  dec : Dy
  jerk : Dy
  blend : Bool
deriving DecidableEq, Repr

/-- A motion in service. `kind`: 0 none, 1 move, 2 velocity, 3 gear, 4 cam, 5 stop ramp; a plan of constant-jerk phases
(duration, jerk) from p0, v0, a0 at profile time t0 (ns of device cycle time, or s of group time). -/
structure Motion where
  kind : Nat := 0
  p0 : Int := 0
  v0 : Dy := ⟨0, 0⟩
  a0 : Dy := ⟨0, 0⟩
  t0 : Dy := ⟨0, 0⟩
  phases : List (Dy × Dy) := []
  vEnd : Dy := ⟨0, 0⟩
  target : Int := 0
  /-- The plan runs in device cycle time whatever the group (R349). -/
  devTime : Bool := false
  /-- Gear and cam: master kind and number, ratio, anchors, table, offsets, SyncTime in ms, extrapolation, synchronised. -/
  mKind : Nat := 0
  master : Nat := 0
  num : Int := 1
  den : Nat := 1
  m0 : Int := 0
  s0 : Int := 0
  table : Nat := 0
  mOff : Int := 0
  phase : Int := 0
  syncMs : Nat := 0
  extrap : Bool := false
  synced : Bool := false
  move : Option Move := none
deriving DecidableEq, Repr

/-- A homing (R363 to R367): the settings it started with and its progress. `step`: 1 search, 2 return, 3 approach, 4 creep
to the index, 5 creep to the hard stop, 6 moving to the end. -/
structure HomeSt where
  method : Nat
  search : Dy
  creep : Dy
  acc : Dy
  offset : Int
  backOff : Nat
  sw : Nat
  limNeg : Nat
  limPos : Nat
  indexField : Nat
  toggle : Nat
  hardErr : Nat
  limit : Nat
  timeMs : Nat
  startedAt : Nat
  startPos : Int
  step : Nat
  dir : Int
  reversed : Bool
  edgePos : Int
  hardAt : Option Nat
  /-- State of the toggle bit, or count of latches, at the edge. -/
  toggleWas : Option Nat
  ref : Option Int
deriving DecidableEq, Repr

/-- The profile slot of an axis; its state and set-points stand in 2240h. -/
structure AxProf where
  p : Int := 0
  v : Dy := ⟨0, 0⟩
  a : Dy := ⟨0, 0⟩
  /-- `v`, `a` are derivatives by group time (R331). -/
  scaled : Bool := true
  mot : Motion := {}
  /-- Moves not in service. -/
  queue : List Move := []
  cmds : List Nat := []
  stopDue : Bool := false
  homeFail : Option Nat := none
  /-- Running value of R345, its last raw value and field; velocity of the velocity field. -/
  ext : Option Int := none
  raw : Nat := 0
  ff : Nat := 0xFF
  fbVel : Dy := ⟨0, 0⟩
  homing : Option HomeSt := none
  strong : Bool := false
  current : Nat := 0
  stall : Nat := 0
  /-- Table writes answered by the gate with status 00h (R370). -/
  tables : List Nat := []
deriving DecidableEq, Repr

/-- A virtual master (R357). `base`: group whose time it runs in, FFh device cycle time. -/
structure VMaster where
  p : Int := 0
  v : Dy := ⟨0, 0⟩
  a : Dy := ⟨0, 0⟩
  mot : Option Motion := none
  tv : Option Nat := none
  base : Nat := 0xFF
deriving DecidableEq, Repr

/-- The profile unit. `tau`: device cycle time in ns. -/
structure ProfSt where
  axes : Tab AxProf := []
  masters : Tab VMaster := []
  tau : Nat := 0
  /-- Microstep tables: number of their changes, and a change not yet sent to the gates (R370). -/
  tableGen : Nat := 0
  tablesDue : Bool := false
deriving DecidableEq, Repr

/-! ### Safety functions (16) -/

/-- The monitor's data of an axis; its state stands in 4040h:1. Samples: instant in ns and value. -/
structure AxSafe where
  ext : Int := 0
  raw : Option Nat := none
  ff : Nat := 0xFF
  hist : List (Nat × Int) := []
  velHist : List (Nat × Dy) := []
  nulls : Nat := 0
  /-- A safe stop begins at the next boundary, with its event; a latched demand stands. -/
  stopDue : Option Nat := none
  latched : Bool := false
  scope1 : Bool := false
  ls : Nat := 0
  v0 : Dy := ⟨0, 0⟩
  vs : Dy := ⟨0, 0⟩
  done : Bool := false
  velBad : Nat := 0
  folBad : Nat := 0
  /-- Release accepted: state 1 or 0 at the next boundary. -/
  release : Bool := false
  /-- Seq since which the Permit bit is clear; StoActive mismatch open; lasting mismatch. -/
  clearSeq : Option Nat := none
  stoInc : Bool := false
  stoLast : Bool := false
deriving DecidableEq, Repr

/-- A safety input (R451, R452). Times in ps. `heldUs`: 0 while the raw level is the filtered one, else 1 more than the
µs for which it has held the other. -/
structure SafeIn where
  raw : Bool := false
  heldUs : Nat := 0
  level : Bool := false
  blankUntil : Nat := 0
  testBad : Bool := false
  testOnce : Bool := false
  riseAt : Option Nat := none
  latched : Bool := false
deriving DecidableEq, Repr

/-- A safety output (R453 to R455). -/
structure SafeOut where
  on : Bool := false
  offAt : Nat := 0
  /-- 0 none, 1 off check of a pulse, 2 on check, 3 off read. -/
  check : Nat := 0
  repeating : Bool := false
  goodSince : Option Nat := none
deriving DecidableEq, Repr

/-- The safety monitor. -/
structure SafeSt where
  axes : Tab AxSafe := []
  ins : Tab SafeIn := []
  outs : Tab SafeOut := []
  /-- Rotations without a good reply, by segment and safety index. -/
  replies : Tab Nat := []
  deviceStop : Bool := false
  /-- Causes of a device stop that hold now (their events). -/
  causes : List Nat := []
  monFault : Bool := false
  sealRead : Bool := false
  modeWas : Nat := 0
deriving DecidableEq, Repr

/-! ### Local feedback channels (14) -/

/-- A feedback channel. Bits of `pins`, `raw`, `level`: [0] HA, [1] HB, [2] HC, [3] A, [4] B, [5] Z; `raw` after inversion,
`level` filtered. -/
structure FbChan where
  pins : Nat := 0
  raw : Nat := 0
  level : Nat := 0
  /-- Instants of the last accepted transitions by line, ps. -/
  lastAt : Tab Nat := []
  pos : Int := 0
  /-- Last count, +1 or -1; 0 before any. -/
  dir : Int := 0
  sector : Nat := 0xFF
  lastValid : Option Nat := none
  unc : Nat := 0
  /-- Counts since the last latch instant; sums per latch interval with its end (ns), newest first, since arming. -/
  acc : Int := 0
  hist : List (Int × Nat) := []
  armDue : Bool := false
  seen : Bool := false
  idxPos : Int := 0
  idxDev : Int := 0
  latches : Nat := 0
  idxStamp : Nat := 0
  edgeStamp : Nat := 0
  /-- Latch instants in a row at which Hall and position disagreed, at most 3. -/
  mism : Nat := 0
deriving DecidableEq, Repr

/-! ### The Saffron store (15): controller, journal, sets -/

/-- A line that the store has to write: a journal record, the copy of a record under compaction, a line of the fixed
region, a refresh of a line in place. -/
inductive StJob where
  | record (kind key flags : Nat) (payload : Bytes)
  | copy (key : Nat) (prev : Bool)
  | fixed (line : Nat) (bytes : Bytes)
  | refresh (line : Nat)
deriving DecidableEq, Repr

/-- A valid record in the journal. -/
structure RecAt where
  line : Nat
  bytes : Bytes
deriving DecidableEq, Repr

/-- A parameter-set command in progress: code, requester, header of its request, area, SetSeq; the image once taken. -/
structure SetCmd where
  code : Nat
  req : Req
  hdr : Bytes
  area : Nat
  seq : Nat
  snap : Option (Tab Int × Tab Bytes) := none
  stamp : Nat := 0
  /-- A checked set that comes into force at the next boundary, then whether it is in force. -/
  load : Option (List ((Nat × Nat × Nat) × Val)) := none
  inForce : Bool := false
  skipped : Nat := 0
deriving DecidableEq, Repr

/-- The store. -/
structure StoreSt where
  /-- Recovery began at. -/
  startAt : Nat := 0
  recovering : Bool := false
  /-- Head segment, lines used in it, its SegSeq and Pass; live segments. -/
  head : Nat := 4688
  used : Nat := 0
  segSeq : Nat := 0
  pass : Nat := 0
  live : Nat := 0
  cur : Tab RecAt := []
  prev : Tab RecAt := []
  jobs : List StJob := []
  /-- The line write in progress failed its verify once. -/
  again : Bool := false
  /-- Relocation: retired line by spare; journal segments skipped. -/
  reloc : Tab Nat := []
  skip : List Nat := []
  /-- Next entry index of the event ring. -/
  ringIdx : Nat := 0
  areaWrites : Tab Nat := []
  /-- Operating time at recovery and at the start of the accounting hour, s. -/
  opBase : Nat := 0
  hourStart : Nat := 0
  w : Nat := 0
  hourR : Nat := 0
  hourA : Nat := 0
  /-- Lines written in the journal, the ring and the areas per accounting hour, newest first, at most 720. -/
  hist : List (Nat × Nat × Nat) := []
  runPs : Nat := 0
  runAt : Option Nat := none
  ckAt : Nat := 0
  lifeAt : Nat := 0
  /-- Last proof record by key, and keys whose change waits for the end of the second. -/
  proofAt : Tab Nat := []
  proofDue : List Nat := []
  cmd : Option SetCmd := none
  /-- Areas of the active, previous and factory set. -/
  active : Nat := 0xFF
  previous : Nat := 0xFF
  factory : Nat := 0xFF
  /-- A value of class P came into force since the snapshot. -/
  changed : Bool := false
  /-- A factory set or a lost active set is to be rewritten. -/
  factoryDue : Bool := false
  activeDue : Bool := false
  /-- Breath buffer: flags and payload by kind and key, and its cycle. -/
  buf : Tab Bytes := []
  bufCycle : Nat := 0
  /-- Last-breath commit in progress: trigger, start, frozen cycle, records written. -/
  breath : Option (Nat × Nat × Nat × Nat) := none
  /-- Result and duration in µs of the last commit, whether its event C3h is still to be logged, and the level of PFAIL_N
  (low): kept in the VNV domain. -/
  result : Nat := 0
  duration : Nat := 0
  logDue : Bool := false
  pfail : Bool := false
  /-- PFAIL_N rose at (R524). -/
  pfailAt : Nat := 0
  warned : Bool := false
  /-- Remainders of the life counters: counts and ns by axis and counter. -/
  life : Tab Nat := []
  /-- Recovered position records not yet restored (R416), by position: 1 current or 2 previous version, the record. -/
  rest : Tab (Nat × Bytes) := []
deriving DecidableEq, Repr

/-! ### Clocks and supplies (20) -/

/-- Clocks and supplies. PLLs: [0] S, [1] T, [2] D, [3] H. -/
structure ClkSt where
  /-- PLLs that the detectors report locked. -/
  locked : Nat := 15
  /-- PLLs whose last window failed; PLLs lost until they relock. -/
  failed : List Nat := []
  lost : List Nat := []
  /-- A release that waits for lock (R516): straps, seal with pull-up and pull-down. -/
  fieldWait : Option (Nat × Nat × Nat) := none
  hostWait : Bool := false
  /-- The levels last read at the straps and the seal balls (pull-up, pull-down). -/
  straps : Nat × Nat × Nat := (0, 0, 0)
  /-- The die is held by a supply monitor (R521). -/
  fieldMon : Bool := false
  hostMon : Bool := false
  /-- Hold-up domain: rails of the last monitor reset of the field die; event 2Ah is still to be raised. -/
  rails : Nat := 0
  railsDue : Bool := false
deriving DecidableEq, Repr

/-! ### The whole -/

/-- Everything but the queue and the two byte memories. -/
structure Dev where
  /-- Instant, ps from power-good. -/
  now : Nat := 0
  /-- Counter of free values drawn (Config.freeBool, Config.freeNat): the model's own field. -/
  free : Nat := 0
  /-- What left the block, oldest first: the model's own field. -/
  out : List Output := []
  ob : Objs := {}
  bar : Barrier := {}
  md : Modes := {}
  ld : Load := {}
  tm : TimeSt := {}
  lift : LiftSt := {}
  cap : CapSt := {}
  ring : RingSt := {}
  segs : Tab Seg := []
  eng : EngSt := {}
  gov : GovSt := {}
  line : LineSt := {}
  prof : ProfSt := {}
  safe : SafeSt := {}
  fb : Tab FbChan := []
  st : StoreSt := {}
  clk : ClkSt := {}
  /-- Instants of the last occurrences of rate-limited events, by event and source. -/
  limits : Tab Nat := []
  /-- Handed on inside a command; empty between commands: the model's own field. -/
  sig : List SegSig := []
  hcan : CanPort := { ctrl := 0x36, nbt := 0x1F3EFC0, dbt := 0x7A6780 }
  fcan : CanPort := {}
deriving DecidableEq, Repr

/-- The state: the commands that wait, first in, first out; field-die data and capture SRAM (by address
of the service cores' map); the non-volatile array of the Saffron store (32 MiB, byte-addressed from 0); the rest. -/
structure State where
  pending : List Instr
  sram : Mem
  nv : Mem
  dev : Dev
deriving DecidableEq, Repr

/-- The state at power-good (R45): both dies released, Dormant, boot ROM running, the barrier training; every register
at the value the spec gives for reset (INVENTORY.md, notes/assumptions). -/
def State.reset : State := { pending := [], sram := [], nv := [], dev := {} }

end Sys2Proof.Machine
end

