-- ==== Sys2Proof/Machine/Ops.lean ====
section
/-! DEFINITION. The shared operations: object values (R3 to R7, R83), saturating counts, free values, time, and the
wrappers through which every command changes the state. -/

namespace Sys2Proof.Machine

/-! ### Object values -/

/-- Key of element `e` of object `o`, instance `i`. -/
def okey (o e i : Nat) : Nat := (o * 256 + e) * 65536 + i

/-- The Default of an element (R6); per-device values of 0001h are constants of Config (R64). -/
def dfltNum (o e : Nat) : Int :=
  if o == 1 && e == 3 then ((Config.serial % 2 ^ 64 : Nat) : Int)
  else if o == 1 && e == 4 then ((Config.headIdentity % 2 ^ 48 : Nat) : Int)
  else if o == 1 && e == 5 then ((Config.bootRomVersion % 2 ^ 32 : Nat) : Int)
  else if o == 0x2130 && 13 ≤ e then (if (e - 13) % 5 == 0 then (Bf.pack ⟨2097152, 1⟩ : Nat) else 0)
  else if o == 0xF000 && e == 0 then objCount o
  else ((desc? o e).map Desc.dflt).getD 0

/-- round(32,767 cos(pi j / 512)) for j from 0 to 256 (R369). -/
def quarterCos : List Nat :=
  [32767, 32766, 32765, 32761, 32757, 32752, 32745, 32737, 32728, 32717, 32705, 32692, 32678, 32663, 32646, 32628] ++
  [32609, 32589, 32567, 32545, 32521, 32495, 32469, 32441, 32412, 32382, 32351, 32318, 32285, 32250, 32213, 32176] ++
  [32137, 32098, 32057, 32014, 31971, 31926, 31880, 31833, 31785, 31736, 31685, 31633, 31580, 31526, 31470, 31414] ++
  [31356, 31297, 31237, 31176, 31113, 31050, 30985, 30919, 30852, 30783, 30714, 30643, 30571, 30498, 30424, 30349] ++
  [30273, 30195, 30117, 30037, 29956, 29874, 29791, 29706, 29621, 29534, 29447, 29358, 29268, 29177, 29085, 28992] ++
  [28898, 28803, 28706, 28609, 28510, 28411, 28310, 28208, 28105, 28001, 27896, 27790, 27683, 27575, 27466, 27356] ++
  [27245, 27133, 27019, 26905, 26790, 26674, 26556, 26438, 26319, 26198, 26077, 25955, 25832, 25708, 25582, 25456] ++
  [25329, 25201, 25072, 24942, 24811, 24680, 24547, 24413, 24279, 24143, 24007, 23870, 23731, 23592, 23452, 23311] ++
  [23170, 23027, 22884, 22739, 22594, 22448, 22301, 22154, 22005, 21856, 21705, 21554, 21403, 21250, 21096, 20942] ++
  [20787, 20631, 20475, 20317, 20159, 20000, 19841, 19680, 19519, 19357, 19195, 19032, 18868, 18703, 18537, 18371] ++
  [18204, 18037, 17869, 17700, 17530, 17360, 17189, 17018, 16846, 16673, 16499, 16325, 16151, 15976, 15800, 15623] ++
  [15446, 15269, 15090, 14912, 14732, 14553, 14372, 14191, 14010, 13828, 13645, 13462, 13279, 13094, 12910, 12725] ++
  [12539, 12353, 12167, 11980, 11793, 11605, 11417, 11228, 11039, 10849, 10659, 10469, 10278, 10087, 9896, 9704] ++
  [9512, 9319, 9126, 8933, 8739, 8545, 8351, 8157, 7962, 7767, 7571, 7375, 7179, 6983, 6786, 6590] ++
  [6393, 6195, 5998, 5800, 5602, 5404, 5205, 5007, 4808, 4609, 4410, 4210, 4011, 3811, 3612, 3412] ++
  [3212, 3012, 2811, 2611, 2410, 2210, 2009, 1809, 1608, 1407, 1206, 1005, 804, 603, 402, 201] ++
  [0]

/-- The default content of a microstep table (R369): entry j holds A and B. -/
def microDefault : Bytes :=
  (List.range 256).flatMap fun j => leBytes (quarterCos.getD j 0) 2 ++ leBytes (quarterCos.getD (256 - j) 0) 2

/-- The Default of a STR or BLOB element. -/
def dfltBlob (o e : Nat) : Bytes :=
  if o == 1 && e == 1 then ascii "Dorov"
  else if o == 1 && e == 2 then ascii "SPX-9512"
  else if o == 0x40 && e == 1 then Config.keySlot0
  else if o == 0x40 && e == 2 then zeros 32
  else if 0x6000 ≤ o && o ≤ 0x6003 && e == 2 then zeros 180
  else if 0x2600 ≤ o && o ≤ 0x2603 && e == 1 then microDefault
  else if o == 0xF000 then Config.factoryData e
  else []

/-- The number in force on the field die. -/
def Dev.rd (d : Dev) (o e i : Nat) : Int := (Tab.find d.ob.od (okey o e i)).getD (dfltNum o e)
/-- The same as a natural number. -/
def Dev.rn (d : Dev) (o e i : Nat) : Nat := (d.rd o e i).toNat
/-- The same as a truth value. -/
def Dev.rb (d : Dev) (o e i : Nat) : Bool := d.rd o e i != 0
/-- The value of an F32 element. -/
def Dev.rf (d : Dev) (o e i : Nat) : Dy := f32Val (d.rn o e i)
/-- Sets the number in force on the field die. -/
def Dev.wr (d : Dev) (o e i : Nat) (v : Int) : Dev := { d with ob.od := Tab.put d.ob.od (okey o e i) v }
/-- Sets a truth value. -/
def Dev.wb (d : Dev) (o e i : Nat) (v : Bool) : Dev := d.wr o e i (if v then 1 else 0)
/-- Sets an F32 element to the binary32 value nearest to a dyadic. -/
def Dev.wf (d : Dev) (o e i : Nat) (x : Dy) : Dev := d.wr o e i (f32Of x)
/-- Adds to a count that saturates at FFFF_FFFFh (R33 and the count rules of the chapters). -/
def Dev.add (d : Dev) (o e i n : Nat) : Dev := d.wr o e i (sat32 (d.rn o e i + n))
/-- Increments a count. -/
def Dev.inc (d : Dev) (o e i : Nat) : Dev := d.add o e i 1
/-- The bytes of a field-die STR or BLOB. -/
def Dev.rblob (d : Dev) (o e i : Nat) : Bytes := (Tab.find d.ob.obl (okey o e i)).getD (dfltBlob o e)
/-- Sets the bytes of a field-die STR or BLOB. -/
def Dev.wblob (d : Dev) (o e i : Nat) (v : Bytes) : Dev := { d with ob.obl := Tab.put d.ob.obl (okey o e i) v }
/-- The number held by the host die: boot objects, its copies of 0030h:1-9, and the counts it keeps (R34, R114, R140). -/
def Dev.hrd (d : Dev) (o e i : Nat) : Int := (Tab.find d.ob.hod (okey o e i)).getD (dfltNum o e)
/-- The same as a natural number. -/
def Dev.hrn (d : Dev) (o e i : Nat) : Nat := (d.hrd o e i).toNat
/-- Sets a number held by the host die. -/
def Dev.hwr (d : Dev) (o e i : Nat) (v : Int) : Dev := { d with ob.hod := Tab.put d.ob.hod (okey o e i) v }
/-- Increments a count of the host die. -/
def Dev.hinc (d : Dev) (o e i : Nat) : Dev := d.hwr o e i (sat32 (d.hrn o e i + 1))
/-- The bytes of a host-die STR or BLOB. -/
def Dev.hblob (d : Dev) (o e i : Nat) : Bytes := (Tab.find d.ob.hobl (okey o e i)).getD (dfltBlob o e)
/-- Sets the bytes of a host-die STR or BLOB. -/
def Dev.hwblob (d : Dev) (o e i : Nat) (v : Bytes) : Dev := { d with ob.hobl := Tab.put d.ob.hobl (okey o e i) v }

/-- An I64 or other signed element is stored as the signed number; this is the number of instances for checks. -/
def wrapI64 (x : Int) : Int := toSigned 64 (ofSigned 64 x)

/-! ### Free values and output -/

/-- Draws a truth value that the spec leaves open. -/
def Dev.freeBool (d : Dev) : Bool × Dev := (Config.freeBool d.free, { d with free := d.free + 1 })
/-- Draws a number that the spec leaves open. -/
def Dev.freeNat (d : Dev) : Nat × Dev := (Config.freeNat d.free, { d with free := d.free + 1 })
/-- Something leaves the block. -/
def Dev.emit (d : Dev) (x : Output) : Dev := { d with out := d.out ++ [x] }

/-! ### Time -/

/-- Nanoseconds as a TIME value: bytes 0-5 seconds, bytes 6-9 nanoseconds, read as one little-endian number (R83). -/
def timeOf (ns : Nat) : Nat := ns / 1000000000 % 2 ^ 48 + ns % 1000000000 * 2 ^ 48
/-- A TIME value as nanoseconds. -/
def nsOf (t : Nat) : Nat := t % 2 ^ 48 * 1000000000 + t / 2 ^ 48

/-- Device time in ns (R127). -/
def Dev.devNs (d : Dev) : Nat := d.tm.dev / 2 ^ 32
/-- Device time as TIME. -/
def Dev.devTime (d : Dev) : Nat := timeOf d.devNs
/-- A 32-bit stamp of device time (R132). -/
def Dev.stamp (d : Dev) : Nat := d.devNs % 2 ^ 32
/-- Microseconds and milliseconds in ps. -/
def us : Nat := 1000000
def ms : Nat := 1000000000
def sec : Nat := 1000000000000

/-- Full device time of a 32-bit stamp against a reference (R133). -/
def extendStamp (s ref : Nat) : Int :=
  let x : Nat := (s + 2 ^ 32 - ref % 2 ^ 32) % 2 ^ 32
  (ref : Int) + (if x ≥ 2 ^ 31 then (x : Int) - 4294967296 else (x : Int))

/-- Time goes on to instant `t`: device time advances by the increment on each 4 ns tick of PLL_T (R127); while the
field die is in reset it stays at 0 (R128). -/
def Dev.advance (d : Dev) (t : Nat) : Dev :=
  let now := max d.now t
  let ticks := now / 4000
  { d with
    now := now
    tm.ticks := ticks
    tm.dev := if d.md.fieldReset then 0 else d.tm.dev + (ticks - d.tm.ticks) * d.tm.inc }

/-! ### Wrappers of the commands -/

/-- A command at `t` that changes neither byte memory. -/
def onDev (t : Nat) (f : Dev → Dev) (s : State) : Host.Outcome State Fault Refusal :=
  .next { s with dev := f (s.dev.advance t) }

/-- A command at `t` that may change the byte memories: `f` answers the rest and the byte strings to store, as
(in the array?, address, bytes). -/
def onMem (t : Nat) (f : Mem → Mem → Dev → Dev × List (Bool × Nat × Bytes)) (s : State) :
    Host.Outcome State Fault Refusal :=
  let r := f s.sram s.nv (s.dev.advance t)
  .next { s with
    dev := r.1
    sram := r.2.foldl (fun m w => if w.1 then m else memStore m w.2.1 w.2.2) s.sram
    nv := r.2.foldl (fun m w => if w.1 then memStore m w.2.1 w.2.2 else m) s.nv }

/-- `f` applied for every element of a list, in order. -/
def Dev.each {α : Type} (d : Dev) (xs : List α) (f : Dev → α → Dev) : Dev := xs.foldl f d

/-- The axis numbers (R4). -/
def axes : List Nat := List.range 512

/-- The instances of object `o` element `e` listed with a number other than the Default: the only ones a loop over
enabled instances needs to visit. -/
def Dev.listed (d : Dev) (o e : Nat) : List Nat :=
  (d.ob.od.filter fun p => p.1 / 65536 == o * 256 + e).map fun p => p.1 % 65536

/-- The enabled axes, ascending (2000h:1). -/
def Dev.enabledAxes (d : Dev) : List Nat := (d.listed 0x2000 1).filter fun a => d.rb 0x2000 1 a

end Sys2Proof.Machine
end

