-- ==== Sys2Proof/Machine/Events.lean ====
section
/-! DEFINITION. Raising an event (R495 to R497), the Lift's queues as a target of hardware sources (R484, R488, R496),
waking a core (R482), accepting a capture trigger (R503, R505), and sending a barrier message (R27, R28). -/

namespace Sys2Proof.Machine

/-! ### Barrier messages -/

/-- The end of `die` at the barrier. -/
def Dev.bd (d : Dev) : Die → BarDie
  | .host => d.bar.host
  | .field => d.bar.field

/-- `d` with the end of `die` replaced. -/
def Dev.setBd (d : Dev) (die : Die) (x : BarDie) : Dev :=
  match die with
  | .host => { d with bar.host := x }
  | .field => { d with bar.field := x }

/-- A payload cut into cells of 54 bytes, the last one zero-filled (R16, R28); at least one cell. -/
def cellsOf (fuel : Nat) (bs : Bytes) : List Bytes :=
  match fuel with
  | 0 => []
  | k + 1 => if bs.length ≤ 54 then [fit bs 54] else bs.take 54 :: cellsOf k (bs.drop 54)

/-- Queues a message of `die` for barrier mailbox `mbx` (R27, R28). Its send slot shows it pending. -/
def Dev.sendMsg (d : Dev) (die : Die) (mbx : Nat) (bs : Bytes) : Dev :=
  let x := d.bd die
  let slot := Tab.get x.send mbx {}
  d.setBd die { x with
    queue := x.queue ++ [{ id := x.msgIds, mbx := mbx, all := cellsOf 64 bs, rest := cellsOf 64 bs, sent := [] }]
    msgIds := x.msgIds + 1
    send := Tab.put x.send mbx { slot with pending := true, taken := false, lost := false } }

/-- True while the last message of `die` in mailbox `mbx` is not yet taken. -/
def Dev.sendBusy (d : Dev) (die : Die) (mbx : Nat) : Bool := (Tab.get (d.bd die).send mbx {}).pending

/-! ### Event entries -/

/-- An event entry (the table of event entries): Seq, event, Repeat, Data, Time, Quality, CRC. -/
def entryBytes (seq rep : Nat) (e : EvEntry) : Bytes :=
  let b := leBytes seq 4 ++ leBytes e.num 1 ++ leBytes rep 1 ++ fit e.data 10 ++ leBytes e.time 10 ++
    leBytes e.quality 1 ++ [0]
  b ++ leBytes (crc32 b) 4

/-! ### Cores -/

/-- A core's share of awake time brought up to the present (8030h:2: the last whole second). -/
def Dev.coreTouch (d : Dev) (c : Nat) : Dev :=
  let x := Tab.get d.lift.cores c {}
  let s := d.now / sec
  let run := x.state == 2
  let put (x : SCore) (d : Dev) : Dev := { d with lift.cores := Tab.put d.lift.cores c x }
  if s == x.second then
    put { x with awake := x.awake + (if run then d.now - x.sleepAt else 0), sleepAt := d.now } d
  else
    let whole := x.awake + (if run then (x.second + 1) * sec - x.sleepAt else 0)
    let load := if s == x.second + 1 then whole * 100 / sec else if run then 100 else 0
    put { x with awake := (if run then d.now - s * sec else 0), sleepAt := d.now, second := s }
      (d.wr 0x8030 2 c load)

/-- The state of a core (8030h:1). -/
def Dev.setCore (d : Dev) (c st : Nat) : Dev :=
  let d := d.coreTouch c
  { d with lift.cores := Tab.mod d.lift.cores c {} fun x => { x with state := st } }.wr 0x8030 1 c st

/-- An interrupt or event for core `c`: a sleeping core wakes (R482); a running one keeps the wake as due. -/
def Dev.wakeCore (d : Dev) (c : Nat) : Dev :=
  let x := Tab.get d.lift.cores c {}
  if x.state == 1 then d.setCore c 2
  else { d with lift.cores := Tab.put d.lift.cores c { x with wake := true } }

/-! ### Lift queues -/

/-- Pool entries in use: every item queued and every item in service (R484). -/
def Dev.inFlight (d : Dev) : Nat :=
  (d.lift.queues.map fun q => q.2.items.length).sum + (d.lift.cores.filter fun c => c.2.item.isSome).length

/-- True when queue `q` accepts no item (R484). -/
def Dev.queueFull (d : Dev) (q : Nat) : Bool :=
  let x := Tab.get d.lift.queues q {}
  decide (x.limit ≤ x.items.length) || decide (4096 ≤ d.inFlight)

/-- The pool diagnostics after a change (8040h:1-2, LFT_POOL). -/
def Dev.poolNote (d : Dev) : Dev :=
  let n := d.inFlight
  let d := d.wr 0x8040 1 0 n
  let d := if d.rn 0x8040 2 0 < n then d.wr 0x8040 2 0 n else d
  { d with lift.poolMin := min d.lift.poolMin (4096 - n) }

/-- True when an atomic item of flow `f` is in service (R485). -/
def Dev.flowBusy (d : Dev) (f : Nat) : Bool :=
  d.lift.cores.any fun c => match c.2.item with
    | some (it, _) => it.flow == f
    | none => false

/-- True when an item can be dispatched (R485). -/
def Dev.dispatchable (d : Dev) (it : Item) : Bool := !(it.atomic && d.flowBusy it.flow)

/-- Puts an item into queue `q`, which is not full; every sleeping core is woken when the item can be dispatched. The
second component: the queue became full, for event F1h (at most once per queue per second, R488). -/
def Dev.enqueue (d : Dev) (it : Item) (q : Nat) : Dev × Bool :=
  let x := Tab.get d.lift.queues q {}
  let d := { d with lift.queues := Tab.put d.lift.queues q { x with items := x.items ++ [({ it with queue := q }, d.now)] } }
  let d := (d.inc 0x8020 3 q).wr 0x8020 1 q (x.items.length + 1 : Nat)
  let d := if d.rn 0x8020 2 q < x.items.length + 1 then d.wr 0x8020 2 q (x.items.length + 1 : Nat) else d
  let d := d.poolNote
  let d := if d.dispatchable it then
      d.each (List.range 8) fun d c => if (Tab.get d.lift.cores c {}).state == 1 then d.wakeCore c else d
    else d
  let due := d.queueFull q && (match x.fullAt with
    | none => true
    | some t => decide (t + sec ≤ d.now))
  (if due then { d with lift.queues := Tab.mod d.lift.queues q {} fun x => { x with fullAt := some d.now } } else d, due)

/-! ### Capture triggers -/

/-- Unit `u` of the capture units. -/
def Dev.capU (d : Dev) (u : Nat) : CapUnit := Tab.get d.cap.units u {}
/-- `d` with unit `u` replaced. -/
def Dev.setCapU (d : Dev) (u : Nat) (x : CapUnit) : Dev := { d with cap.units := Tab.put d.cap.units u x }

/-- A configuration register of a capture unit; FASTDEC is 50 after reset. -/
def CapUnit.reg (x : CapUnit) (off : Nat) : Nat := Tab.get x.regs off (if off == 0xC then 50 * 256 else 0)
/-- Number of enabled channels C. -/
def CapUnit.chans (x : CapUnit) : List Nat := (List.range 32).filter fun n => bit (x.reg 0x10) n
/-- Length of a row (R501). -/
def CapUnit.rowLen (x : CapUnit) : Nat := (if bit (x.reg 0) 3 then 20 else 4) * x.chans.length
/-- Rows that the buffer holds (R501). -/
def CapUnit.rowsN (x : CapUnit) : Nat := 4194304 / x.rowLen

/-- A trigger of sources `src` (CAP_STAT.TRIGSRC) reaches unit `u` (R505): accepted in states 1 and 2, with its instant
`stamp` and fraction; triggers at the same instant are recorded together; in states 3 and 4 it is ignored and counted.
The second component: the trigger was accepted. -/
def Dev.capTake (d : Dev) (u src frac stampNs cycle : Nat) : Dev × Bool :=
  let x := d.capU u
  if x.state == 1 || x.state == 2 then
    let d := d.setCapU u { x with
      state := 3, trigSrc := src, trigSub := x.sub, frac := frac, trigRow := x.written % x.rowsN
      trigStamp := stampNs % 2 ^ 32, trigTime := stampNs, trigCycle := cycle, trigAt := d.now
      postLeft := x.rowsN - x.reg 0x14 }
    ((d.wr (0x6000 + u) 1 0 3).wr (0x6000 + u) 5 0 cycle |>.wr (0x6000 + u) 4 0 (timeOf stampNs), true)
  else if x.state == 3 && x.trigAt == d.now then
    (d.setCapU u { x with trigSrc := Nat.lor x.trigSrc src }, false)
  else if x.state == 3 || x.state == 4 then (d.setCapU u { x with ignored := sat32 (x.ignored + 1) }, false)
  else (d, false)

/-- A trigger at unit `u` and, when it is accepted, at every linked unit in state 1 or 2 (R503); a trigger of the
unit's own condition, FORCE or an event of a unit with XDEV goes out with the next frames (R508). Answers the units that
accepted it, for event F9h. -/
def Dev.capTrigger (d : Dev) (u src frac stampNs cycle : Nat) : Dev × List Nat :=
  let x := d.capU u
  let r := d.capTake u src frac stampNs cycle
  if !r.2 then (r.1, [])
  else
    let d := if bit (x.reg 0) 2 && Nat.land src 0x15 != 0 then { r.1 with cap.slalomNext := true } else r.1
    if bit (x.reg 0) 0 then
      (List.range 4).foldl (fun (acc : Dev × List Nat) v =>
        let y := acc.1.capU v
        if v != u && bit (y.reg 0) 0 && (y.state == 1 || y.state == 2) then
          ((acc.1.capTake v 2 0 stampNs cycle).1, acc.2 ++ [v])
        else acc) (d, [u])
    else (d, [u])

/-! ### Raising events -/

/-- EVT_ROUTEn; only HOST is set after reset. -/
def Dev.route (d : Dev) (n : Nat) : Nat := Tab.get d.lift.routes n 0x1000

/-- EVT_DATAn takes the occurrence, the history queues it and, with HOST set, the report to the host collects it
(R424, R495, R497). -/
def Dev.recordEvent (d : Dev) (n : Nat) (ps : Bytes) : Dev :=
  let x := Tab.get d.lift.evData n {}
  let e : EvEntry := { num := n, data := fit ps 10, time := d.devTime, quality := d.rn 0x7000 5 0, at_ := d.now }
  let d := { d with
    lift.evData := Tab.put d.lift.evData n { params := fit ps 10, rep := 0, count := (x.count + 1) % 65536 }
    ring.queue := d.ring.queue ++ [e] }
  if bit (d.route n) 12 then
    if d.bar.field.report.length < 108 then
      let (q, d) := d.freeNat
      { d with bar.field.report := d.bar.field.report ++ [entryBytes (q % 2 ^ 32) 0 e] }
    else d.inc 0x8040 6 0
  else d

/-- The pending bits and interrupts of the routed cores (R495). -/
def Dev.eventCores (d : Dev) (n : Nat) : Dev :=
  d.each (List.range 8) fun d c =>
    if bit (d.route n) (4 + c) then
      { d with lift.pend := Tab.mod d.lift.pend (8 * c + n / 32) 0 fun w => setBit w (n % 32) true }.wakeCore c
    else d

/-- The Lift item of an event (R495, R496): enqueued, or held while the queue is full, with Repeat for further
occurrences. The second component: event F1h is due for the queue. -/
def Dev.eventItem (d : Dev) (n : Nat) (ps : Bytes) : Dev × Bool :=
  let r := d.route n
  if !bit r 13 then (d, false)
  else
    let q := bits r 19 14
    let it : Item := { flow := bits r 29 20, atomic := bit r 30, queue := q, source := 1
                       payload := leBytes n 1 ++ [0] ++ fit ps 10 }
    match Tab.find d.lift.heldEv n with
    | some h =>
      let rep := min 255 (byteAt h.payload 1 + 1)
      ({ d with lift.heldEv := Tab.put d.lift.heldEv n { h with payload := splice h.payload 1 (leBytes rep 1) } }, false)
    | none =>
      if d.queueFull q then
        let d := { d with lift.heldEv := Tab.put d.lift.heldEv n it }
        ((d.inc 0x8020 7 q).wr 0x8040 4 0 (d.lift.heldEv.length : Nat), false)
      else d.enqueue it q

/-- One occurrence of event `n` with parameters `ps`, delivered to every route (R495); `fuel` bounds the events that
the delivery itself raises (F1h, F9h). -/
def raiseN : Nat → Dev → Nat → Bytes → Dev
  | 0, d, _, _ => d
  | k + 1, d, n, ps =>
    let d := d.recordEvent n ps
    let d := (List.range 4).foldl (fun d u =>
      if bit (d.route n) u then
        let r := d.capTrigger u 4 0 d.devNs d.tm.cycle
        r.2.foldl (fun d v => raiseN k d 0xF9 (leBytes v 1 ++ leBytes (d.capU v).trigSrc 1)) r.1
      else d) d
    let d := d.eventCores n
    let r := d.eventItem n ps
    if r.2 then raiseN k r.1 0xF1 (leBytes (bits (d.route n) 19 14) 1) else r.1

/-- The field die raises event `n`; a die in reset raises none. -/
def Dev.raise (d : Dev) (n : Nat) (ps : Bytes) : Dev := if d.md.fieldReset then d else raiseN 8 d n ps

/-- The host die's estimate of device time and its quality (R137), as TIME and quality. -/
def Dev.hostTime (d : Dev) : Nat × Nat :=
  match d.tm.hostBase with
  | some (ns, q, at_) => (timeOf (ns + (d.now - at_) / 1000), q)
  | none => (0, 0)

/-- The host die sends the events it raised to the field die in the form of R497, once its last report is taken. -/
def Dev.flushHostEvents (d : Dev) : Dev :=
  let x := d.bar.host
  if x.report.isEmpty || d.sendBusy .host 8 || d.md.hostReset then d
  else { d with bar.host.report := x.report.drop 108 }.sendMsg .host 8 ((x.report.take 108).flatMap id)

/-- The host die raises event `n` (R137, R497). -/
def Dev.raiseHost (d : Dev) (n : Nat) (ps : Bytes) : Dev :=
  if d.md.hostReset then d
  else
    let h := d.hostTime
    let (q, d) := d.freeNat
    { d with bar.host.report := d.bar.host.report ++
      [entryBytes (q % 2 ^ 32) 0 { num := n, data := fit ps 10, time := h.1, quality := h.2, at_ := d.now }] }.flushHostEvents

/-- A die raises event `n`. -/
def Dev.raiseOn (d : Dev) (die : Die) (n : Nat) (ps : Bytes) : Dev :=
  match die with
  | .host => d.raiseHost n ps
  | .field => d.raise n ps

/-- A checked operation of record `o` (8100h to 8109h) was a transient incident (R31, R32). -/
def Dev.transient (d : Dev) (o : Nat) : Dev := ((d.inc o 1 0).inc o 3 0).wr o 5 0 d.devTime
/-- A checked operation of record `o` was a lasting incident. -/
def Dev.lasting (d : Dev) (o : Nat) : Dev := ((d.inc o 2 0).inc o 4 0).wr o 6 0 d.devTime

end Sys2Proof.Machine
end

