-- ==== Sys2Proof/Machine/Reset.lean ====
section
/-! DEFINITION. The mode (R36), Safe-hold causes (R43), and what the resets of the two dies and a load reset leave
(R39, R51 to R59, R104, R117, R128). -/

namespace Sys2Proof.Machine

/-- The device mode (0030h:1). -/
def Dev.mode (d : Dev) : Nat := d.rn 0x30 1 0

/-- A Safe-hold cause arises (R43): in Run and Ride-through the first one takes effect at the next boundary. -/
def Dev.safeHold (d : Dev) (ev : Nat) : Dev :=
  if d.mode == 3 || d.mode == 4 then
    match d.md.cause with
    | none => { d with md.cause := some ev }
    | some _ => d
  else d

/-- The barrier is lost (R15, R24, R52): a training is under way and the hold time begins. `lasting`: after a lasting
incident. Retrains counts the training unless the field die is in reset (R15). -/
def Dev.barrierLost (d : Dev) (lasting : Bool) : Dev :=
  let d := if d.md.fieldReset then d else (d.wr 0x8110 1 0 0).inc 0x8110 2 0
  let d := { d with
    bar.link := 0, bar.training := true, bar.fails := 0, bar.lasting := lasting
    bar.downAt := if d.bar.link == 1 then some d.now else d.bar.downAt }
  if d.md.hostReset || d.bar.downAt.isNone then d else d.hwr 0x30 10 0 1

/-- What a reset of the field die leaves: the store's array and the host die are untouched, every register of the field
die is at its reset value (R51, R54, R104, R117, R128). -/
def Dev.resetField (d : Dev) : Dev :=
  let z : Dev := {}
  { z with
    now := d.now, free := d.free, out := d.out
    ob := { d.ob with
      od := [], obl := [], hostRep := [], due := [], edits := [], staging := [], resp4 := [], resp5 := []
      resp6 := [], resp7 := [], order := [], bootVals := []
      asmFcan := none, fcanOpen := [], gates := [], gateLate := [] }
    bar := { d.bar with field := {}, clearDue := false, clearWait := false, hostMarked := d.bar.hostMarked }
    md := { hostReset := d.md.hostReset, hostFw := d.md.hostFw, hostBeat := d.md.hostBeat, holdMs := d.md.holdMs
            fieldHeld := d.md.fieldHeld, fieldReported := d.md.fieldReported }
    ld := { d.ld with
      fBlocks := 0, fDigest := [], fIdentity := 0, fSecurity := 0, fFailed := [], fDone := [], fIncidents := 0
      verifyAgain := false, phaseAt := 0, lastCell := 0, endSeen := false, fw := [] }
    tm := { ticks := d.tm.ticks, hostBase := d.tm.hostBase, best := d.tm.best, bestAt := d.tm.bestAt
            syncSeq := d.tm.syncSeq, syncRx := d.tm.syncRx, syncCorr := d.tm.syncCorr, syncOpen := d.tm.syncOpen
            offset := d.tm.offset, prevPair := d.tm.prevPair, delaySeq := d.tm.delaySeq, delayTx := d.tm.delayTx
            delayOpen := d.tm.delayOpen, delayInt := d.tm.delayInt, t2mt1 := d.tm.t2mt1 }
    hcan := d.hcan
    fb := d.fb.map fun p => (p.1, { pins := p.2.pins, raw := p.2.pins, level := p.2.pins })
    st := { z.st with
      result := d.st.result, duration := d.st.duration, logDue := d.st.logDue, pfail := d.st.pfail, pfailAt := d.st.pfailAt }
    clk := d.clk
    ring := { d.ring with queue := [], recent := [], repeats := [] } }

/-- What a reset of the host die leaves (R51, R55): its objects at their Defaults, no session, no request, the boot ROM;
the key fuses keep their content (R65). -/
def Dev.resetHost (d : Dev) : Dev :=
  { d with
    ob := { d.ob with
      hod := [], hobl := [], outstanding := [], kept := [], fwd4 := [], fwd5 := [], fwd6 := [], fwd7 := [], asmHcan := none
      hostUdp := 48713, hostHcanBase := 0x540 }
    bar := { d.bar with host := {}, hostMarked := false }
    md := { d.md with hostFw := false, hostBeat := false, holdMs := none, fieldHeld := false, fieldReported := false }
    ld := { d.ld with
      session := none, header := [], blocks := [], fwdNext := 0, toForward := [], crossing := [], accepted := [], incidents := 0
      running := false, endSent := false, hostStartAt := none, rejoinAt := none
      runIdentity := 0, runVersion := 0, runSecurity := 0, hcanWake := false, asm := none }
    tm := { d.tm with
      hostBase := none, best := none, bestAt := 0, syncSeq := 0, syncRx := 0, syncCorr := 0, syncOpen := false
      offset := none, prevPair := none, delaySeq := 0, delayTx := 0, delayOpen := false, delayInt := 0, t2mt1 := 0 }
    hcan := ({} : Dev).hcan }

/-- Objects of the blocks that a load reset resets: the segments, the axes and the engine, the safety functions (whose
outputs are off), the Lift. The Judge and its choice of the active blade stand. -/
def loadResetObject (o : Nat) : Bool :=
  (0x1100 ≤ o && o < 0x1200) || (0x2000 ≤ o && o < 0x2700) || (0x3000 ≤ o && o < 0x4000) || (0x4010 ≤ o && o < 0x5000) ||
  (0x8020 ≤ o && o ≤ 0x8040) || (0x9000 ≤ o && o < 0x9020) || o == 0x7010

/-- A blade after a reset of the engine: its evaluation is empty, its standing with the Judge stays. -/
def BladeSt.cleared (b : BladeSt) : BladeSt :=
  { reports := b.reports, testing := b.testing, resync := b.resync.map fun _ => 0, revoked := b.revoked }

/-- A load reset (R39): service cores, Lift, engine and segment controllers are reset, the firmware SRAM is cleared, the
latch generator stops (R117); event 08h, and event 01h with the code of a failed load; Dormant with event 00h (R38);
a load that fails is reported to the host die (R546). -/
def Dev.loadReset (d : Dev) (code : Option Nat) (report : Bool) : Dev :=
  let z : Dev := {}
  let old := d.mode
  let d := { d with
    ob := { d.ob with
      od := d.ob.od.filter fun p => !loadResetObject (p.1 / 16777216)
      obl := d.ob.obl.filter fun p => !loadResetObject (p.1 / 16777216)
      due := [], edits := [], staging := [], gates := [], gateLate := [], order := [] }
    md := { d.md with
      stopping := false, stopDone := false, heldRequest := false, ackAccepted := false, cause := none, deferred := none
      stopped := false, fieldFw := false, hostAccepted := false, fieldBeat := false, recovered := false }
    ld := { d.ld with
      fBlocks := 0, fDigest := [], fIdentity := 0, fSecurity := 0, fFailed := [], fDone := [], fIncidents := 0
      verifyAgain := false, endSeen := false, fw := [] }
    tm := { d.tm with running := false, started := false, cycle := 0, latchNs := 0, nextNs := 0, latchDev := 0, prevNs := 0, perWas := 0 }
    fcan := {}
    segs := []
    eng := { a := d.eng.a.cleared, b := d.eng.b.cleared, noArb := d.eng.noArb, revoking := d.eng.revoking }
    gov := {}
    line := { sd := d.line.sd }
    prof := {}
    safe := { ins := d.safe.ins, monFault := d.safe.monFault, sealRead := d.safe.sealRead }
    limits := []
    lift := { z.lift with
      routes := d.lift.routes, pend := d.lift.pend, evData := d.lift.evData, mails := d.lift.mails } }
  let d := (d.wr 0x30 1 0 0).wr 0x30 2 0 0
  let d := d.wr 0x30 3 0 0xFF
  let d := d.raise 8 []
  let d := match code with
    | some c => d.raise 1 (leBytes c 1)
    | none => d
  let d := d.raise 0 (leBytes old 1 ++ [0, 8])
  match code, report with
  | some c, true => d.sendMsg .field 2 ([0x81, 3, 0] ++ leBytes c 1)
  | _, _ => d

end Sys2Proof.Machine
end

