-- ==== Sys2Proof/Machine/Barrier.lean ====
section
/-! DEFINITION. The barrier (01): training, cells, the one retry, heartbeats and silence, mailboxes, status reports. -/

namespace Sys2Proof.Machine

/-- The other die. -/
def otherDie : Die → Die
  | .host => .field
  | .field => .host

/-- True while `die` is in reset. -/
def Dev.inReset (d : Dev) : Die → Bool
  | .host => d.md.hostReset
  | .field => d.md.fieldReset

/-- A count of a barrier record kept by the die that counts it (R32, R34, 8110h). -/
def Dev.incOn (d : Dev) (die : Die) (o e : Nat) : Dev :=
  match die with
  | .host => d.hinc o e 0
  | .field => d.inc o e 0

/-- A transient incident at the receiver of `die`: 8100h at the field die, 8101h at the host die (R22, R31). -/
def Dev.cellTransient (d : Dev) : Die → Dev
  | .field => d.transient 0x8100
  | .host => ((d.hinc 0x8101 1 0).hinc 0x8101 3 0).hwr 0x8101 5 0 d.hostTime.1

/-- A lasting incident at the receiver of `die`. -/
def Dev.cellLasting (d : Dev) : Die → Dev
  | .field => d.lasting 0x8100
  | .host => ((d.hinc 0x8101 2 0).hinc 0x8101 4 0).hwr 0x8101 6 0 d.hostTime.1

/-! ### Load incidents (R72) -/

/-- A Result packet (R66). -/
def resultPacket (res num block : Nat) : Bytes := [0x81] ++ leBytes res 1 ++ leBytes num 2 ++ leBytes block 4

/-- Answers a download packet. -/
def Dev.answer (d : Dev) (src : Source) (res num block : Nat) : Dev := d.emit (.result src (resultPacket res num block))

/-- The session ends (R67). -/
def Dev.closeSession (d : Dev) : Dev :=
  ({ d with
    ld.session := none, ld.fwdNext := 0, ld.toForward := [], ld.crossing := [], ld.rejoinAt := none }.hwr 0x20 4 0 0).hwr 0x20 2 0 0

/-- A failure the field die reported, or that leaves it as it was (R78, R547). -/
def Dev.hostRecord (d : Dev) (code : Nat) : Dev :=
  let d := d.hwr 0x20 3 0 code
  let d := { d with ld.running := false }
  match d.ld.session with
  | none => d
  | some x => if x.begun || x.rejoin then (d.answer x.src code x.num 0).closeSession else d

/-- A load is in any phase: from the acceptance of Begin to Prepare or a failure. -/
def Dev.loading (d : Dev) : Bool := d.mode == 1

/-- The second lasting barrier incident of one load ends it with failure 1Bh (R72, R78). -/
def Dev.loadIncident (d : Dev) : Dev :=
  if d.loading then
    if d.ld.fIncidents ≥ 1 then
      { (d.loadReset (some 0x1B) true).hostRecord 0x1B with ld.toForward := [], ld.crossing := [] }
    else { d with ld.fIncidents := d.ld.fIncidents + 1 }
  else d

/-! ### Training -/

/-- True when sequence number `a` comes before `b` (both modulo 65,536). -/
def seqBefore (a b : Nat) : Bool := let x := (b + 65536 - a % 65536) % 65536; 0 < x && x < 32768

/-- The end of a training for the sender of `die` (R24): messages that had a cell sent and not all of their cells delivered are lost, with
event 27h and the lost flag; messages none of whose cells had been sent stay; a Taken cell not delivered goes again;
during a load a lost load control or load status message goes again (R72). `exp`: the sequence number that the other die's receiver expected. -/
def Dev.settleSender (d : Dev) (die : Die) (exp : Nat) : Dev :=
  let x := d.bd die
  let undelivered := fun (m : TxMsg) => !m.rest.isEmpty || m.sent.any fun s => !seqBefore s exp
  let begun := x.flight.filter undelivered ++ x.queue.filter fun m => !m.sent.isEmpty
  let lost := begun.map TxMsg.mbx
  let taken := x.held.filter fun c => c.ty == 1 && byteAt c.payload 0 == 2 && !seqBefore c.seq exp
  let send := lost.foldl (fun s m => Tab.mod s m {} fun w => { w with lost := true, pending := false }) x.send
  let d := d.setBd die { x with
    next := 0, held := [], idleAgain := [], flight := [], hb := none
    queue := (if d.loading then (begun.filter fun m => m.mbx == 2).map fun m => { m with rest := m.all, sent := [] } else []) ++
      x.queue.filter fun m => m.sent.isEmpty
    ctl := taken.map (fun c => (2, byteAt c.payload 1)) ++ x.ctl.filter fun c => c.1 == 2
    expected := 0, reorder := [], nak := none
    send := send
    recv := x.recv }
  d.each lost fun d m => d.raiseOn die 0x27 (leBytes m 1)

/-- Partial messages are discarded at the receiver of `die` (R24). -/
def Dev.dropPartials (d : Dev) (die : Die) : Dev :=
  let x := d.bd die
  d.setBd die { x with recv := x.recv.map fun p => (p.1, { p.2 with partialMsg := none }) }

/-- The silence test of `die` waits for the partner's first Heartbeat after the barrier came up (R46). -/
def Dev.awaitHeartbeat (d : Dev) (die : Die) : Dev :=
  d.setBd die { d.bd die with started := false, hbLast := none, silent := false }

/-- A training completes (R15): sequence numbers restart at 0000h, the barrier is up, event 20h on each die out of reset,
FieldState 00h and the hold time known (R52); the host die sends field blocks without a result again (R72). -/
def trainingDone (d : Dev) : Dev :=
  if !d.bar.training || d.md.hostReset || d.md.fieldReset then d
  else
    let eh := d.bar.host.expected
    let ef := d.bar.field.expected
    let d := (((d.settleSender .host ef).settleSender .field eh).dropPartials .host).dropPartials .field
    let d := (d.awaitHeartbeat .host).awaitHeartbeat .field
    let d := if d.md.fieldHeld then
        { d with md.holdMs := some ((d.now - d.bar.downAt.getD d.now) / ms), md.fieldHeld := false }
      else d
    let d := if d.ld.session.isSome then
        { d with ld.toForward := d.ld.toForward ++ d.ld.crossing, ld.crossing := [] } else d
    let d := { d with
      bar.link := 1, bar.training := false, bar.since := d.now, bar.fails := 0, bar.firstDone := true
      bar.lasting := false, bar.downAt := none, bar.fieldDue := true }
    let d := (d.wr 0x8110 1 0 1).hwr 0x30 10 0 0
    (d.raise 0x20 [0]).raiseHost 0x20 [1]

/-- A training does not complete within 50 µs (R15): repeated; the third failure in a row marks the barrier down with
event 22h. While it is down the next training waits for its timer. -/
def trainingFailed (d : Dev) : Dev :=
  if !d.bar.training then d
  else if d.bar.link == 2 then { d with bar.training := false }
  else if d.bar.fails + 1 < 3 then
    { (if d.md.fieldReset then d else d.inc 0x8110 2 0) with bar.fails := d.bar.fails + 1 }
  else
    let d := { d with bar.link := 2, bar.training := false, bar.fails := 0, bar.downAt := some (d.bar.downAt.getD d.now) }
    let d := if d.md.fieldReset then d else d.wr 0x8110 1 0 2
    let d := if d.md.hostReset then d else if d.hrn 0x30 10 0 == 0 then d.hwr 0x30 10 0 1 else d
    (d.raise 0x22 []).raiseHost 0x22 []

/-- Every 10 ms while the barrier is down a new training starts (R15). -/
def retrain (d : Dev) : Dev :=
  if d.bar.link == 2 && !d.bar.training then
    { (if d.md.fieldReset then d else d.inc 0x8110 2 0) with bar.training := true }
  else d

/-- A lasting incident at the receiver of `die` (R22). -/
def Dev.barrierLasting (d : Dev) (die : Die) : Dev :=
  (((d.cellLasting die).raiseOn die 0x21 []).barrierLost true).loadIncident

/-- The partner of `die` is reset: what `die` had sent and not seen taken is lost with the partner's mailboxes. -/
def Dev.partnerReset (d : Dev) (die : Die) : Dev :=
  let d := d.settleSender die (d.bd (otherDie die)).expected
  let x := d.bd die
  d.setBd die { x with
    reportOut := false
    send := x.send.map fun p => (p.1, { p.2 with lost := p.2.lost || p.2.pending, pending := false }) }

/-! ### Sending -/

/-- A cell (the table of barrier cells). -/
def cellBytes (ty b1 seq ack : Nat) (payload : Bytes) : Bytes :=
  let b := leBytes ty 1 ++ leBytes b1 1 ++ leBytes seq 2 ++ leBytes ack 2 ++ fit payload 54
  b ++ leBytes (crc32 b) 4

/-- Payload of a LinkCtl cell (the table of cell types). -/
def ctlPayload (k n : Nat) : Bytes := leBytes k 1 ++ (if k == 1 then leBytes n 2 else leBytes n 1 ++ [0])

/-- Sends a cell of `die` with sequence number `seq`. -/
def Dev.sendCell (d : Dev) (die : Die) (ty b1 seq : Nat) (payload : Bytes) : Dev :=
  d.emit (.cell die (cellBytes ty b1 seq (((d.bd die).expected + 65535) % 65536) payload))

/-- Sends a new cell of `die`, held until it is acknowledged unless it is Idle (R19). -/
def Dev.newCell (d : Dev) (die : Die) (ty b1 : Nat) (payload : Bytes) (msg : Option Nat) : Dev :=
  let x := d.bd die
  let seq := x.next
  let hold : List HeldCell := if ty == 0 then [] else
    [{ seq := seq, ty := ty, b1 := b1, payload := fit payload 54, sentAt := d.now, resent := false, due := false, msg := msg }]
  (d.setBd die { x with next := (seq + 1) % 65536, held := x.held ++ hold }).sendCell die ty b1 seq payload

/-- The message the sender takes its next cell from: the lowest mailbox number, oldest first (R30). -/
def nextMsg : List TxMsg → Option TxMsg
  | [] => none
  | m :: ms =>
    match nextMsg ms with
    | none => some m
    | some n => if m.mbx ≤ n.mbx then some m else some n

/-- One cell slot of the sender of `die` (R30): LinkCtl, a resent cell, Heartbeat, message cells by ascending mailbox,
Idle. With 32 unacknowledged cells only resent and Idle cells go (R19). -/
def cellSlotOf (die : Die) (d : Dev) : Dev :=
  let x := d.bd die
  if d.bar.link != 1 || d.inReset die then d
  else
    let room := decide (x.held.length < 32)
    match x.ctl, x.idleAgain, x.held.find? (fun c => c.due) with
    | (k, n) :: rest, _, _ =>
      if room then (d.setBd die { x with ctl := rest }).newCell die 1 0 (ctlPayload k n) none
      else
        match x.held.find? (fun c => c.due) with
        | some c =>
          (d.setBd die { x with held := x.held.map fun h =>
            if h.seq == c.seq then { h with due := false, resent := true, sentAt := d.now } else h }).sendCell die c.ty c.b1 c.seq c.payload
        | none => d.newCell die 0 0 [] none
    | [], _, some c =>
      (d.setBd die { x with held := x.held.map fun h =>
        if h.seq == c.seq then { h with due := false, resent := true, sentAt := d.now } else h }).sendCell die c.ty c.b1 c.seq c.payload
    | [], q :: qs, none => (d.setBd die { x with idleAgain := qs }).sendCell die 0 0 q []
    | [], [], none =>
      if !room then d.newCell die 0 0 [] none
      else
        match x.hb, nextMsg x.queue with
        | some p, _ => (d.setBd die { x with hb := none }).newCell die 2 0 p none
        | none, some m =>
          match m.rest with
          | [] => d.newCell die 0 0 [] none
          | c :: cs =>
            let b1 := m.mbx + (if m.sent.isEmpty then 16 else 0) + (if cs.isEmpty then 32 else 0)
            let m' : TxMsg := { m with rest := cs, sent := m.sent ++ [x.next] }
            let others := x.queue.filter fun y => y.id != m.id
            let x' := if cs.isEmpty then { x with queue := others, flight := x.flight ++ [m'] }
              else { x with queue := x.queue.map fun y => if y.id == m.id then m' else y }
            (d.setBd die x').newCell die 16 b1 c (some m.id)
        | none, none => d.newCell die 0 0 [] none

/-- A cell unacknowledged for 20 µs goes once more, and never a third time (R21). -/
def ackTimeout (die : Die) (seq : Nat) (d : Dev) : Dev :=
  let x := d.bd die
  d.setBd die { x with held := x.held.map fun c =>
    if c.seq == seq && !c.resent && decide (c.sentAt + 20 * us ≤ d.now) then { c with due := true } else c }

/-- A NAK names cell `seq` (R21): a held cell not yet resent goes once more; an Idle cell is sent with the same number. -/
def Dev.nakCell (d : Dev) (die : Die) (seq : Nat) : Dev :=
  let x := d.bd die
  if x.held.any fun c => c.seq == seq then
    d.setBd die { x with held := x.held.map fun c => if c.seq == seq && !c.resent then { c with due := true } else c }
  else if seqBefore seq x.next then d.setBd die { x with idleAgain := x.idleAgain ++ [seq] }
  else d

/-! ### Taking messages -/

/-- `die` takes the message in its receive mailbox `mbx` (R29, R493): a Taken cell goes back. -/
def Dev.takeMail (d : Dev) (die : Die) (mbx : Nat) : Dev :=
  let x := d.bd die
  let slot := Tab.get x.recv mbx {}
  if slot.full then
    d.setBd die { x with recv := Tab.put x.recv mbx { slot with full := false }, ctl := x.ctl ++ [(2, mbx)] }
  else d

/-- The next response waiting for mailbox 4 to 7 is sent once the last one is taken. -/
def Dev.flushResponses (d : Dev) : Dev :=
  let d := match d.ob.resp4 with
    | r :: rs => if d.sendBusy .field 4 then d else { d with ob.resp4 := rs }.sendMsg .field 4 r
    | [] => d
  let d := match d.ob.resp5 with
    | r :: rs => if d.sendBusy .field 5 then d else { d with ob.resp5 := rs }.sendMsg .field 5 r
    | [] => d
  let d := match d.ob.resp6 with
    | r :: rs => if d.sendBusy .field 6 then d else { d with ob.resp6 := rs }.sendMsg .field 6 r
    | [] => d
  match d.ob.resp7 with
  | r :: rs => if d.sendBusy .field 7 then d else { d with ob.resp7 := rs }.sendMsg .field 7 r
  | [] => d

/-- A Taken cell reaches `die` (R493): its last message in `mbx` was taken, and what waited for that goes on. -/
def Dev.takenCell (d : Dev) (die : Die) (mbx : Nat) : Dev :=
  let x := d.bd die
  let slot := Tab.get x.send mbx {}
  let d := d.setBd die { x with
    send := Tab.put x.send mbx { slot with pending := false, taken := slot.taken || slot.pending }
    reportOut := if mbx == 8 then false else x.reportOut }
  match die with
  | .host => d.flushHostEvents
  | .field => (d.each (List.range 8) fun d c => d.wakeCore c).flushResponses

/-! ### Receiving -/

/-- A protocol error (R18): counted in 8110h:3, event 26h. -/
def Dev.protocolError (d : Dev) (die : Die) : Dev := (d.incOn die 0x8110 3).raiseOn die 0x26 []

/-- A good Heartbeat cell reaches `die` (R26, R46, R58, R548). -/
def Dev.heartbeat (d : Dev) (die : Die) (count mode : Nat) : Dev :=
  let x := d.bd die
  if x.hbLast == some count then d
  else
    let d := d.setBd die { x with hbLast := some count, hbAt := d.now, started := true, silent := false }
    match die with
    | .field =>
      let acc := d.md.hostAccepted && mode == 1
      d.wr 0x30 8 0 (if acc then 1 else 0)
    | .host =>
      let d := (d.hwr 0x30 1 0 mode)
      let d := { d with md.fieldReported := true }
      match d.md.holdMs with
      | some h =>
        if mode == 2 then { d with md.holdMs := none }.sendMsg .host 8 (Config.mailBytes 8 [h]) else d
      | none => d

/-- A delivered Message cell at `die` (R28, R29). -/
def Dev.messageCell (d : Dev) (die : Die) (b1 : Nat) (payload : Bytes) : Dev :=
  let mbx := b1 % 16
  let first := bit b1 4
  let last := bit b1 5
  let x := d.bd die
  let slot := Tab.get x.recv mbx {}
  let d := match die with
    | .field => if mbx ≤ 2 then { d with ld.lastCell := d.now } else d
    | .host => d
  let d := if first && slot.partialMsg.isSome then d.incOn die 0x8110 3 else d
  let sofar := if first then some [] else slot.partialMsg
  match sofar with
  | none => d
  | some p =>
    let x := d.bd die
    let body := p ++ payload
    if last then
      let slot' : RecvSlot := { slot with
        full := true, collision := slot.collision || slot.full, count := (slot.count + 1) % 65536
        msg := body, partialMsg := none }
      let d := d.setBd die { x with recv := Tab.put x.recv mbx slot' }
      let d := if slot.full then d.incOn die 0x8110 (if die == .field then 5 else 6) else d
      match die with
      | .field => d.each (List.range 8) fun d c => d.wakeCore c
      | .host => d
    else d.setBd die { x with recv := Tab.put x.recv mbx { slot with partialMsg := some body } }

/-- One cell delivered in sequence at `die`. -/
def Dev.deliverCell (d : Dev) (die : Die) (c : Bytes) : Dev :=
  let ty := byteAt c 0
  let b1 := byteAt c 1
  let pl := slice c 6 54
  if ty == 0 then (if b1 == 0 && allZero pl then d else d.protocolError die)
  else if ty == 1 then
    if b1 != 0 || !allZero (pl.drop 3) then d.protocolError die
    else if byteAt pl 0 == 1 then d.nakCell die (leAt pl 1 2)
    else if byteAt pl 0 == 2 && byteAt pl 1 < 16 && byteAt pl 2 == 0 then d.takenCell die (byteAt pl 1)
    else d.protocolError die
  else if ty == 2 then
    if b1 != 0 || !allZero (pl.drop 5) then d.protocolError die
    else d.heartbeat die (leAt pl 0 4) (byteAt pl 4)
  else if ty == 16 then
    if b1 ≥ 64 || b1 % 16 ≥ 10 then d.protocolError die else d.messageCell die b1 pl
  else d.protocolError die

/-- Delivers the cells of the reorder buffer that now stand in sequence (R20, R22). -/
def deliverOn (die : Die) : Nat → Dev → Dev
  | 0, d => d
  | k + 1, d =>
    let x := d.bd die
    match Tab.find x.reorder x.expected with
    | none => d
    | some c =>
      let d := d.setBd die { x with reorder := Tab.del x.reorder x.expected, expected := (x.expected + 1) % 65536 }
      deliverOn die k (d.deliverCell die c)

/-- The sender of `die` learns that all cells up to `ack` arrived (R19). -/
def Dev.ackUpTo (d : Dev) (die : Die) (ack : Nat) : Dev :=
  let x := d.bd die
  let lim := (ack + 1) % 65536
  if seqBefore ack x.next then
    d.setBd die { x with
      held := x.held.filter fun c => !seqBefore c.seq lim
      flight := x.flight.filter fun m => m.sent.any fun s => !seqBefore s lim }
  else d

/-- 64 bytes reach the receiver of `die` (R14, R18 to R23). -/
def receive (die : Die) (aligned : Bool) (c : Bytes) (d : Dev) : Dev :=
  if d.bar.link != 1 || d.inReset die then d
  else
    let x := d.bd die
    let seq := leAt c 2 2
    if !aligned || c.length != 64 || leAt c 60 4 != crc32 (c.take 60) then
      match x.nak with
      | none => d.setBd die { x with nak := some (x.expected, d.now), ctl := x.ctl ++ [(1, x.expected)] }
      | some (n, _) =>
        if c.length == 64 && seq == n then d.barrierLasting die
        else d.setBd die { x with ctl := x.ctl ++ [(1, x.expected)] }
    else
      let d := d.ackUpTo die (leAt c 4 2)
      let x := d.bd die
      let ahead := (seq + 65536 - x.expected) % 65536
      if ahead == 0 then
        let d := match x.nak with
          | some (n, _) => if n == seq then (d.setBd die { x with nak := none }).cellTransient die else d
          | none => d
        let x := d.bd die
        deliverOn die 33 (d.setBd die { x with reorder := Tab.put x.reorder seq c })
      else if ahead ≥ 32768 then d.incOn die 0x8110 4
      else if x.reorder.length < 32 then d.setBd die { x with reorder := Tab.put x.reorder seq c }
      else d

/-- 20 µs after a NAK of `die` without the resent copy (R22). -/
def nakTimeout (die : Die) (d : Dev) : Dev :=
  match (d.bd die).nak with
  | some (_, t) => if t + 20 * us ≤ d.now && d.bar.link == 1 then d.barrierLasting die else d
  | none => d

/-! ### Heartbeats and silence -/

/-- The mode byte of a Heartbeat (R37). -/
def Dev.modeByte (d : Dev) : Die → Nat
  | .field => d.mode
  | .host => if d.md.hostFw then 1 else 0

/-- Firmware of `die` sends its Heartbeat (R25): the host die's boot ROM or firmware, the field die's firmware. -/
def heartbeatOf (die : Die) (d : Dev) : Dev :=
  if d.inReset die || d.bar.link != 1 || (die == .field && !d.md.fieldFw) then d
  else
    let x := d.bd die
    let n := (x.hbCount + 1) % 2 ^ 32
    let d := d.setBd die { x with hbCount := n, hb := some (leBytes n 4 ++ leBytes (d.modeByte die) 1) }
    match die with
    | .field => { d with md.fieldBeat := true }
    | .host => if d.md.hostFw then { d with md.hostBeat := true } else d

/-- The grace timer expires (R55 to R57). -/
def Dev.graceExpired (d : Dev) : Dev :=
  let d := { d with md.grace := none }.raise 5 []
  if d.mode == 3 then d.safeHold 5
  else if d.mode == 4 then { d with md.deferred := some (d.md.deferred.getD 5) }
  else d

/-- The field die declares the host silent (R26, R55, R56). -/
def Dev.hostSilent (d : Dev) : Dev :=
  let d := { d with md.hostAccepted := false }.raise 0x23 []
  let d := d.wr 0x30 8 0 2
  if d.mode == 1 then d.loadReset none false
  else if d.mode == 3 || d.mode == 4 then
    if d.rn 0x30 7 0 == 0 then d.graceExpired else { d with md.grace := some (d.now + d.rn 0x30 7 0 * ms) }
  else d

/-- The 250 µs check of `die` (R26, R46). -/
def silenceCheck (die : Die) (d : Dev) : Dev :=
  let x := d.bd die
  if !d.inReset die && x.started && !x.silent && decide (x.hbAt + 3 * ms ≤ d.now) then
    let d := d.setBd die { x with silent := true }
    match die with
    | .field => d.hostSilent
    | .host => d.raiseHost 0x24 []
  else d

/-! ### Status reports -/

/-- Elements counted by the host die and carried by its status report (R34, R114, R140, R527, 8060h:3-4, 8110h:6; HCAN's
counts of 1200h). -/
def hostElements : List (Nat × Nat) :=
  (List.range 6).map (fun e => (0x8101, e + 1)) ++ [(0x1000, 4), (0x1000, 5), (0x1000, 6), (0x1000, 7), (0x1000, 9),
    (0x1000, 10), (0x7020, 3), (0x7020, 4), (0x7020, 6), (0x7020, 7), (0x7020, 9), (0x7020, 10), (0x8060, 3), (0x8060, 4),
    (0x8110, 6), (0x8050, 5), (0x8050, 2), (0x8050, 3), (0x8050, 4)] ++ (List.range 8).map fun e => (0x1200, e + 5)

/-- Elements of the field die that its status report carries: 0030h:1-9, the ports of 1000h, the anti-rollback counter,
the settings of 7020h and of HCAN that the host die applies (R64, R113, R548, R477, R135). -/
def fieldElements : List (Nat × Nat) :=
  (List.range 9).map (fun e => (0x30, e + 1)) ++ [(0x1000, 1), (0x1000, 2), (0x20, 7), (0x7020, 1), (0x7020, 2)] ++
    (List.range 4).map fun e => (0x1200, e + 1)

/-- Every 100 ms `die` sends its status report in mailbox 9 (R27, R34); its layout is not in the spec. -/
def statusReport (die : Die) (d : Dev) : Dev :=
  match die with
  | .host =>
    if d.md.hostReset || !d.md.hostFw then d
    else d.sendMsg .host 9 (Config.hostReportBytes ((hostElements.map fun p =>
        (okey p.1 p.2 0, if p == (0x8050, 2) then ((Nat.land d.clk.locked 8 : Nat) : Int) else d.hrd p.1 p.2 0)) ++
      [(0, if d.bar.hostMarked then 1 else 0)]))
  | .field =>
    if d.md.fieldReset || !d.md.fieldFw then d
    else
      let clear := d.bar.clearDue && d.bar.link == 1
      let d := if clear then { d with bar.clearDue := false } else d
      d.sendMsg .field 9 (Config.fieldReportBytes ((fieldElements.map fun p =>
        (okey p.1 p.2 0, if p == (0x20, 7) then (d.ld.rollback : Int) else d.rd p.1 p.2 0)) ++
        [(0, if clear then 1 else 0)]))

/-- The field die takes the host status report (R34, R114, R140): while a clear of 8101h is under way, elements 1, 2, 5
and 6 are ignored until a report marked as counting from it. -/
def hostReport (rep : StatusReport) (d : Dev) : Dev :=
  if d.md.fieldReset then d
  else
    let d := d.takeMail .field 9
    let d := if rep.clear then { d with bar.clearWait := false } else d
    let gated := fun (p : Nat × Nat) => d.bar.clearWait && p.1 == 0x8101 && (p.2 == 1 || p.2 == 2 || p.2 == 5 || p.2 == 6)
    d.each hostElements fun d p =>
      match (rep.vals.find? fun v => v.1 == okey p.1 p.2 0) with
      | none => d
      | some v =>
        if gated p then d
        else if p == (0x8050, 5) then
          let grown := (rep.vals.any fun w => (w.1 == okey 0x8050 3 0 || w.1 == okey 0x8050 4 0) && w.2 != Tab.get d.ob.hostRep w.1 0)
          if grown then d.wr 0x8050 5 0 v.2 else d
        else if [(0x1000, 9), (0x1000, 10), (0x8050, 2), (0x8050, 3), (0x8050, 4)].contains p then
          { d with ob.hostRep := Tab.put d.ob.hostRep v.1 v.2 }
        else d.wr p.1 p.2 0 v.2

/-- The host die takes the field status report (R34, R113, R548). -/
def fieldReport (rep : StatusReport) (d : Dev) : Dev :=
  if d.md.hostReset then d
  else
    let d := d.takeMail .host 9
    let d := { d with md.fieldReported := true }
    let d := if rep.clear then
        { (((d.hwr 0x8101 1 0 0).hwr 0x8101 2 0 0).hwr 0x8101 5 0 0).hwr 0x8101 6 0 0 with bar.hostMarked := true }
      else d
    d.each fieldElements fun d p =>
      match (rep.vals.find? fun v => v.1 == okey p.1 p.2 0) with
      | none => d
      | some v =>
        if p == (0x1000, 1) then { d with ob.hostUdp := v.2.toNat }
        else if p == (0x1000, 2) then { d with ob.hostHcanBase := v.2.toNat }
        else d.hwr p.1 p.2 0 v.2

/-- 4 ms after the barrier came up without a field Heartbeat the host die takes the field die to be in Dormant: elements
1-9 of 0030h read their Default (R548). -/
def fieldHeartbeatMissing (d : Dev) : Dev :=
  if d.bar.fieldDue && d.bar.link == 1 && decide (d.bar.since + 4 * ms ≤ d.now) && !d.bar.host.started &&
      !d.md.hostReset then
    { d with bar.fieldDue := false, md.fieldReported := false }.each (List.range 9) fun d e =>
      d.hwr 0x30 (e + 1) 0 (dfltNum 0x30 (e + 1))
  else d

/-- 1 s after the barrier was lost the host die takes the field die as held in reset (R52). -/
def fieldHeld (d : Dev) : Dev :=
  match d.bar.downAt with
  | some t =>
    if t + sec ≤ d.now && d.bar.link != 1 && !d.md.hostReset && !d.md.fieldHeld then
      { d.raiseHost 0x25 [] with md.fieldHeld := true }.hwr 0x30 10 0 2
    else d
  | none => d

/-- The field die takes the hold time (R53): 0030h:9, and event 25h with it in the history. -/
def resetHold (holdMs : Nat) (d : Dev) : Dev :=
  if d.md.fieldReset then d
  else ((d.takeMail .field 8).wr 0x30 9 0 (holdMs % 2 ^ 32 : Nat)).raise 0x25 (leBytes holdMs 4)

/-! ### The commands -/

/-- TRAINING_COMPLETE. -/
def execTrainingComplete (t : Nat) : State → Host.Outcome State Fault Refusal := onDev t trainingDone
/-- TRAINING_TIMEOUT. -/
def execTrainingTimeout (t : Nat) : State → Host.Outcome State Fault Refusal := onDev t trainingFailed
/-- RETRAIN_TIMER. -/
def execRetrainTimer (t : Nat) : State → Host.Outcome State Fault Refusal := onDev t retrain
/-- CELL_SLOT. -/
def execCellSlot (t : Nat) (die : Die) : State → Host.Outcome State Fault Refusal := onDev t (cellSlotOf die)
/-- RECEIVE_CELL. -/
def execReceiveCell (t : Nat) (die : Die) (aligned : Bool) (cell : Bytes) : State → Host.Outcome State Fault Refusal :=
  onDev t (receive die aligned cell)
/-- CELL_ACK_TIMEOUT. -/
def execCellAckTimeout (t : Nat) (die : Die) (seq : Nat) : State → Host.Outcome State Fault Refusal :=
  onDev t (ackTimeout die seq)
/-- NAK_WAIT_TIMEOUT. -/
def execNakWaitTimeout (t : Nat) (die : Die) : State → Host.Outcome State Fault Refusal := onDev t (nakTimeout die)
/-- HEARTBEAT_SEND. -/
def execHeartbeatSend (t : Nat) (die : Die) : State → Host.Outcome State Fault Refusal := onDev t (heartbeatOf die)
/-- HEARTBEAT_SILENCE_CHECK. -/
def execHeartbeatSilenceCheck (t : Nat) (die : Die) : State → Host.Outcome State Fault Refusal :=
  onDev t (silenceCheck die)
/-- STATUS_REPORT_TIMER. -/
def execStatusReportTimer (t : Nat) (die : Die) : State → Host.Outcome State Fault Refusal := onDev t (statusReport die)
/-- HOST_STATUS_REPORT. -/
def execHostStatusReport (t : Nat) (rep : StatusReport) : State → Host.Outcome State Fault Refusal :=
  onDev t (hostReport rep)
/-- FIELD_HEARTBEAT_WAIT. -/
def execFieldHeartbeatWait (t : Nat) : State → Host.Outcome State Fault Refusal := onDev t fieldHeartbeatMissing
/-- FIELD_HELD_TIMER. -/
def execFieldHeldTimer (t : Nat) : State → Host.Outcome State Fault Refusal := onDev t fieldHeld
/-- RESET_HOLD_REPORT. -/
def execResetHoldReport (t : Nat) (holdMs : Nat) : State → Host.Outcome State Fault Refusal := onDev t (resetHold holdMs)

end Sys2Proof.Machine
end

