-- ==== Sys2Proof/Machine/Can.lean ====
section
/-! DEFINITION. The CAN controllers HCAN and FCAN (17): FIFO, slots, results, receive buffers, error states. -/

namespace Sys2Proof.Machine

/-- The controller on a die. -/
def Dev.can (d : Dev) : Die → CanPort
  | .host => d.hcan
  | .field => d.fcan
/-- `d` with the controller of a die replaced. -/
def Dev.setCan (d : Dev) (die : Die) (x : CanPort) : Dev :=
  match die with
  | .host => { d with hcan := x }
  | .field => { d with fcan := x }
/-- The port record of a die: 1200h HCAN, 1201h FCAN. -/
def canObj : Die → Nat
  | .host => 0x1200
  | .field => 0x1201
/-- Sets an element of a port record where its die counts it (R480). -/
def Dev.setCanEl (d : Dev) (die : Die) (e : Nat) (v : Int) : Dev :=
  match die with
  | .host => d.hwr 0x1200 e 0 v
  | .field => d.wr 0x1201 e 0 v
/-- Counts in a port record. -/
def Dev.incCan (d : Dev) (die : Die) (e : Nat) : Dev := d.incOn die (canObj die) e

/-- xCAN_TSC: the 32-bit stamp on FCAN, a free-running µs count on HCAN. -/
def Dev.tsc (d : Dev) : Die → Nat
  | .host => d.now / us % 2 ^ 32
  | .field => d.stamp

/-- `a` is reached by `tsc`, counted modulo 2^32 (R473). -/
def tscReached (tsc a : Nat) : Bool := (tsc + 2 ^ 32 - a % 2 ^ 32) % 2 ^ 32 < 2 ^ 31

def CanPort.init (x : CanPort) : Bool := bit x.ctrl 0
def CanPort.listen (x : CanPort) : Bool := bit x.ctrl 1
def CanPort.fden (x : CanPort) : Bool := bit x.ctrl 2
def CanPort.autoRecov (x : CanPort) : Bool := bit x.ctrl 4
def CanPort.tdcen (x : CanPort) : Bool := bit x.ctrl 5
/-- Sets an interrupt flag. -/
def CanPort.flag (x : CanPort) (i : Nat) : CanPort := { x with int := setBit x.int i true }

/-- The port record follows the controller (1200h:5-7). -/
def Dev.canNote (d : Dev) (die : Die) : Dev :=
  let x := d.can die
  let st := if x.init then 0 else if x.listen then 1 else if x.state == 2 then 4 else if x.state == 1 then 3 else 2
  ((d.setCanEl die 5 (st : Nat)).setCanEl die 6 (min x.tec 255 : Nat)).setCanEl die 7 (min x.rxe 255 : Nat)

/-- The controller takes the timing and mode of its port group (R479): HCAN by host firmware, FCAN by the field die. -/
def Dev.canApply (d : Dev) (die : Die) : Dev :=
  let get := fun e => match die with
    | .host => d.hrn 0x1200 e 0
    | .field => d.rn 0x1201 e 0
  let m := get 4
  let ctrl := (if get 1 == 1 then 0 else 1) + (if bit m 0 then 4 else 0) + (if bit m 2 then 8 else 0) +
    (if bit m 3 then 16 else 0) + (if bit m 4 then 32 else 0)
  let x := d.can die
  (d.setCan die { x with ctrl := ctrl, nbt := get 2, dbt := get 3, applyPending := false }).canNote die

/-- A committed port group is applied at the end of the frame in progress (R479). -/
def Dev.canCommit (d : Dev) (die : Die) : Dev :=
  if (d.can die).onBus.isSome then d.setCan die { d.can die with applyPending := true } else d.canApply die

/-- The host die takes the field status report; a change of the port group of HCAN in it is applied by host firmware
(R113, R479). -/
def fieldReportCan (rep : StatusReport) (d : Dev) : Dev :=
  let n := fieldReport rep d
  if n.md.hostFw && !n.md.hostReset && (List.range 4).any (fun e => d.hrd 0x1200 (e + 1) 0 != n.hrd 0x1200 (e + 1) 0)
  then n.canCommit .host else n

/-! ### Error states (R466, ISO 11898-1) -/

/-- The error state follows the counters; events D0h and D1h, interrupts PASSIVE and BUSOFF. -/
def Dev.canState (d : Dev) (die : Die) : Dev :=
  let x := d.can die
  let st := if x.state == 2 then 2 else if x.tec ≥ 256 then 2 else if x.tec ≥ 128 || x.rxe ≥ 128 then 1 else 0
  let d' := d.setCan die { x with state := st, recovering := if st == 2 && x.state != 2 then x.autoRecov else x.recovering }
  let d' :=
    if st == 2 && x.state != 2 then
      ((d'.setCan die ((d'.can die).flag 3)).incCan die 8).raiseOn die 0xD0 []
    else if st == 1 && x.state == 0 then (d'.setCan die ((d'.can die).flag 2)).raiseOn die 0xD1 []
    else d'
  d'.canNote die

/-- The transmit error count grows by 8. -/
def Dev.tecUp (d : Dev) (die : Die) : Dev := (d.setCan die { d.can die with tec := (d.can die).tec + 8 }).canState die

/-- INIT is written (R470, R475). -/
def canInitWrite (die : Die) (v : Bool) (d : Dev) : Dev :=
  if d.inReset die then d
  else
    let x := d.can die
    if v then
      if x.onBus.isSome then d.setCan die { x with initPending := true }
      else (d.setCan die { x with ctrl := setBit x.ctrl 0 true, recovering := false }).canNote die
    else
      (d.setCan die { x with
        ctrl := setBit x.ctrl 0 false, initPending := false
        recovering := x.recovering || (x.init && x.state == 2) }).canNote die

/-- The frame on the bus has ended: what waited for that takes effect (R470, R479). -/
def Dev.frameEnd (d : Dev) (die : Die) : Dev :=
  let x := d.can die
  let d := d.setCan die { x with
    onBus := none, initPending := false
    fifo := x.fifo.map fun f => { f with started := false }
    ctrl := if x.initPending then setBit x.ctrl 0 true else x.ctrl }
  if x.applyPending then d.canApply die else d.canNote die

/-! ### Results -/

/-- A transmit result (R474): the queue holds 32; a further one overwrites the oldest and sets OVERWRITE. -/
def Dev.canResult (d : Dev) (die : Die) (tag code : Nat) : Dev :=
  let x := d.can die
  let w := tag % 256 + code * 256 + 2 ^ 31
  let x := if x.results.length < 32 then { x with results := x.results ++ [w] }
    else { x.flag 6 with results := x.results.drop 1 ++ [w] }
  let d := d.setCan die (x.flag 1)
  if code == 2 || code == 3 then (d.incCan die 10).raiseOn die 0xD5 (leBytes tag 1) else d

/-- A read of xCAN_TXQ_RESULT pops the oldest result. -/
def canResultPop (die : Die) (d : Dev) : Dev :=
  if d.inReset die then d else d.setCan die { d.can die with results := (d.can die).results.drop 1 }

/-! ### FIFO (R471) -/

/-- PUSH. -/
def canPush (die : Die) (tag : Nat) (d : Dev) : Dev :=
  if d.inReset die then d
  else
    let x := d.can die
    if x.fifo.length < 32 then
      d.setCan die { x with fifo := x.fifo ++ [{ tag := tag % 256, image := fit x.stage 72 }] }
    else d.setCan die (x.flag 7)

/-- CANCEL: the oldest entry with the tag; one whose SOF has gone is marked. -/
def canCancel (die : Die) (tag : Nat) (d : Dev) : Dev :=
  if d.inReset die then d
  else
    let x := d.can die
    match x.fifo.findIdx? (fun f => f.tag == tag % 256) with
    | none => d
    | some k =>
      let f := x.fifo.getD k { tag := 0, image := [] }
      if f.started then d.setCan die { x with fifo := x.fifo.set k { f with cancel := true } }
      else (d.setCan die { x with fifo := x.fifo.eraseIdx k }).canResult die f.tag 1

/-- FLUSH: every entry that has not started. -/
def canFlush (die : Die) (d : Dev) : Dev :=
  if d.inReset die then d
  else
    let x := d.can die
    let gone := x.fifo.filter fun f => !f.started
    (d.setCan die { x with fifo := x.fifo.filter fun f => f.started }).each gone fun d f => d.canResult die f.tag 1

/-! ### Slots (R473) -/

/-- Slot `s`. -/
def CanPort.slot (x : CanPort) (s : Nat) : CanSlot := Tab.get x.slots s {}
/-- `x` with slot `s` replaced. -/
def CanPort.setSlot (x : CanPort) (s : Nat) (y : CanSlot) : CanPort := { x with slots := Tab.put x.slots s y }

/-- Written values of a slot come into force. -/
def CanSlot.take (y : CanSlot) : CanSlot :=
  { y with
    due := y.wDue.getD y.due, period := y.wPeriod.getD y.period, window := y.wWindow.getD y.window
    image := y.wImage.getD y.image, wDue := none, wPeriod := none, wWindow := none, wImage := none }

/-- A slot is done with its DUE: it advances by PERIOD, or is disarmed. -/
def CanSlot.advance (y : CanSlot) : CanSlot :=
  if y.period == 0 then { y with arm := false, flag := false }
  else { y with flag := false, due := (y.due + y.period) % 2 ^ 32 }

/-- xCAN_TSC reaches DUE of an armed slot. -/
def slotDue (die : Die) (s : Nat) (d : Dev) : Dev :=
  let x := d.can die
  let y := x.slot s
  if d.inReset die || !y.arm || y.flag || !tscReached (d.tsc die) y.due then d
  else
    let y := y.take
    d.setCan die (x.setSlot s { y with flag := tscReached (d.tsc die) y.due })

/-- DUE + WINDOW has passed before the frame started: result 4, event D6h. -/
def slotExpired (die : Die) (s : Nat) (d : Dev) : Dev :=
  let x := d.can die
  let y := x.slot s
  if d.inReset die || !y.flag || y.window == 0 || x.onBus == some (some s) || !tscReached (d.tsc die) (y.due + y.window) then d
  else ((d.setCan die (x.setSlot s y.advance)).canResult die y.tag 4).raiseOn die 0xD6 (leBytes s 1 ++ leBytes y.tag 1)

/-! ### The bus -/

/-- Arbitration value of a frame image, as the bus ranks it. -/
def arbValue (im : Bytes) : Nat :=
  let w := leAt im 0 4
  let id := bits w 28 0
  let rtr := if bit w 30 then 1 else 0
  if bit w 29 then (id / 2 ^ 18) * 2 ^ 21 + 3 * 2 ^ 19 + id % 2 ^ 18 * 2 + rtr
  else id % 2048 * 2 ^ 21 + rtr * 2 ^ 20

/-- The candidate with the lowest arbitration value (R472): lower slots first, then the FIFO head. -/
def CanPort.candidate (x : CanPort) : Option (Option Nat × Bytes) :=
  let slots := (List.range 8).filterMap fun s => if (x.slot s).flag then some (some s, (x.slot s).image) else none
  let all := slots ++ (match x.fifo.head? with
    | some f => [(none, f.image)]
    | none => [])
  all.foldl (fun best c => match best with
    | none => some c
    | some b => if arbValue c.2 < arbValue b.2 then some c else best) none

/-- An arbitration opportunity. -/
def arbitrate (die : Die) (d : Dev) : Dev :=
  let x := d.can die
  if d.inReset die || x.init || x.listen || x.state == 2 || x.onBus.isSome then d
  else
    match x.candidate with
    | none => d
    | some (w, _) =>
      d.setCan die { x with
        onBus := some w
        fifo := if w.isNone then (match x.fifo with
          | f :: r => { f with started := true } :: r
          | [] => []) else x.fifo }

/-- The frame of an image. -/
def frameOf (im : Bytes) : CanFrame :=
  let w := leAt im 0 4
  let v := leAt im 4 4
  { id := bits w 28 0, xtd := bit w 29, rtr := bit w 30, dlc := bits v 3 0, fdf := bit v 4, brs := bit v 5, esi := bit v 6
    data := im.drop 8 }

/-- The image of a frame. -/
def imageOf (f : CanFrame) : Bytes :=
  leBytes (f.id % 2 ^ 29 + (if f.xtd then 2 ^ 29 else 0) + (if f.rtr then 2 ^ 30 else 0)) 4 ++
  leBytes (f.dlc % 16 + (if f.fdf then 16 else 0) + (if f.brs then 32 else 0) + (if f.esi then 64 else 0)) 4 ++ fit f.data 64

/-- The frame on the bus completed (R469, R474). -/
def frameSent (die : Die) (tdcv : Nat) (d : Dev) : Dev :=
  let x := d.can die
  if d.inReset die then d
  else
    match x.onBus with
    | none => d
    | some none =>
      match x.fifo with
      | [] => d.frameEnd die
      | f :: rest =>
        let fr := frameOf f.image
        let x := { x with fifo := rest, tec := x.tec - 1, tdcv := if x.tdcen && fr.fdf && fr.brs then min tdcv 127 else x.tdcv }
        ((((d.setCan die x).emit (.can die fr)).canResult die f.tag (if f.cancel then 2 else 0)).canState die).frameEnd die
    | some (some s) =>
      let y := x.slot s
      let fr := frameOf y.image
      let x := { x.setSlot s y.advance with
        tec := x.tec - 1, tdcv := if x.tdcen && fr.fdf && fr.brs then min tdcv 127 else x.tdcv }
      ((((d.setCan die x).emit (.can die fr)).canResult die y.tag 0).canState die).frameEnd die

/-- The frame on the bus lost arbitration or ended in an error (R472, R474, R476). -/
def txError (die : Die) (kind : CanErr) (d : Dev) : Dev :=
  let x := d.can die
  if d.inReset die then d
  else
    match x.onBus with
    | none => d
    | some w =>
      let head := if w.isNone then x.fifo.head? else none
      let d := match head with
        | some f =>
          if f.cancel then
            (d.setCan die { x with fifo := x.fifo.drop 1 }).canResult die f.tag (if kind == CanErr.arbitration then 1 else 3)
          else d
        | none => d
      let d := if kind == CanErr.clash then
          let y := d.can die
          let due := match y.clashAt with
            | none => true
            | some t => decide (t + sec ≤ d.now)
          let d := (d.setCan die { y.flag 5 with clashAt := if due then some d.now else y.clashAt }).incCan die 9
          if due then d.raiseOn die 0xD3 [] else d
        else d
      let d := if kind == CanErr.arbitration then d else d.tecUp die
      d.frameEnd die

/-- A frame of another node is received at `sof` (R477). -/
def frameReceived (die : Die) (sof : Nat) (f : CanFrame) (d : Dev) : Dev :=
  let x := d.can die
  if d.inReset die || x.init || x.state == 2 then d
  else
    let (q, d) := if x.rxe > 127 then d.freeNat else (0, d)
    let r := if x.rxe > 127 then 119 + q % 9 else x.rxe - 1
    let d := (d.setCan die { x with rxe := if x.listen then x.rxe else r }).canState die
    let x := d.can die
    let hit := fun (p : Nat × CanRx) => p.2.enable &&
      Nat.land (Nat.xor (f.id % 2 ^ 29) (p.2.filter % 2 ^ 29)) (p.2.mask % 2 ^ 29) == 0 && f.xtd == bit p.2.filter 29
    match x.rx.find? hit with
    | none => d
    | some (n, b) =>
      let lostOne := b.newData
      let due := lostOne && (match x.overAt with
        | none => true
        | some t => decide (t + sec ≤ d.now))
      let x := { x with
        rx := Tab.put x.rx n { b with newData := true, lost := b.lost || lostOne, time := sof % 2 ^ 32, image := imageOf f }
        overAt := if due then some d.now else x.overAt }
      let d := d.setCan die (if lostOne then (x.flag 0).flag 6 else x.flag 0)
      let d := if lostOne then d.incCan die 11 else d
      if due then d.raiseOn die 0xD4 (leBytes n 1) else d

/-- A recessive res bit (R466). -/
def protocolException (die : Die) (d : Dev) : Dev :=
  let x := d.can die
  if d.inReset die || x.init then d
  else ((d.setCan die (x.flag 8)).incCan die 12).raiseOn die 0xD7 []

/-- 128 sequences of 11 recessive bits at bus-off (R475). -/
def busOffRecovered (die : Die) (d : Dev) : Dev :=
  let x := d.can die
  if d.inReset die || x.init || x.state != 2 || !x.recovering then d
  else
    ((d.setCan die ({ x with tec := 0, rxe := 0, state := 0, recovering := false }.flag 4)).canNote die).raiseOn die 0xD2 []

/-- A frame of another node ends in an error (R466): the receive error count grows. -/
def receiveError (die : Die) (d : Dev) : Dev :=
  let x := d.can die
  if d.inReset die || x.init || x.listen || x.state == 2 then d
  else (d.setCan die { x with rxe := min 255 (x.rxe + 1) }).canState die

/-! ### The commands -/

/-- CAN_INIT. -/
def execCanInit (t : Nat) (port : Die) (value : Bool) : State → Host.Outcome State Fault Refusal :=
  onDev t (canInitWrite port value)
/-- CAN_TXQ_PUSH. -/
def execCanTxqPush (t : Nat) (port : Die) (tag : Nat) : State → Host.Outcome State Fault Refusal := onDev t (canPush port tag)
/-- CAN_TXQ_CANCEL. -/
def execCanTxqCancel (t : Nat) (port : Die) (tag : Nat) : State → Host.Outcome State Fault Refusal :=
  onDev t (canCancel port tag)
/-- CAN_TXQ_FLUSH. -/
def execCanTxqFlush (t : Nat) (port : Die) : State → Host.Outcome State Fault Refusal := onDev t (canFlush port)
/-- CAN_TXQ_RESULT_READ. -/
def execCanTxqResultRead (t : Nat) (port : Die) : State → Host.Outcome State Fault Refusal := onDev t (canResultPop port)
/-- CAN_SLOT_DUE. -/
def execCanSlotDue (t : Nat) (port : Die) (slot : Nat) : State → Host.Outcome State Fault Refusal :=
  onDev t (slotDue port slot)
/-- CAN_SLOT_WINDOW_EXPIRY. -/
def execCanSlotWindowExpiry (t : Nat) (port : Die) (slot : Nat) : State → Host.Outcome State Fault Refusal :=
  onDev t (slotExpired port slot)
/-- CAN_ARBITRATION. -/
def execCanArbitration (t : Nat) (port : Die) : State → Host.Outcome State Fault Refusal := onDev t (arbitrate port)
/-- CAN_FRAME_SENT. -/
def execCanFrameSent (t : Nat) (port : Die) (tdcv : Nat) : State → Host.Outcome State Fault Refusal :=
  onDev t (frameSent port tdcv)
/-- CAN_TX_ERROR. -/
def execCanTxError (t : Nat) (port : Die) (kind : CanErr) : State → Host.Outcome State Fault Refusal :=
  onDev t (txError port kind)
/-- CAN_FRAME_RECEIVED. -/
def execCanFrameReceived (t : Nat) (port : Die) (sof : Nat) (frame : CanFrame) : State → Host.Outcome State Fault Refusal :=
  onDev t (frameReceived port sof frame)
/-- CAN_PROTOCOL_EXCEPTION. -/
def execCanProtocolException (t : Nat) (port : Die) : State → Host.Outcome State Fault Refusal :=
  onDev t (protocolException port)
/-- BUS_OFF_RECOVERY. -/
def execBusOffRecovery (t : Nat) (port : Die) : State → Host.Outcome State Fault Refusal := onDev t (busOffRecovered port)
/-- CAN_RECEIVE_ERROR. -/
def execCanReceiveError (t : Nat) (port : Die) : State → Host.Outcome State Fault Refusal := onDev t (receiveError port)

/-- FIELD_STATUS_REPORT. -/
def execFieldStatusReport (t : Nat) (rep : StatusReport) : State → Host.Outcome State Fault Refusal :=
  onDev t (fieldReportCan rep)

end Sys2Proof.Machine
end

