-- ==== Sys2Proof/Machine/Law.lean ====
section
/-! DEFINITION. Reading of the law structure (08): stage descriptors, coupling terms, steps, dependency levels, axis and
converter bindings; and the placement of windows in a frame (R154). -/

namespace Sys2Proof.Machine

/-! ### Stage descriptors (2100h) -/

/-- Number of stages of axis `a` (2100h:1). -/
def Dev.stageCount (d : Dev) (a : Nat) : Nat := d.rn 0x2100 1 a
/-- The descriptor of stage `i`. -/
def Dev.stage (d : Dev) (a i : Nat) : Nat := d.rn 0x2100 (2 + i) a
/-- Kind of a stage descriptor. -/
def stKind (x : Nat) : Nat := bits x 3 0
/-- Scheduled bit. -/
def stSched (x : Nat) : Bool := bit x 4
/-- InputA. -/
def stA (x : Nat) : Nat := bits x 15 8
/-- InputB. -/
def stB (x : Nat) : Nat := bits x 23 16
/-- Mode. -/
def stMode (x : Nat) : Nat := bits x 27 24
/-- True for a wrap32 SUM. -/
def stWrap (x : Nat) : Bool := stKind x == 1 && stMode x == 1

/-- Kinds with a name in the table of stage kinds. -/
def kSum : Nat := 1
def kPi : Nat := 2
def kPid : Nat := 3
def kLead : Nat := 4
def kBiquad : Nat := 5
def kNotch : Nat := 6
def kGain : Nat := 7
def kLimit : Nat := 8
def kRate : Nat := 9
def kFf : Nat := 10
def kDelay : Nat := 11
def kSched : Nat := 12
def kOut : Nat := 13

/-- Size in bytes of a field format (the table of field formats). -/
def fmtSize (f : Nat) : Nat := if f == 1 || f == 2 then 2 else 4

/-! ### Coupling terms (2120h) -/

/-- A coupling term: its number, source axis, source stage, target stage. -/
structure Term where
  j : Nat
  src : Nat
  srcStage : Nat
  target : Nat
deriving DecidableEq, Repr

/-- The enabled terms of axis `a`, by number. -/
def Dev.terms (d : Dev) (a : Nat) : List Term :=
  (List.range 4).filterMap fun j =>
    let x := d.rn 0x2120 (1 + j) a
    if bit x 31 then some ⟨j, bits x 9 0, bits x 15 12, bits x 19 16⟩ else none

/-- Dependency level (R234); above 7 when the graph has a cycle or is too deep. -/
def levelN : Nat → Dev → Nat → Nat
  | 0, _, _ => 8
  | k + 1, d, a => (d.terms a).foldl (fun m t => max m (1 + levelN k d t.src)) 0

/-- Dependency level of axis `a`. -/
def Dev.level (d : Dev) (a : Nat) : Nat := levelN 9 d a

/-! ### Steps (R215, R261) -/

/-- Steps of stage `i`: the table of stage kinds, the terms routed to it, and 2 more for a scheduled PI or PID. -/
def Dev.stageSteps (d : Dev) (a i : Nat) : Nat :=
  let x := d.stage a i
  let k := stKind x
  let base := [0, 2, 4, 8, 4, 7, 7, 1, 4, 3, 4, 3, 2, 2].getD k 0
  let extra := if k == kSum then ((d.terms a).filter fun t => t.target == i).length
    else if (k == kPi || k == kPid) && stSched x then 2 else 0
  base + extra

/-- Steps of stages 0 to `n - 1`. -/
def Dev.stepsTo (d : Dev) (a n : Nat) : Nat := ((List.range n).map (d.stageSteps a)).sum

/-- Step count of the law of axis `a` (2150h:2). -/
def Dev.lawSteps (d : Dev) (a : Nat) : Nat := d.stepsTo a (d.stageCount a)

/-! ### Bindings (2000h, 3000h) -/

/-- Segment `s`. -/
def Dev.sg (d : Dev) (s : Nat) : Seg := Tab.get d.segs s {}
/-- `d` with segment `s` replaced. -/
def Dev.setSg (d : Dev) (s : Nat) (x : Seg) : Dev := { d with segs := Tab.put d.segs s x }
/-- State of a segment (1120h:1). -/
def Dev.segState (d : Dev) (s : Nat) : Nat := d.rn (0x1120 + s) 1 0
/-- Number of gates of a segment (1120h:2). -/
def Dev.gateCount (d : Dev) (s : Nat) : Nat := d.rn (0x1120 + s) 2 0
/-- A gate of a segment. -/
def Seg.gate (x : Seg) (p : Nat) : GateSt := Tab.get x.gates p {}
/-- `x` with a gate replaced. -/
def Seg.setGate (x : Seg) (p : Nat) (g : GateSt) : Seg := { x with gates := Tab.put x.gates p g }

/-- Fields of a gate descriptor. -/
def gSlots (b : Bytes) : Nat := byteAt b 6
def gKind (b : Bytes) : Nat := byteAt b 7
def gIn (b : Bytes) : Nat := leAt b 8 2
def gOut (b : Bytes) : Nat := leAt b 10 2
/-- Li and Lo of R218. -/
def gLi (b : Bytes) : Nat := (gIn b - 4) / gSlots b
def gLo (b : Bytes) : Nat := (gOut b - 4) / gSlots b

/-- True when a slot of a gate exists (R220). -/
def Dev.slotFits (d : Dev) (s p n : Nat) : Bool :=
  let b := ((d.sg s).gate p).desc
  1 ≤ p && p ≤ d.gateCount s && !b.isEmpty && n < gSlots b

/-- Segment, position and slot of axis `a`. -/
def Dev.axSeg (d : Dev) (a : Nat) : Nat := d.rn 0x2000 2 a
def Dev.axPos (d : Dev) (a : Nat) : Nat := d.rn 0x2000 3 a
def Dev.axSlot (d : Dev) (a : Nat) : Nat := d.rn 0x2000 4 a

/-- The converter slots of unit `u`: index, segment, position, slot (R296). -/
def Dev.convs (d : Dev) (u : Nat) : List (Nat × Nat × Nat × Nat) :=
  (List.range 4).filterMap fun i =>
    let x := d.rn 0x3000 (7 + i) u
    if bit x 31 then some (i, bits x 13 12, bits x 11 0, bits x 16 14) else none

/-- Enabled line units, ascending. -/
def Dev.units (d : Dev) : List Nat := (List.range 8).filter fun u => d.rb 0x3000 1 u

/-! ### Placement (R154) -/

/-- Where an item of `len` bytes starts when the previous one ended at `cur`. -/
def placeOne (cur len : Nat) : Nat :=
  let c := roundUp cur 4
  if c % 256 + len > 256 then roundUp c 256 else c

/-- Offsets of items (position, length) from `cur`, and the end of the last one. -/
def placeAll : List (Nat × Nat) → Nat → List (Nat × Nat × Nat) × Nat
  | [], cur => ([], cur)
  | (p, n) :: r, cur =>
    let o := placeOne cur n
    let q := placeAll r (o + n)
    ((p, o, n) :: q.1, q.2)

/-- The placement of a segment: input windows, output windows (position, offset, length), and blocks they need. -/
structure Placement where
  ins : List (Nat × Nat × Nat)
  outs : List (Nat × Nat × Nat)
  inEnd : Nat
  blocks : Nat
deriving DecidableEq, Repr

/-- The placement for the descriptors known at a segment. -/
def Dev.placement (d : Dev) (s : Nat) : Placement :=
  let x := d.sg s
  let ps := (List.range (d.gateCount s)).map (· + 1)
  let i := placeAll (ps.map fun p => (p, gIn (x.gate p).desc)) 32
  let o := placeAll (ps.map fun p => (p, gOut (x.gate p).desc)) i.2
  { ins := i.1, outs := o.1, inEnd := i.2, blocks := (o.2 + 255) / 256 }

/-- Offset of a gate's input window. -/
def Placement.inOff (p : Placement) (pos : Nat) : Nat := ((p.ins.find? fun r => r.1 == pos).map fun r => r.2.1).getD 0

/-- Positions of the safety gates of a segment, ascending; the index in this list is the safety index. -/
def Dev.safetyGates (d : Dev) (s : Nat) : List Nat :=
  ((List.range (d.gateCount s)).map (· + 1)).filter fun p => bit (gKind ((d.sg s).gate p).desc) 0

/-- Number N of safety gates. -/
def Dev.safetyN (d : Dev) (s : Nat) : Nat := (d.safetyGates s).length

/-- ReplyCount (R168). -/
def replyCount (n : Nat) : Nat := min 16 (min n ((240 - roundUp n 4) / 8))
/-- Length of the safety container (R168). -/
def containerLen (n : Nat) : Nat := if n == 0 then 0 else 16 + roundUp n 4 + 8 * replyCount n
/-- Length S_o of an object slot (R172). -/
def slotLen (acyc n : Nat) : Nat := 4 * ((256 * acyc - containerLen n) / 8)

/-! ### Cycle budget (R175 to R180, R257) -/

/-- The channels in use of a segment (1100h:3). -/
def Dev.inUse (d : Dev) (s : Nat) (c : Chan) : Bool := bit (d.rn (0x1100 + s) 3 0) (match c with | .a => 0 | .b => 1)
/-- A channel of a segment. -/
def Seg.chan (x : Seg) : Chan → SegChan
  | .a => x.a
  | .b => x.b
/-- `x` with a channel replaced. -/
def Seg.setChan (x : Seg) (c : Chan) (y : SegChan) : Seg :=
  match c with
  | .a => { x with a := y }
  | .b => { x with b := y }

/-- Larger ring latency over the channels in use, ps. -/
def Dev.ringLatency (d : Dev) (s : Nat) : Nat :=
  max (if d.inUse s .a then (d.sg s).a.latency else 0) (if d.inUse s .b then (d.sg s).b.latency else 0)

/-- True when an enabled segment is measured and its gates' descriptors are known: it takes part in the budget. -/
def Dev.budgeted (d : Dev) (s : Nat) : Bool :=
  d.rb (0x1100 + s) 1 0 && decide (0 < d.ringLatency s) && decide (0 < d.gateCount s) &&
    (((List.range (d.gateCount s)).map (· + 1)).all fun p => !((d.sg s).gate p).desc.isEmpty)

/-- Downward extent of the spread of PLL_S in units of 0.0001 (R512, 8050h:1). -/
def Dev.spread (d : Dev) : Nat := [0, 10, 25, 50, 10, 25].getD (d.rn 0x8050 1 0) 0

/-- Serialisation time of `n` line blocks in ps, at the lowest rate of the spread (R141, R513); rounded up. -/
def Dev.ser (d : Dev) (n : Nat) : Nat := (n * 12800 * 10000 + (9999 - d.spread)) / (10000 - d.spread)

/-- Time from L_k to the end of block `j` on its return, ps (R257). -/
def Dev.blockEnd (d : Dev) (s j : Nat) : Nat := 1000000 + d.ringLatency s + d.ser (1 + 33 * (j + 1))

/-- InputEnd of a segment, ps (R177). -/
def Dev.inputEnd (d : Dev) (s : Nat) : Nat := d.blockEnd s (((d.placement s).inEnd - 1) / 256)

/-- The period in ns (7010h:1). -/
def Dev.period (d : Dev) : Nat := d.rn 0x7010 1 0

/-- The frame rule of a segment (R178). -/
def Dev.frameRule (d : Dev) (s : Nat) : Bool :=
  let blocks := (d.placement s).blocks + d.rn (0x1100 + s) 4 0
  decide (1000000 + d.ringLatency s + d.ser (2 + 33 * blocks) + 500000 ≤ d.period * 1000)

/-- The segments that take part in the budget. -/
def Dev.budgetSegs (d : Dev) : List Nat := (List.range 4).filter d.budgeted

/-- Largest InputEnd, ps, and the segment that gives it. -/
def Dev.worstInput (d : Dev) : Nat × Nat :=
  d.budgetSegs.foldl (fun m s => if m.1 < d.inputEnd s then (d.inputEnd s, s) else m) (0, 0)

/-- A law of the model of R257: number for the order, level, instant its window is decided, coupled sources, steps and
the end of each stage. -/
structure SimLaw where
  axis : Nat
  level : Nat
  window : Nat
  deps : List (Nat × Nat)
deriving DecidableEq, Repr

/-- Instant at which a law is ready, given the starts of the dispatched laws. -/
def SimLaw.ready (d : Dev) (done : Tab Nat) (l : SimLaw) : Option Nat :=
  l.deps.foldl (fun r p => match r, Tab.find done p.1 with
    | some t, some s => some (max t (s + d.stepsTo p.1 (p.2 + 1) * 2000))
    | _, _ => none) (some l.window)

/-- Order of dispatch (R217): lower level, earlier readiness, lower axis. -/
def simBefore (x y : Nat × SimLaw) : Bool :=
  if x.2.level != y.2.level then x.2.level < y.2.level
  else if x.1 != y.1 then x.1 < y.1 else x.2.axis < y.2.axis

/-- The least of a list under an order. -/
def least {α : Type} (lt : α → α → Bool) : List α → Option α
  | [] => none
  | x :: r => some (r.foldl (fun m y => if lt y m then y else m) x)

/-- Dispatch of the laws on the lanes (free instants); the latest completion. -/
def simAxes (d : Dev) : Nat → List SimLaw → List Nat → Tab Nat → Nat → Nat
  | 0, _, _, _, last => last
  | k + 1, ls, lanes, done, last =>
    let known := ls.filterMap fun l => (l.ready d done).map fun t => (t, l)
    let free := (least (fun x y => decide (x < y)) lanes).getD 0
    match least (fun (x y : Nat × SimLaw) => decide (x.1 < y.1)) known with
    | none => last
    | some f =>
      let t := max free f.1
      match least simBefore (known.filter fun p => p.1 ≤ t) with
      | none => last
      | some (_, l) =>
        let e := t + d.lawSteps l.axis * 2000
        let i := (lanes.findIdx? (· ≤ t)).getD 0
        simAxes d k (ls.filter fun m => m.axis != l.axis) (lanes.set i e) (Tab.put done l.axis t) (max last e)

/-- Dispatch of the line laws of one lane. -/
def simLane : List (Nat × Nat) → Nat → Nat
  | [], last => last
  | (r, _) :: us, last => simLane us (max last r + 640000)

/-- Insertion into a list sorted by ready instant, then number. -/
def insReady (x : Nat × Nat) : List (Nat × Nat) → List (Nat × Nat)
  | [] => [x]
  | y :: r => if x.1 < y.1 || (x.1 == y.1 && x.2 < y.2) then x :: y :: r else y :: insReady x r

/-- The latest modelled completion of any law (R257), ps from L_k. -/
def Dev.modelEnd (d : Dev) : Nat :=
  let ok := d.budgetSegs
  let axs := d.enabledAxes.filter fun a =>
    ok.contains (d.axSeg a) && d.slotFits (d.axSeg a) (d.axPos a) (d.axSlot a) && decide (0 < d.stageCount a)
  let laws := axs.map fun a =>
    let s := d.axSeg a
    { axis := a, level := d.level a
      window := d.blockEnd s ((d.placement s).inOff (d.axPos a) / 256)
      deps := ((d.terms a).filter fun t => axs.contains t.src).map fun t => (t.src, t.srcStage) : SimLaw }
  let us := d.units.filter fun u => (d.convs u).all fun c => ok.contains c.2.1
  let lanes := List.replicate (if d.units.isEmpty then 32 else 28) 0
  let e := simAxes d laws.length laws lanes [] 0
  (List.range 4).foldl (fun e l =>
    let q := (us.filter fun u => u % 4 == l).foldl (fun q u =>
      insReady ((d.convs u).foldl (fun m c =>
        max m (d.blockEnd c.2.1 ((d.placement c.2.1).inOff c.2.2.1 / 256))) 1000000, u) q) []
    max e (if q.isEmpty then 0 else simLane q 0)) e

/-- ComputeTail in ns (R257). -/
def Dev.computeTail (d : Dev) : Nat := roundUp (d.modelEnd - d.worstInput.1) 10000 / 1000

/-- The budget of R177. -/
def Dev.budgetOk (d : Dev) : Bool :=
  decide (d.worstInput.1 + d.computeTail * 1000 + 12000000 ≤ (d.period + 500) * 1000)

/-- The values of 1110h recomputed together (R180). -/
def Dev.budgetNote (d : Dev) : Dev :=
  let w := d.worstInput
  let tail := d.computeTail
  let cut : Nat := d.period + 500
  let m : Int := ((cut : Int) * 1000 - (w.1 + tail * 1000 + 12000000 : Nat)) / 1000
  ((((d.wr 0x1110 3 0 tail).wr 0x1110 4 0 (w.1 / 1000 : Nat)).wr 0x1110 5 0 cut).wr 0x1110 6 0 m).wr 0x1110 7 0 w.2

/-- Check `n` (1 to 3) of the cycle group for a segment whose gates are known (R176): true when it holds. -/
def Dev.placeCheck (d : Dev) (s n : Nat) : Bool :=
  let acyc := d.rn (0x1100 + s) 4 0
  let k := d.safetyN s
  if n == 1 then (d.placement s).blocks + acyc ≤ 64
  else if n == 2 then k == 0 || (1 ≤ acyc && k ≤ 224)
  else acyc == 0 || 20 ≤ slotLen acyc k

/-- Checks 1 to 3 for one segment. -/
def Dev.placeOk (d : Dev) (s : Nat) : Bool := [1, 2, 3].all (d.placeCheck s)

/-- Check 4 of the cycle group: the shape found agrees with Topology and Channels (R194). -/
def Dev.shapeOk (d : Dev) (s : Nat) : Bool :=
  let x := d.sg s
  let topo := d.rn (0x1100 + s) 2 0
  let part := [Chan.a, Chan.b].filter fun c => d.inUse s c && (x.chan c).locked && !(x.chan c).lost
  part.all (fun c => match topo, (x.chan c).back with
    | 1, some _ => true
    | 0, some .ds => true
    | 2, some .ds => true
    | _, _ => false) &&
    (topo != 2 || ((List.range (d.gateCount s)).all fun i =>
      let b := (x.gate (i + 1)).desc
      !bit (gKind b) 1 || (1 ≤ byteAt b 12 && byteAt b 12 ≤ 3)))

/-- The first failing cross-member check of the cycle group under the values in `d`, each check over the segments in
turn: the member named (R176). -/
def Dev.cycleCheck (d : Dev) : Option (Nat × Nat) :=
  let ss := d.budgetSegs
  let row (n : Nat) : Option (Nat × Nat) :=
    if n ≤ 3 then (ss.find? fun s => !d.placeCheck s n).map fun s => (0x1100 + s, 4)
    else if n == 4 then (ss.find? fun s => !d.shapeOk s).map fun s => (0x1100 + s, 2)
    else if n == 5 then (if ss.all d.frameRule then none else some (0x7010, 1))
    else if ss.isEmpty || d.budgetOk then none else some (0x7010, 1)
  [1, 2, 3, 4, 5, 6].findSome? row

end Sys2Proof.Machine
end

