-- ==== Sys2Proof/Machine/Demand.lean ====
section
/-! DEFINITION. What other blocks ask of the safety monitor and the profile unit: torque states, groups, safe stops,
immediate STO, device stops (R435, R436, R442 to R447), and events raised at most once per second. -/

namespace Sys2Proof.Machine

/-- Event `n` raised at most once per second for a source `key`. -/
def Dev.raiseLim (d : Dev) (n key : Nat) (ps : Bytes) : Dev :=
  let k := n * 16777216 + key
  let due := match Tab.find d.limits k with
    | some t => decide (t + sec ≤ d.now)
    | none => true
  if due then { d with limits := Tab.put d.limits k d.now }.raise n ps else d

/-- Monitor data of axis `a`. -/
def Dev.asf (d : Dev) (a : Nat) : AxSafe := Tab.get d.safe.axes a {}
/-- `d` with the monitor data of an axis replaced. -/
def Dev.setAsf (d : Dev) (a : Nat) (x : AxSafe) : Dev := { d with safe.axes := Tab.put d.safe.axes a x }
/-- Profile slot of axis `a`. -/
def Dev.apf (d : Dev) (a : Nat) : AxProf := Tab.get d.prof.axes a {}
/-- `d` with the profile slot of an axis replaced. -/
def Dev.setApf (d : Dev) (a : Nat) (x : AxProf) : Dev := { d with prof.axes := Tab.put d.prof.axes a x }

/-- Safety state of axis `a` (4040h:1). -/
def Dev.saf (d : Dev) (a : Nat) : Nat := d.rn 0x4040 1 a
/-- True while the torque of axis `a` is off. -/
def Dev.torqueOff (d : Dev) (a : Nat) : Bool := d.saf a == 0 || d.saf a == 3

/-- The enabled axes of the safety group of `a`, `a` alone where it has none (R436). -/
def Dev.groupOf (d : Dev) (a : Nat) : List Nat :=
  let g := d.rn 0x4030 1 a
  if g == 0xFF then [a] else d.enabledAxes.filter fun x => d.rn 0x4030 1 x == g

/-- True when every condition of output `n` holds (R436). A stuck-off fault does not keep off the attempt that a release
makes to drive the output on (R455). -/
def Dev.outputWanted (d : Dev) (n : Nat) : Bool :=
  let k := d.rn 0x4020 5 n
  d.rb 0x4020 1 n && (k == 0 || (k == 2 && (Tab.get d.safe.outs n {}).check == 2)) && !d.safe.monFault &&
    (d.enabledAxes.all fun a => d.rn 0x4030 1 a != n || d.saf a == 1 || d.saf a == 2)

/-- The local outputs follow R436: a demand switches off at once, also within a test pulse (R454). -/
def Dev.driveOutputs (d : Dev) : Dev :=
  d.each (List.range 8) fun d n =>
    let x := Tab.get d.safe.outs n {}
    let want := d.outputWanted n
    if want == x.on then d
    else
      let check := if !want && x.check == 2 then 0 else x.check
      let d := { d with safe.outs := Tab.put d.safe.outs n { x with
        on := want, goodSince := none, offAt := if want then x.offAt else d.now, check := check } }
      if d.rn 0x4020 5 n != 0 then d.wr 0x4020 2 n 3
      else if want then d.wr 0x4020 2 n 1 else if x.check == 1 then d else d.wr 0x4020 2 n 0

/-- An immediate STO of axis `a` and its group (R445): state 3 at once. `latched`: the demand is a latched one (R448). -/
def Dev.immediateSto (d : Dev) (a ev : Nat) (latched : Bool) : Dev :=
  let d := d.setAsf a { d.asf a with latched := (d.asf a).latched || latched }
  let d := d.each (d.groupOf a) fun d x =>
    if d.saf x == 3 then d
    else ((d.setAsf x { d.asf x with stopDue := none, done := false }).wr 0x4040 1 x 3).wr 0x4040 2 x ev
  d.driveOutputs

/-- A safe stop is demanded for axis `a` and its group (R436, R442, R443): it starts at the next boundary. -/
def Dev.demandStop (d : Dev) (a ev : Nat) (latched : Bool) : Dev :=
  let d := d.setAsf a { d.asf a with latched := (d.asf a).latched || latched }
  d.each (d.groupOf a) fun d x =>
    let y := d.asf x
    if d.saf x == 1 && y.stopDue.isNone then d.setAsf x { y with stopDue := some ev } else d

/-- A new cause of a device stop (R447): event B0h with its event number; the Safe-hold cause in Run and Ride-through. -/
def Dev.deviceStop (d : Dev) (ev : Nat) : Dev :=
  ((d.wr 0x4000 6 0 ev).raise 0xB0 (leBytes ev 1)).safeHold 0xB0

/-- The profile unit starts a stop ramp of axis `a` at the next boundary (R349). -/
def Dev.stopRampDue (d : Dev) (a : Nat) : Dev := d.setApf a { d.apf a with stopDue := true }

end Sys2Proof.Machine
end

