-- ==== Sys2Proof/Machine/Stage.lean ====
section
/-! DEFINITION. Parameters, derived coefficients and the stage equations of the Carve engine (R221 to R232, R236 to R240,
R254, R259 to R261). -/

namespace Sys2Proof.Machine

/-! ### Parameters (2140h-214Fh) -/

/-- The binary32 pattern of 1.0 x 10^30. -/
def big30 : Nat := f32Of (Dy.ofInt (10 ^ 30))

/-- Default of parameter `j` of a stage of kind `k` (the table of parameter defaults, R259). -/
def parDefault (k j : Nat) : Nat :=
  if k == kLead then (if j == 0 then 0x3F800000 else if j ≤ 2 then 0x3A83126F else 0)
  else if k == kBiquad then (if j == 0 then 0x3F800000 else 0)
  else if k == kGain || k == kOut then 0x3F800000
  else if k == kLimit then (if j == 0 then big30 + 0x80000000 else if j == 1 then big30 else 0)
  else if k == kRate then big30
  else if k == kSched then (if j < 7 then big30 else 0)
  else 0

/-- Parameter `j` of region `r` of stage `s` of axis `a`. -/
def Dev.par (d : Dev) (a s r j : Nat) : Nat :=
  ((Tab.find d.ob.od (okey (0x2140 + s) (1 + 8 * r + j) a)).getD (parDefault (stKind (d.stage a s)) j : Nat)).toNat

/-- Its value. -/
def Dev.parV (d : Dev) (a s r j : Nat) : Dy := f32Val (d.par a s r j)

/-- Divider and phase of axis `a`. -/
def Dev.divider (d : Dev) (a : Nat) : Nat := max 1 (d.rn 0x2010 1 a)
/-- Phase. -/
def Dev.phase (d : Dev) (a : Nat) : Nat := d.rn 0x2010 2 a

/-- The axis period T in seconds, binary64. -/
def Dev.axisT (d : Dev) (a : Nat) : Dy := fratio (d.period * d.divider a : Nat) 1000000000

/-! ### Derived coefficients (R228, R231) -/

/-- Coefficients c0 to c7 of a kind from its parameters, each operation in binary64. -/
def derive (k : Nat) (p : Nat → Dy) (t : Dy) : List Dy :=
  let one := Dy.ofInt 1
  if k == kPi then [p 0, fmul (p 1) t]
  else if k == kPid then
    let s := fadd (p 3) t
    [p 0, fmul (p 1) t, fdiv (p 3) s, fdiv (p 2) s]
  else if k == kLead then
    let al := fdiv (Dy.ofInt 2) t
    let den := fadd one (fmul al (p 2))
    [fdiv (fmul (p 0) (fadd one (fmul al (p 1)))) den, fdiv (fmul (p 0) (fsub one (fmul al (p 1)))) den,
     fdiv (fsub one (fmul al (p 2))) den]
  else if k == kBiquad then [p 0, p 1, p 2, p 3, p 4]
  else if k == kGain || k == kOut then [p 0]
  else if k == kLimit || k == kFf then [p 0, p 1, p 2]
  else if k == kRate then [fmul (p 0) t]
  else if k == kDelay then
    let f := fsub (p 0) (Dy.ofInt (p 0).floor)
    [fsub one f, f]
  else if k == kSched then [p 0, p 1, p 2, p 3, p 4, p 5, p 6, fdiv (p 7) (Dy.ofInt 2)]
  else []

/-- pi in binary64. -/
def pi64 : Dy := ⟨884279719003555, -48⟩

/-- Coefficients c0 to c4 of a notch (R231). -/
def notchCoef (f dep w t : Dy) : List Dy :=
  let one := Dy.ofInt 1
  let two := Dy.ofInt 2
  let arg := fmul (fmul pi64 f) t
  let kk := Config.tan64 arg.man arg.exp
  let k : Dy := f64 ⟨kk.1, kk.2⟩
  let zp := fdiv w (fmul two f)
  let ex := fdiv dep (Dy.ofInt 20)
  let pp := Config.pow10 ex.man ex.exp
  let zz := fmul zp (f64 ⟨pp.1, pp.2⟩)
  let k2 := fmul k k
  let a0 := fadd (fadd one (fmul (fmul two zp) k)) k2
  let c1 := fdiv (fmul two (fsub k2 one)) a0
  [fdiv (fadd (fadd one (fmul (fmul two zz) k)) k2) a0, c1,
   fdiv (fadd (fsub one (fmul (fmul two zz) k)) k2) a0, c1,
   fdiv (fadd (fsub one (fmul (fmul two zp) k)) k2) a0]

/-- Coefficients of notch `n` of axis `a`. -/
def Dev.notch (d : Dev) (a n : Nat) : List Dy :=
  notchCoef (d.rf 0x2130 (1 + n) a) (d.rf 0x2130 (5 + n) a) (d.rf 0x2130 (9 + n) a) (d.axisT a)

/-- Coefficients of stage `s` in region `r`, in binary64. -/
def Dev.coefs (d : Dev) (a s r : Nat) : List Dy :=
  let x := d.stage a s
  if stKind x == kNotch then d.notch a (stMode x) else derive (stKind x) (d.parV a s r) (d.axisT a)

/-- Coefficient `j`, rounded once to BF24. -/
def Dev.coef (d : Dev) (a s r j : Nat) : Bf := bfOf ((d.coefs a s r).getD j Dy.zero)

/-- Number of thresholds in use (R259). -/
def Dev.thresholds (d : Dev) (a s : Nat) : Nat :=
  ((List.range 7).filter fun j => (d.parV a s 0 j).lt (f32Val big30)).length

/-- The SCHED stage of a law. -/
def Dev.schedStage (d : Dev) (a : Nat) : Option Nat :=
  (List.range (d.stageCount a)).find? fun s => stKind (d.stage a s) == kSched

/-- Number of regions n (R259). -/
def Dev.regions (d : Dev) (a : Nat) : Nat :=
  match d.schedStage a with
  | some s => d.thresholds a s + 1
  | none => 1

/-! ### Parameter checks (R229, R262) -/

/-- The first failing parameter of a region of a stage of kind `k`, by number, in element order (R229). -/
def parFail (k : Nat) (p : Nat → Dy) (t : Dy) : Option Nat :=
  let zero := Dy.zero
  let one := Dy.ofInt 1
  let own : List Nat :=
    if k == kLimit then (if (p 0).lt (p 1) then [] else [1]) ++ (if zero.le (p 2) && (p 2).le one then [] else [2])
    else if k == kLead then (if zero.le (p 1) then [] else [1]) ++ (if zero.lt (p 2) then [] else [2])
    else if k == kPid then (if zero.le (p 3) then [] else [3])
    else if k == kRate then (if zero.lt (p 0) then [] else [0])
    else if k == kDelay then (if zero.le (p 0) && (p 0).lt (Dy.ofInt 7) then [] else [0])
    else if k == kBiquad then
      (if (p 3).abs.lt (one.add (p 4)) then [] else [3]) ++ (if (p 4).abs.lt one then [] else [4])
    else []
  let src : List Nat := if k == kPid then [0, 1, 3, 2] else if k == kLead then [0, 0, 2] else if k == kDelay then [0, 0]
    else [0, 1, 2, 3, 4, 5, 6, 7]
  let top : Dy := ⟨1, 127⟩
  let cs := if k == kSum then [p 0, p 1, p 2, p 3] else derive k p t
  let big := ((List.range cs.length).filter fun j => top.le (cs.getD j zero).abs).map fun j => src.getD j j
  least (fun x y => decide (x < y)) (own ++ big)

/-- The first failing parameter of a SCHED stage (R262). -/
def schedFail (p : Nat → Dy) : Option Nat :=
  let used (j : Nat) : Bool := (p j).lt (f32Val big30)
  let bad (j : Nat) : Bool :=
    used j && ((p j).lt (p 7) || (List.range j).any (fun i => !used i) ||
      (0 < j && used (j - 1) && !(p 7).lt ((p j).sub (p (j - 1)))))
  match (List.range 7).find? bad with
  | some j => some j
  | none => if (p 7).isNeg then some 7 else none

/-- The first failing member of the stage-parameter group of axis `a` for stage `s` under kind `k`: its element. -/
def Dev.stageParFail (d : Dev) (a s k : Nat) (par : Nat → Nat → Dy) : Option Nat :=
  let t := d.axisT a
  let rs := if k == kSched then [0] else List.range 8
  let one (r : Nat) : Option Nat :=
    let x := least (fun x y => decide (x < y)) ((parFail k (par r) t).toList ++ (if k == kSched then (schedFail (par r)).toList else []))
    x.map fun j => 1 + 8 * r + j
  if s < 16 then rs.findSome? one else none

/-- The first failing member of the stage-parameter group: object and element (R229, R262). -/
def Dev.parGroupFail (d : Dev) (a : Nat) : Option (Nat × Nat) :=
  (List.range (d.stageCount a)).findSome? fun s =>
    (d.stageParFail a s (stKind (d.stage a s)) (d.parV a s)).map fun e => (0x2140 + s, e)

/-- The first failing member of the notch group, with period `t` (R230): its element. -/
def Dev.notchFail (d : Dev) (a : Nat) (t : Dy) : Option Nat :=
  (List.range 4).findSome? fun n =>
    let f := d.rf 0x2130 (1 + n) a
    let w := d.rf 0x2130 (9 + n) a
    if (f.scale (-1)).lt w then some (9 + n)
    else if (fdiv ⟨8106479329266893, -54⟩ t).lt f then some (1 + n)
    else none

/-! ### Input fields (R221) and OUT conversion (R226) -/

/-- An input field: descriptor, raw bytes of the slot's input data. -/
def rawField (desc : Nat) (data : Bytes) : Nat :=
  leAt data (bits desc 7 0) (fmtSize (bits desc 11 8))

/-- Value of a raw field, and whether it is a NaN or an infinity. -/
def fieldValue (fmt raw : Nat) : Dy × Bool :=
  if fmt == 1 then (Dy.ofInt (toSigned 16 raw), false)
  else if fmt == 3 then (Dy.ofInt (toSigned 32 raw), false)
  else if fmt == 2 || fmt == 4 then (Dy.ofInt raw, false)
  else if fmt == 5 then ((Bf.unpack raw).val, false)
  else if fmt == 6 then (if f32Special raw then (Dy.zero, true) else (f32Val raw, false))
  else (Dy.zero, false)

/-- An input field converted to BF24 (R221), and whether it counts as a format error. -/
def convField (fmt raw : Nat) (scale : Dy) : Bf × Bool :=
  if fmt == 6 && f32Special raw then (if f32Nan raw then Bf.zero else bfMax (bit raw 31), true)
  else (bfOf ((fieldValue fmt raw).1.mul (bfOf scale).val), false)

/-- What a local feedback channel bound to axis `a` supplies for its input field `i` (R391): Count or Speed as latched. -/
def Dev.localRaw (d : Dev) (a i : Nat) : Option Nat :=
  (List.range 8).findSome? fun c =>
    if d.rn 0x2700 13 c != a then none
    else if d.rn 0x2700 14 c == i then some (d.rn 0x2710 2 c)
    else if d.rn 0x2700 15 c == i then some (d.rn 0x2710 3 c)
    else none

/-- Field `i` of axis `a` from a raw number: the value, the number, 1 for a format error. -/
def Dev.inputOf (d : Dev) (a i raw : Nat) : Bf × Nat × Nat :=
  let c := convField (bits (d.rn 0x2020 (1 + i) a) 11 8) raw (d.rf 0x2020 (9 + i) a)
  (c.1, raw, if c.2 then 1 else 0)

/-- The converted fields of axis `a`, their raw numbers, and the number of format errors. -/
def Dev.inputs (d : Dev) (a : Nat) (data : Bytes) : List Bf × List Nat × Nat :=
  let one (i : Nat) : Bf × Nat × Nat :=
    let x := d.rn 0x2020 (1 + i) a
    if bits x 11 8 == 0 then (Bf.zero, 0, 0) else d.inputOf a i ((d.localRaw a i).getD (rawField x data))
  let xs := (List.range 8).map one
  (xs.map (·.1), xs.map (·.2.1), (xs.map (·.2.2)).sum)

/-- The fields of a run from a null window (R245): the held ones, those of a bound channel as latched (R391). -/
def Dev.heldInputs (d : Dev) (a : Nat) (h : List Bf × List Nat) : List Bf × List Nat :=
  let xs := (List.range 8).map fun i =>
    match d.localRaw a i with
    | some raw => ((d.inputOf a i raw).1, raw)
    | none => (h.1.getD i Bf.zero, h.2.getD i 0)
  (xs.map (·.1), xs.map (·.2))

/-- OUT conversion (R226): the field's bytes and whether it saturated. -/
def outField (fmt : Nat) (y : Bf) : Bytes × Bool :=
  let i := y.val.round
  let clamp (lo hi : Int) : Int := max lo (min hi i)
  let int (lo hi : Int) (n : Nat) : Bytes × Bool :=
    (leBytes (ofSigned (8 * n) (clamp lo hi)) n, decide (i < lo ∨ hi < i))
  if fmt == 1 then int (-32768) 32767 2
  else if fmt == 2 then int 0 65535 2
  else if fmt == 3 then int (-2147483648) 2147483647 4
  else if fmt == 4 then int 0 4294967295 4
  else if fmt == 5 then (leBytes (y.normWritten.getD y).pack 4, false)
  else if fmt == 6 then (leBytes (f32Of y.val) 4, false)
  else (zeros 4, false)

/-! ### Stage equations (R224, R225, R254) -/

/-- Product of two BF24 values as a term. -/
def Bf.times (x y : Bf) : Dy := x.val.mul y.val
/-- Negated value of a BF24 as a term. -/
def Bf.neg (x : Bf) : Dy := x.val.neg

/-- Number of elements of the vector of a kind; the last one is y. -/
def vecLen (k : Nat) : Nat := [0, 1, 2, 4, 2, 3, 3, 1, 1, 1, 1, 9, 1, 1].getD k 1

/-- The factor K or g of a first run (R254), in binary64. -/
def firstFactor (k : Nat) (p0 : Dy) (cs : List Dy) : Dy :=
  let c := fun j => cs.getD j Dy.zero
  if k == kLead then p0
  else if k == kBiquad || k == kNotch then
    let den := fadd (fadd (Dy.ofInt 1) (c 3)) (c 4)
    if den.isZero then Dy.ofInt 1 else fdiv (fadd (fadd (c 0) (c 1)) (c 2)) den
  else Dy.zero

/-- The vector of a stage at the law's first run (R254). -/
def firstVec (k : Nat) (x : Bf) (c : Nat → Bf) (f : Dy) : Vec :=
  let z := Dy.zero
  let as : List Dy :=
    if k == kPid then [z, z, x.val, z]
    else if k == kLead then [x.val, accumulate [(bfOf f).times x]]
    else if k == kBiquad || k == kNotch then
      let yp := bfOf (accumulate [(bfOf f).times x])
      [accumulate [yp.val, ((c 0).times x).neg], accumulate [(c 2).times x, ((c 4).times yp).neg], yp.val]
    else if k == kRate then [x.val]
    else if k == kDelay then List.replicate 8 x.val ++ [z]
    else List.replicate (vecLen k) z
  (renorm as).1

/-- What a stage is evaluated from: kind, inputs x and u, the wrap32 difference, gains with their coupled values,
velocity, acceleration and torque feedforward, coefficients, the delay's n, the rescale term's coefficient (R261). -/
structure StageIn where
  k : Nat
  wrap : Bool
  x : Bf
  u : Bf
  diff : Int
  coupled : List (Bf × Bf)
  sp : Setp
  c : Nat → Bf
  n : Nat
  resc : Option Bf

/-- The accumulators of the new elements of a stage vector (R224, R237). -/
def stageAcc (i : StageIn) (old : Vec) : List Dy :=
  let o := old.val
  let x := i.x
  let c := i.c
  if i.k == kSum then
    [accumulate ((if i.wrap then [Dy.ofInt i.diff] else [x.val, i.u.neg]) ++ i.coupled.map fun g => g.1.times g.2)]
  else if i.k == kPi || i.k == kPid then
    let rs : List Dy := match i.resc with
      | some c0 => [c0.times x, ((c 0).times x).neg]
      | none => []
    let ni := accumulate ([o 0, (c 1).times x] ++ rs)
    if i.k == kPi then [ni, accumulate [(c 0).times x, ni]]
    else
      let nd := accumulate [(c 2).times (old.el 1), (c 3).times x, ((c 3).times (old.el 2)).neg]
      [ni, nd, x.val, accumulate [(c 0).times x, ni, nd]]
  else if i.k == kLead then
    [x.val, accumulate [(c 0).times x, (c 1).times (old.el 0), ((c 2).times (old.el 1)).neg]]
  else if i.k == kBiquad || i.k == kNotch then
    let y := accumulate [(c 0).times x, o 0]
    let yr := bfOf y
    [accumulate [(c 1).times x, ((c 3).times yr).neg, o 1], accumulate [(c 2).times x, ((c 4).times yr).neg], y]
  else if i.k == kGain || i.k == kOut then [accumulate [(c 0).times x]]
  else if i.k == kLimit then [(x.val.max (c 0).val).min (c 1).val]
  else if i.k == kRate then
    let dv := x.val.sub (o 0)
    let lim := (c 0).val
    if lim.lt dv then [accumulate [o 0, lim]]
    else if dv.lt lim.neg then [accumulate [o 0, lim.neg]]
    else [x.val]
  else if i.k == kFf then
    [accumulate [x.val, (c 0).times i.sp.vel, (c 1).times i.sp.acc, (c 2).times i.sp.tff]]
  else if i.k == kDelay then
    let h : Nat → Bf := fun j => if j == 0 then x else old.el (j - 1)
    (List.range 8).map (fun j => (h j).val) ++ [accumulate [(c 0).times (h i.n), (c 1).times (h (i.n + 1))]]
  else [x.val]

/-- Region selection (R260): `th` the thresholds in use, `hh` half the hysteresis, `v` the magnitude, `r` the region. -/
def selectUp (th : List Dy) (hh v : Dy) : Nat → Nat → Nat
  | 0, r => r
  | k + 1, r => if r < th.length && ((th.getD r Dy.zero).add hh).le v then selectUp th hh v k (r + 1) else r
/-- Downward part of the selection. -/
def selectDown (th : List Dy) (hh v : Dy) : Nat → Nat → Nat
  | 0, r => r
  | k + 1, r => if 0 < r && v.lt ((th.getD (r - 1) Dy.zero).sub hh) then selectDown th hh v k (r - 1) else r

/-- The region selected for the next run. -/
def selectRegion (th : List Dy) (hh v : Dy) (force : Nat) (first : Bool) (r : Nat) : Nat :=
  if force != 0xFF then min force th.length
  else if first then (th.filter fun t => t.le v).length
  else selectDown th hh v 8 (selectUp th hh v 8 (min r th.length))

/-- Signal of a selector (R223). -/
def signalOf (job : Job) (ys : Tab Bf) (s : Nat) : Bf :=
  if s < 16 then Tab.get ys s Bf.zero
  else if 0x10 ≤ s && s ≤ 0x17 then job.fields.getD (s - 0x10) Bf.zero
  else if s == 0x20 then bfOf (Dy.ofInt job.sp.pos)
  else if s == 0x21 then job.sp.vel
  else if s == 0x22 then job.sp.acc
  else if s == 0x23 then job.sp.tff
  else if s == 0x24 then job.sp.aux
  else Bf.zero

/-- Low 32 bits of a wrap32 operand (R221, R224). -/
def signal32 (job : Job) (s : Nat) : Nat :=
  if s == 0x20 then ofSigned 32 job.sp.pos else job.raws.getD (s - 0x10) 0 % 4294967296

/-- Evaluation of the next stage of a law in service: the run after it, and the stage's output. `step4` is the bytes of
a StepAddress field (R368). -/
def evalStage (d : Dev) (a : Nat) (r : LawRun) (ys : Tab Bf) (fetch : Term → Option Bf) (step4 : Bytes) : LawRun × Bf :=
  let s := r.stage
  let desc := d.stage a s
  let k := stKind desc
  let reg := if stSched desc then r.region else 0
  let c := d.coef a s reg
  let x := signalOf r.job ys (stA desc)
  let w := (signal32 r.job (stA desc) + 4294967296 - signal32 r.job (stB desc)) % 4294967296
  let coupled := (d.terms a).filterMap fun t =>
    if t.target == s && k == kSum then (fetch t).map fun y => (bfOf (d.parV a s 0 t.j), y) else none
  let old := if r.first || (r.refill && k == kDelay) then
      firstVec k x c (firstFactor k (d.parV a s reg 0) (d.coefs a s reg))
    else Tab.get r.vecs s (Vec.zero (vecLen k))
  let pic := (k == kPi || k == kPid) && stSched desc
  let resc := if pic && !r.first && r.ran != r.region then Tab.find r.c0s s else none
  let inp : StageIn := {
    k := k, wrap := stWrap desc, x := x, u := signalOf r.job ys (stB desc), diff := toSigned 32 w, coupled := coupled
    sp := r.job.sp, c := c, n := (d.parV a s reg 0).floor.toNat, resc := resc }
  let v := renorm (stageAcc inp old)
  let y := v.1.el (vecLen k - 1)
  let r := { r with
    stage := s + 1, vecs := Tab.put r.vecs s v.1
    c0s := if pic then Tab.put r.c0s s (c 0) else r.c0s
    stSat := if v.2 then r.stSat ++ [s] else r.stSat }
  let r :=
    if k == kLimit && stB desc < 16 then
      let tv := Tab.get r.vecs (stB desc) (Vec.zero 2)
      let vs := (List.range tv.ms.length).map fun j =>
        if j == 0 then accumulate [tv.val 0, (c 2).times y, ((c 2).times x).neg] else tv.val j
      let nv := renorm vs
      { r with vecs := Tab.put r.vecs (stB desc) nv.1, stSat := if nv.2 then r.stSat ++ [stB desc] else r.stSat }
    else r
  let r :=
    if k == kSched then
      let th := (List.range (d.thresholds a s)).map fun j => (c j).val
      let m := x.val.abs
      let sel := selectRegion th (c 7).val m (d.rn 0x2170 2 a) r.first r.region
      { r with sel := sel, schedV := m, sched := true, region := if r.first then sel else r.region }
    else r
  let r :=
    if k == kOut then
      let f := if stMode desc == 7 then (step4, false) else outField (stMode desc) y
      { r with outX := some (r.outX.getD x), outs := r.outs ++ [(stB desc, f.1)], outSat := if f.2 then r.outSat + 1 else r.outSat }
    else r
  (r, y)

end Sys2Proof.Machine
end

