-- ==== Sys2Proof/Machine/Engine.lean ====
section
/-! DEFINITION. The Carve engine in a cycle: axis states and faults (R249 to R253), inputs (R221, R245), dispatch (R213 to
R217, R244), stages and laws in service (R224, R246, R265, R266), the frame writer (R246, R274, R277, R278). -/

namespace Sys2Proof.Machine

/-! ### Blades -/

/-- Number of a blade. -/
def bladeNum : Blade → Nat
  | .a => 0
  | .b => 1
/-- The other blade. -/
def bladeOther : Blade → Blade
  | .a => .b
  | .b => .a
/-- The blades. -/
def blades : List Blade := [.a, .b]

/-- A blade. -/
def Dev.bl (d : Dev) : Blade → BladeSt
  | .a => d.eng.a
  | .b => d.eng.b
/-- `d` with a blade replaced. -/
def Dev.setBl (d : Dev) (b : Blade) (x : BladeSt) : Dev :=
  match b with
  | .a => { d with eng.a := x }
  | .b => { d with eng.b := x }
/-- Changes a blade. -/
def Dev.modBl (d : Dev) (b : Blade) (f : BladeSt → BladeSt) : Dev := d.setBl b (f (d.bl b))

/-- State of a blade (9030h:1, 9031h:1). -/
def Dev.blState (d : Dev) (b : Blade) : Nat := d.rn (0x9030 + bladeNum b) 1 0
/-- Sets it. -/
def Dev.setBlState (d : Dev) (b : Blade) (v : Nat) : Dev := d.wr (0x9030 + bladeNum b) 1 0 v
/-- The active blade (9020h:1). -/
def Dev.active (d : Dev) : Option Blade :=
  let v := d.rn 0x9020 1 0
  if v == 0 then some .a else if v == 1 then some .b else none
/-- True while a blade evaluates laws. -/
def Dev.evaluates (d : Dev) (b : Blade) : Bool := 2 ≤ d.blState b && d.blState b ≤ 4
/-- True while the frame writer accepts the blade's writes (R277, R279). -/
def Dev.writes (d : Dev) (b : Blade) : Bool :=
  d.active == some b || (match d.eng.revoking with
    | some (x, _) => x == b
    | none => false)

/-- The law of an axis on a blade. -/
def Dev.axLaw (d : Dev) (b : Blade) (a : Nat) : AxLaw := Tab.get (d.bl b).laws a {}
/-- Sets it. -/
def Dev.setAxLaw (d : Dev) (b : Blade) (a : Nat) (x : AxLaw) : Dev :=
  d.modBl b fun y => { y with laws := Tab.put y.laws a x }

/-! ### Axis states and faults (R249 to R253) -/

/-- State of axis `a` (2160h:3). -/
def Dev.axState (d : Dev) (a : Nat) : Nat := d.rn 0x2160 3 a

/-- True while the law of an axis may run (R250, R253): not once its torque is off under a fault, nor with cause 3 or 4. -/
def Dev.lawOn (d : Dev) (a : Nat) : Bool :=
  let st := d.axState a
  let c := d.rn 0x2160 4 a
  2 ≤ d.mode && d.rb 0x2000 1 a && 0 < d.stageCount a && (st == 1 || st == 2 || (st == 3 && c != 3 && c != 4 && !d.torqueOff a))

/-- True when the law of axis `a` is due in cycle `k` (R121). -/
def Dev.dueIn (d : Dev) (a k : Nat) : Bool := k % d.divider a == d.phase a

/-- The axis waits for its first run (R253): state 1, the next run of both blades a first one. -/
def Dev.awaitFirst (d : Dev) (a : Nat) : Dev :=
  let d := d.each blades fun d b =>
    let x := d.axLaw b a
    d.setAxLaw b a { ({} : AxLaw) with
      sel := x.sel, ran := x.ran, outSat := x.outSat, stSat := x.stSat, fmtErr := x.fmtErr, run := x.run
      done := x.done }
  { d with eng.nulls := Tab.put d.eng.nulls a 0 }.wr 0x2160 3 a 1

/-- One step of the closure over enabled coupling terms in either direction. -/
def coupleStep (d : Dev) (xs : List Nat) : List Nat :=
  d.enabledAxes.filter fun a =>
    xs.contains a || ((d.terms a).any fun t => xs.contains t.src) || (xs.any fun x => (d.terms x).any fun t => t.src == a)

/-- The axes joined to `a` through enabled coupling terms (R250). -/
def Dev.coupleAll (d : Dev) (a : Nat) : List Nat := (List.range 16).foldl (fun xs _ => coupleStep d xs) [a]

/-- One axis has an axis fault (R249, R250), without the reaction on its partners. -/
def Dev.faultOne (d : Dev) (a cause : Nat) : Dev :=
  let ev (d : Dev) : Dev := d.raise 0x89 (leBytes a 2 ++ leBytes cause 1)
  if d.axState a == 3 then ev d
  else
    let r := d.rn 0x2160 1 a
    let d := ev ((d.wr 0x2160 4 a cause).wr 0x2160 3 a 3)
    if cause == 3 || cause == 4 then
      let d := d.immediateSto a 0x89 false
      if r == 0 then d else d.stopRampDue a
    else if r == 0 then d.wr 0x2160 3 a 2
    else (d.stopRampDue a).demandStop a 0x89 false

/-- An axis fault with its reaction (R250): under reaction 2 every coupled axis has cause 5. -/
def Dev.axisFault (d : Dev) (a cause : Nat) : Dev :=
  let st := d.axState a
  if !d.rb 0x2000 1 a || st == 0 then d
  else
    let d := d.faultOne a cause
    if st == 3 || d.rn 0x2160 1 a != 2 then d
    else d.each ((d.coupleAll a).filter fun x => x != a && d.axState x != 3) fun d x => d.faultOne x 5

/-- The axes bound to a gate. -/
def Dev.axesAt (d : Dev) (s p : Nat) : List Nat := d.enabledAxes.filter fun a => d.axSeg a == s && d.axPos a == p

/-- A gate is lost: each slot is an axis fault of its axis (R207). -/
def Dev.gateLostAxes (d : Dev) (s p : Nat) : Dev := d.each (d.axesAt s p) fun d a => d.axisFault a 3

/-- A gate counts as present again (R207, R253, R220): an axis whose binding fits and that is not faulted waits for its
first run; one whose slot the gate does not have is faulted with cause 4. -/
def Dev.gateBackAxes (d : Dev) (s p : Nat) : Dev :=
  d.each (d.axesAt s p) fun d a =>
    if !d.slotFits s p (d.axSlot a) then d.axisFault a 4
    else if d.axState a == 3 then d else d.awaitFirst a

/-- When a segment becomes cyclic, axes bound to positions that hold no gate are faulted with cause 4 (R220). -/
def Dev.unboundAxes (d : Dev) (s : Nat) : Dev :=
  d.each (d.enabledAxes.filter fun a => d.axSeg a == s && !d.slotFits s (d.axPos a) (d.axSlot a)) fun d a => d.axisFault a 4

/-- True while the cause of an axis fault persists (R251). -/
def Dev.faultPersists (d : Dev) (a : Nat) : Bool :=
  let c := d.rn 0x2160 4 a
  let s := d.axSeg a
  if c == 3 then ((d.sg s).gate (d.axPos a)).lost || d.segState s != 5
  else if c == 4 then !d.slotFits s (d.axPos a) (d.axSlot a)
  else if c == 5 then (d.coupleAll a).any fun x => x != a && d.axState x == 3 && d.rn 0x2160 4 x != 5
  else false

/-! ### Dispatch (R213, R214, R217, R244) -/

/-- Lanes that take axis laws. -/
def Dev.axisLanes (d : Dev) : Nat := if d.units.isEmpty then 32 else 28

/-- A coupled source in cycle `k` on a blade (R244, R235): outer `none`: not yet; `some none`: it does not run in this
cycle on the blade (also while it is not yet copied, R283) and the term is zero; `some (some y)`: its output. -/
def Dev.source (d : Dev) (b : Blade) (k : Nat) (t : Term) : Option (Option Bf) :=
  let x := d.axLaw b t.src
  if (Tab.find x.ys k).isSome then
    match Tab.find (Tab.get x.ys k []) t.srcStage with
    | some y => some (some y)
    | none => none
  else if !d.lawOn t.src || !d.dueIn t.src k || x.dropped == some k then some none
  else if d.blState b == 2 && !(d.bl b).copied.contains (.axis t.src) then some none
  else if d.axState t.src == 1 then
    match Tab.find d.eng.win (d.axSeg t.src * 4096 + d.axPos t.src) with
    | some w => if w.cycle == k && w.data.isNone then some none else none
    | none => none
  else none

/-- True when a waiting law is ready on a blade (R217, R247). -/
def Dev.jobReady (d : Dev) (b : Blade) (j : Job) : Bool :=
  (d.axLaw b j.axis).run.isNone && ((d.terms j.axis).all fun t => (d.source b j.cycle t).isSome)

/-- Order of dispatch (R217). -/
def jobBefore (d : Dev) (x y : Job) : Bool :=
  let lx := d.level x.axis
  let ly := d.level y.axis
  if lx != ly then lx < ly else if x.at_ != y.at_ then x.at_ < y.at_ else x.axis < y.axis

/-- A law begins on a lane. -/
def Dev.startLaw (d : Dev) (b : Blade) (lane : Nat) (j : Job) : Dev :=
  let x := d.axLaw b j.axis
  let r : LawRun := {
    job := j, first := x.first, refill := x.refill, region := min x.sel (d.regions j.axis - 1)
    sel := x.sel, vecs := x.vecs, c0s := x.c0s, ran := x.ran }
  let d := d.modBl b fun y => { y with jobs := y.jobs.erase j, lanes := Tab.put y.lanes lane (.axis j.axis) }
  d.setAxLaw b j.axis { x with run := some r, ys := Tab.put (x.ys.filter fun p => j.cycle ≤ p.1 + 4) j.cycle [] }

/-- Ready laws go to free lanes, in the order of R217. -/
def dispatchN : Nat → Dev → Blade → Dev
  | 0, d, _ => d
  | k + 1, d, b =>
    let y := d.bl b
    match (List.range d.axisLanes).find? fun l => (Tab.find y.lanes l).isNone with
    | none => d
    | some lane =>
      match least (jobBefore d) (y.jobs.filter (d.jobReady b)) with
      | none => d
      | some j => dispatchN k (d.startLaw b lane j) b

/-- Dispatch on a blade. -/
def Dev.dispatch (d : Dev) (b : Blade) : Dev := if d.evaluates b then dispatchN 32 d b else d

/-! ### Input windows (R221, R245, R253) -/

/-- The slot's part of a window's data (R218). -/
def Dev.slotData (d : Dev) (a : Nat) (w : Bytes) : Bytes :=
  let li := gLi ((d.sg (d.axSeg a)).gate (d.axPos a)).desc
  slice w (d.axSlot a * li) li

/-- The set-points of an axis in this cycle. -/
def Dev.setp (d : Dev) (a : Nat) : Setp := Tab.get d.eng.setps a {}

/-- A law becomes due with its inputs on every blade that evaluates it. -/
def Dev.addJob (d : Dev) (j : Job) : Dev :=
  let d := { d with eng.ranThis := .axis j.axis :: d.eng.ranThis }
  d.each blades fun d b =>
    let y := d.bl b
    if !d.evaluates b || (d.blState b == 2 && !y.copied.contains (.axis j.axis)) then d
    else (d.setBl b { y with jobs := y.jobs ++ [j] }).dispatch b

/-- The window of an axis is decided in cycle `k` (R245, R253). -/
def Dev.axisWindow (d : Dev) (a k : Nat) (w : Option Bytes) : Dev :=
  if !d.slotFits (d.axSeg a) (d.axPos a) (d.axSlot a) then d
  else
    let due := d.lawOn a && d.dueIn a k
    match w with
    | some data =>
      let i := d.inputs a (d.slotData a data)
      let d := { d with eng.held := Tab.put d.eng.held a (i.1, i.2.1) }
      if !due then d
      else
        let d := if i.2.2 == 0 then d else d.add 0x2150 5 a i.2.2
        let d := { d with eng.nulls := Tab.put d.eng.nulls a 0 }
        let d := if d.axState a == 1 then d.wr 0x2160 3 a 2 else d
        d.addJob { axis := a, cycle := k, at_ := d.now, null := false, fields := i.1, raws := i.2.1, sp := d.setp a }
    | none =>
      if !due || d.axState a == 1 then d
      else
        let h := d.heldInputs a (Tab.get d.eng.held a ([], []))
        let n := Tab.get d.eng.nulls a 0 + 1
        let d := { d with eng.nulls := Tab.put d.eng.nulls a n }.inc 0x2160 8 a
        d.addJob { axis := a, cycle := k, at_ := d.now, null := true, fields := h.1, raws := h.2, sp := d.setp a }

/-- An axis whose NullLimit is reached by this null run is faulted (R245); `was`: its null runs before. -/
def Dev.nullFault (d : Dev) (a was : Nat) : Dev :=
  let n := Tab.get d.eng.nulls a 0
  if was < n && n == d.rn 0x2160 2 a then d.axisFault a 2 else d

/-- A decided window reaches the blades (R163, R219). -/
def Dev.engineWindow (d : Dev) (s p k : Nat) (w : Option Bytes) (fl : Nat) : Dev :=
  let d := { d with eng.win := Tab.put d.eng.win (s * 4096 + p) { cycle := k, data := w, flags := fl } }
  let was := (d.axesAt s p).map fun a => (a, Tab.get d.eng.nulls a 0)
  let d := d.each (d.axesAt s p) fun d a => d.axisWindow a k w
  let d := d.each was fun d x => d.nullFault x.1 x.2
  (d.dispatch .a).dispatch .b

/-! ### The frame writer (R246, R274, R277, R278) -/

/-- An output is written for the frame that closes next; its slot is fresh. -/
def Dev.frameWrite (d : Dev) (l : LawId) (bs : Bytes) : Dev :=
  let fresh := if d.eng.fresh.contains l then d.eng.fresh else l :: d.eng.fresh
  match l with
  | .axis a => { d with eng.outs := Tab.put d.eng.outs a bs, eng.fresh := fresh }
  | .unit u => { d with eng.uouts := Tab.put d.eng.uouts u bs, eng.fresh := fresh }

/-- The result buffer of a law on a blade, and the cycle it belongs to. -/
def Dev.resultOf (d : Dev) (b : Blade) (l : LawId) : Option Nat × Bytes :=
  match l with
  | .axis a => ((d.axLaw b a).done, (d.axLaw b a).out)
  | .unit u => ((Tab.get (d.bl b).lines u {}).done, (Tab.get (d.bl b).lines u {}).out)

/-- An output reaches the frame writer from a blade (R274): discarded and asked for once more when its residues do not
match, else written; at or after the cut-off of its cycle it is discarded (R246, R247). -/
def Dev.handOut (d : Dev) (b : Blade) (l : LawId) (k : Nat) (bs : Bytes) (bad : Bool) : Dev :=
  if !d.writes b || d.eng.cutFor != some k then d
  else if bad then { d with eng.recopy := d.eng.recopy ++ [(b, l)] }
  else d.frameWrite l bs

/-- ns since the latch instant that began cycle `k`, the present or the last one. -/
def Dev.sinceLatch (d : Dev) (k : Nat) : Nat :=
  let now := d.now / 1000
  let base := if d.tm.cycle == k then d.tm.latchNs else d.tm.prevNs
  now - base

/-- A law completed before its cut-off: C_k (R267). -/
def Dev.noteCompletion (d : Dev) (k : Nat) : Dev :=
  if d.eng.cutFor == some k then
    { d with eng.latest := some (max (d.eng.latest.getD 0) (d.sinceLatch k)) }
  else d

/-! ### Stages and laws in service -/

/-- The StepAddress field of an axis in the run in service (R368). -/
def Dev.stepField (d : Dev) (a : Nat) (p : Int) : Bytes :=
  let x := d.apf a
  let n := (p % 256).toNat + (p / 256 % 8192).toNat * 256 + d.rn 0x2250 11 a % 4 * 2097152 +
    (if x.strong then 8388608 else 0) + x.current % 256 * 16777216
  leBytes n 4

/-- Record of the residue incidents of a blade (8106h, 8107h). -/
def resRecord (b : Blade) : Nat := 0x8106 + bladeNum b

/-- The Judge is told of a lasting fault of a blade (R266, R274). -/
def Dev.report (d : Dev) (b : Blade) (cause : Nat) : Dev :=
  d.modBl b fun y => { y with reports := y.reports ++ [cause] }

/-- A lane drops the law of an axis (R266). -/
def freeLane (t : Tab LawId) (l : LawId) : Tab LawId := t.filter fun p => p.2 != l

/-- The next stage of a law in service completes (R224), after a residue error and one recompute where there was one
(R265), or is given up after two (R266). -/
def stageDone (b : Blade) (a : Nat) (up : Upset) (d : Dev) : Dev :=
  let x := d.axLaw b a
  match x.run with
  | none => d
  | some r =>
    if d.md.fieldReset || !d.evaluates b || d.stageCount a ≤ r.stage then d
    else
      match up with
      | .twice =>
        let d := (d.lasting (resRecord b)).raise 0x8C (leBytes (bladeNum b) 1 ++ leBytes a 2 ++ leBytes r.stage 1)
        let d := d.setAxLaw b a { x with run := none, dropped := some r.job.cycle }
        let d := d.modBl b fun y => { y with lanes := freeLane y.lanes (.axis a) }
        (d.report b 2).dispatch b
      | _ =>
        let d := if up == .once then
            (d.transient (resRecord b)).raiseLim 0x8B (bladeNum b)
              (leBytes (bladeNum b) 1 ++ leBytes a 2 ++ leBytes r.stage 1)
          else d
        let ys := Tab.get x.ys r.job.cycle []
        let e := evalStage d a r ys (fun t => (d.source b r.job.cycle t).getD none) (d.stepField a r.job.sp.pos)
        let d := d.setAxLaw b a { x with run := some e.1, ys := Tab.put x.ys r.job.cycle (Tab.put ys r.stage e.2) }
        let d := d.each (e.1.stSat.drop r.stSat.length) fun d s => d.raiseLim 0x9E a (leBytes a 2 ++ leBytes s 1)
        d.dispatch b

/-- The output data of a slot from the OUT fields (R219). -/
def assemble (len : Nat) (fs : List (Nat × Bytes)) : Bytes := fs.foldl (fun bs f => splice bs f.1 f.2) (zeros len)

/-- Lo of the slot of an axis (R218). -/
def Dev.loOf (d : Dev) (a : Nat) : Nat := gLo ((d.sg (d.axSeg a)).gate (d.axPos a)).desc

/-- A law completes (R246, R247): state kept, output handed to the frame writer, counts and status of the run. -/
def lawDone (b : Blade) (a : Nat) (bad : Bool) (d : Dev) : Dev :=
  let x := d.axLaw b a
  match x.run with
  | none => d
  | some r =>
    if d.md.fieldReset || !d.evaluates b || r.stage != d.stageCount a then d
    else
      let k := r.job.cycle
      let out := assemble (d.loOf a) r.outs
      let x := { x with
        vecs := r.vecs, c0s := r.c0s, sel := r.sel, ran := r.region, first := false, refill := false
        done := some k, out := out, outX := r.outX.getD x.outX, outSat := x.outSat + r.outSat, stSat := x.stSat + r.stSat.length, run := none }
      let d := d.setAxLaw b a x
      let d := d.modBl b fun y => { y with lanes := freeLane y.lanes (.axis a) }
      let o := d.axLaw (bladeOther b) a
      let d := (d.wr 0x2150 3 a (sat32 (max x.outSat o.outSat))).wr 0x2150 4 a (sat32 (max x.stSat o.stSat))
      let d := d.noteCompletion k
      let d :=
        if d.active == some b then
          let c := d.sinceLatch k
          let d := d.wr 0x2160 9 a c
          let d := if d.rn 0x2160 10 a < c then d.wr 0x2160 10 a c else d
          let d := if r.sched then d.wf 0x2170 4 a r.schedV else d
          if r.first && r.sched && d.rn 0x2170 1 a != r.region then (d.wr 0x2170 1 a r.region).inc 0x2170 3 a else d
        else d
      (d.handOut b (.axis a) k out bad).dispatch b

/-- A second copy of an output arrives (R274). -/
def recopyAt (b : Blade) (l : LawId) (good : Bool) (d : Dev) : Dev :=
  if d.md.fieldReset || !d.eng.recopy.contains (b, l) then d
  else
    let d := { d with eng.recopy := d.eng.recopy.erase (b, l) }
    let o := 0x9030 + bladeNum b
    if good then
      let d := ((d.inc o 7 0).transient (resRecord b)).raiseLim 0x90 (bladeNum b) (leBytes (bladeNum b) 1)
      let res := d.resultOf b l
      match res.1 with
      | some k => d.handOut b l k res.2 false
      | none => d
    else ((d.inc o 8 0).lasting (resRecord b)).report b 3

/-! ### The boundary -/

/-- The region in force of every scheduled law at a cycle boundary (R260, R263). -/
def Dev.regionsAtBoundary (d : Dev) : Dev :=
  match d.active with
  | none => d
  | some b =>
    d.each d.enabledAxes fun d a =>
      if (d.schedStage a).isNone || (d.axLaw b a).first then d
      else
        let n := min (d.axLaw b a).sel (d.regions a - 1)
        if d.rn 0x2170 1 a == n then d else (d.wr 0x2170 1 a n).inc 0x2170 3 a

/-- STAGE_COMPLETE. -/
def execStageComplete (t : Nat) (blade : Blade) (axis : Nat) (upset : Upset) : State → Host.Outcome State Fault Refusal :=
  onDev t (stageDone blade axis upset)
/-- LAW_COMPLETE. -/
def execLawComplete (t : Nat) (blade : Blade) (axis : Nat) (copyBad : Bool) : State → Host.Outcome State Fault Refusal :=
  onDev t (lawDone blade axis copyBad)
/-- OUTPUT_RECOPY. -/
def execOutputRecopy (t : Nat) (blade : Blade) (law : LawId) (good : Bool) : State → Host.Outcome State Fault Refusal :=
  onDev t (recopyAt blade law good)

end Sys2Proof.Machine
end

