-- ==== Sys2Proof/Machine/Proof.lean ====
section
/-! DEFINITION. Proof of positions (R393, R417, R418) and the journal records that carry positions (R405 to R407). -/

namespace Sys2Proof.Machine

/-- Number of what a position record belongs to: axes first, then the channels. -/
def posNum : PosKey → Nat
  | .axis a => a
  | .channel c => 512 + c
/-- Proof object of a position (5020h, 5021h). -/
def posObj (k : Nat) : Nat := if k < 512 then 0x5020 else 0x5021
/-- Its instance. -/
def posInst (k : Nat) : Nat := if k < 512 then k else k - 512

/-- The expected Hall sector at a position (R393). -/
def expectedSector (pairs off turn : Nat) (pos : Int) : Nat :=
  6 * pairs * ((pos - off) % (max 1 turn : Nat)).toNat / max 1 turn % 6
/-- Circular difference of two sector indices. -/
def sectorDiff (x y : Nat) : Nat := let m := (x + 6 - y % 6) % 6; min m (6 - m)

/-- The local channel that an axis's position field is bound to (R391). -/
def Dev.boundChan (d : Dev) (a : Nat) : Option Nat :=
  let f := d.rn 0x2200 8 a
  (List.range 8).find? fun c => d.rn 0x2700 13 c == a && f != 0xFF && d.rn 0x2700 14 c == f

/-- The live sector from the axis's ProofSource; FFh none or invalid (R406). -/
def Dev.axisSector (d : Dev) (a : Nat) : Nat :=
  let s := d.rn 0x5010 2 a
  let v := if s < 8 then d.rn 0x2710 5 s
    else if s == 0xFF then 0xFF
    else (Tab.get d.eng.held a ([], [])).2.getD (s % 8) 0xFF
  if v < 6 then v else 0xFF

/-- The Binding of an axis (R406). -/
def Dev.binding (d : Dev) (a : Nat) : Nat :=
  crc32 (leBytes (d.rn 0x2000 2 a) 1 ++ leBytes (d.rn 0x2000 3 a) 2 ++ leBytes (d.rn 0x2000 4 a) 1 ++
    leBytes (d.rn 0x5010 1 a) 1 ++ leBytes (d.rn 0x5010 2 a) 1 ++ leBytes (d.rn 0x5010 3 a) 1 ++
    leBytes (d.rn 0x5010 4 a) 4 ++ leBytes (d.rn 0x5010 5 a) 4)

/-- The position of an axis's record (R406). -/
def Dev.recPos (d : Dev) (a : Nat) : Int :=
  let x := d.apf a
  if d.rn 0x2200 8 a == 0xFF then x.p else x.ext.getD 0

/-- Flags and payload of the AxisPosition record of an axis (R405, R406); while its proof is pending (R417) those of the
recovered record. -/
def Dev.axisRecord (d : Dev) (a : Nat) : Nat × Bytes :=
  match (if d.rn 0x5020 1 a == 3 then Tab.find d.st.rest a else none) with
  | some r => (byteAt r.2 1 / 2 % 2 * 2, slice r.2 12 44)
  | none =>
    let unc := match d.boundChan a with
      | some c => d.rn 0x2710 7 c
      | none => 0
    (if (d.apf a).v.isZero then 0 else 2,
     leBytes (ofSigned 64 (d.recPos a)) 8 ++ leBytes (ofSigned 64 (d.rd 0x2240 6 a)) 8 ++ leBytes d.tm.cycle 8 ++
     leBytes (d.axisSector a) 1 ++ leBytes (d.rn 0x5020 1 a) 1 ++ leBytes (d.rn 0x5010 1 a) 1 ++ [0] ++
     leBytes (d.binding a) 4 ++ leBytes unc 4 ++ zeros 8)

/-- Flags and payload of the ChannelPosition record of a channel (R405, R406). -/
def Dev.chanRecord (d : Dev) (c : Nat) : Nat × Bytes :=
  (if (d.rf 0x2710 3 c).isZero then 0 else 2,
   leBytes (ofSigned 64 (d.rd 0x2710 1 c)) 8 ++ leBytes d.tm.cycle 8 ++ leBytes (d.rn 0x2710 5 c) 1 ++
   leBytes (d.rn 0x5021 1 c) 1 ++ zeros 2 ++ leBytes (d.rn 0x2710 7 c) 4 ++ zeros 20)

/-- The record of a position as a job of the store: kinds 10h and 11h. -/
def Dev.posJob (d : Dev) (k : Nat) : StJob :=
  let r := if k < 512 then d.axisRecord k else d.chanRecord (k - 512)
  .record (if k < 512 then 0x10 else 0x11) (posInst k) r.1 r.2

/-- Proof or Origin of a position changed (R407): its record is written, at most once per second, a later change at the
end of that second. -/
def Dev.proofTouch (d : Dev) (k : Nat) : Dev :=
  let soon := match Tab.find d.st.proofAt k with
    | some t => decide (d.now < t + sec)
    | none => false
  if soon then
    (if d.st.proofDue.contains k then d else { d with st.proofDue := d.st.proofDue ++ [k] })
  else { d with st.proofAt := Tab.put d.st.proofAt k d.now, st.jobs := d.st.jobs ++ [d.posJob k] }

/-- The proof state of one position changes (R418): event C4h or C5h, and its record. -/
def Dev.proofOne (d : Dev) (k st cause : Nat) : Dev :=
  let o := posObj k
  let i := posInst k
  if d.rn o 1 i == st && d.rn o 2 i == cause then d
  else
    let d := (d.wr o 1 i st).wr o 2 i cause
    let d := if st == 1 && k < 512 then d.wr o 4 i d.devTime else d
    (d.raise (if st == 0 then 0xC4 else 0xC5) (leBytes i 2 ++ leBytes cause 1)).proofTouch k

/-- The proof state of a position; an axis bound to a channel is unproven whenever its channel is (R417). -/
def Dev.setProof (d : Dev) (k st cause : Nat) : Dev :=
  let d := d.proofOne k st cause
  if k < 512 || st != 0 then d
  else
    let a := d.rn 0x2700 13 (k - 512)
    if a < 512 && d.boundChan a == some (k - 512) then d.proofOne a 0 cause else d

/-- The Origin of an axis changes (2240h:6). -/
def Dev.setOrigin (d : Dev) (a : Nat) (v : Int) : Dev :=
  if d.rd 0x2240 6 a == v then d else (d.wr 0x2240 6 a v).proofTouch a

end Sys2Proof.Machine
end

