-- ==== Sys2Proof/Machine/Feedback.lean ====
section
/-! DEFINITION. The local feedback channels (R375 to R394): filtering per line, counting, Hall sectors, the index, and what
a channel latches at each latch instant. -/

namespace Sys2Proof.Machine

/-- A channel. -/
def Dev.fbc (d : Dev) (c : Nat) : FbChan := Tab.get d.fb c {}
/-- `d` with a channel replaced. -/
def Dev.setFbc (d : Dev) (c : Nat) (x : FbChan) : Dev := { d with fb := Tab.put d.fb c x }
/-- Changes a channel. -/
def Dev.modFbc (d : Dev) (c : Nat) (f : FbChan → FbChan) : Dev := d.setFbc c (f (d.fbc c))

/-- The sector of a set of levels, HC HB HA (the table of Hall sectors). -/
def hallSector (level : Nat) : Option Nat :=
  let c := level % 8
  if c == 1 then some 0 else if c == 3 then some 1 else if c == 2 then some 2 else if c == 6 then some 3
  else if c == 4 then some 4 else if c == 5 then some 5 else none

/-- A count in direction `up` (R378, R388). -/
def FbChan.count (x : FbChan) (up : Bool) (stamp : Nat) : FbChan :=
  let s : Int := if up then 1 else -1
  { x with pos := wrapI64 (x.pos + s), acc := x.acc + s, dir := s, edgeStamp := stamp }

/-- An accepted Hall code (R378, R380). -/
def Dev.hallCode (d : Dev) (c : Nat) (old : Nat) : Dev :=
  let x := d.fbc c
  match hallSector x.level with
  | none => ((d.modFbc c fun x => { x with lastValid := match x.lastValid with
      | some v => some v
      | none => hallSector old }).inc 0x2720 3 c).raise 0xE2 (leBytes c 1)
  | some s =>
    let last := match x.lastValid with
      | some v => some v
      | none => hallSector old
    let x := { x with lastValid := some s }
    match last with
    | none => d.setFbc c x
    | some l =>
      let m := (s + 6 - l) % 6
      let src0 := d.rn 0x2700 2 c == 0
      if m == 0 then d.setFbc c x
      else if m == 1 || m == 5 then d.setFbc c (if src0 then x.count (m == 1) d.stamp else x)
      else
        let x := if src0 then { x with unc := sat32 (x.unc + 3) } else x
        ((d.setFbc c x).inc 0x2720 4 c).raise 0xE3 (leBytes c 1)

/-- Accepted transitions of A and B (R378, R379). -/
def Dev.quadCode (d : Dev) (c : Nat) (accA accB : Bool) : Dev :=
  let x := d.fbc c
  if accA && accB then
    ((d.setFbc c { x with unc := sat32 (x.unc + 2) }).inc 0x2720 2 c).raiseLim 0xE1 c []
  else
    let a := bit x.level 3
    let b := bit x.level 4
    let up := if accA then a != b else a == b
    d.setFbc c (x.count (up != d.rb 0x2700 5 c) d.stamp)

/-- A recognised index (R383 to R386). -/
def Dev.indexSeen (d : Dev) (c : Nat) : Dev :=
  let x := d.fbc c
  let mode := d.rn 0x2700 6 c
  let iv := d.rn 0x2700 7 c
  let turn := d.rn 0x2700 8 c
  let r := (x.pos - iv) % (turn : Int)
  let dev := if 2 * r ≤ turn then r else r - turn
  let first := mode == 2 && !x.seen
  let pos := if mode == 1 then wrapI64 (x.pos - dev) else if first then (iv : Int) else x.pos
  let bad := (d.rn 0x2700 9 c + x.unc) < dev.natAbs
  let y := { x with
    pos := pos, idxPos := pos, idxDev := dev, latches := sat32 (x.latches + 1), idxStamp := d.stamp
    unc := if mode == 1 || first then 0 else x.unc, seen := x.seen || first }
  let d := d.setFbc c y
  if mode == 1 && dev != 0 then
    let d := (d.inc 0x2720 5 c).raise 0xE4 (leBytes c 1 ++ leBytes (ofSigned 32 dev) 4)
    if bad then ((d.inc 0x2720 6 c).raise 0xE5 (leBytes c 1)).setProof (512 + c) 0 5 else d
  else d

/-- MinEdge in ps, rounded up to a multiple of 4 ns (R377). -/
def Dev.minEdge (d : Dev) (c : Nat) : Nat := roundUp (d.rn 0x2700 3 c) 4 * 1000

/-- Lines of `level` that differ from the raw levels and whose transition is accepted now (R376). -/
def Dev.accepted (d : Dev) (c raw : Nat) : List Nat :=
  let x := d.fbc c
  (List.range 6).filter fun l => bit raw l != bit x.level l &&
    (match Tab.find x.lastAt l with
      | some t => decide (t + d.minEdge c ≤ d.now)
      | none => true)

/-- A sample instant (R376): raw levels after inversion; `fresh`: transitions that come too soon are faults. -/
def Dev.fbSample (d : Dev) (c raw : Nat) (fresh : Bool) : Dev :=
  let x := d.fbc c
  let acc := d.accepted c raw
  let soon := if fresh then
      (List.range 6).filter fun l => bit raw l != bit x.level l && bit raw l != bit x.raw l && !acc.contains l
    else []
  let lvl := acc.foldl (fun v l => setBit v l (bit raw l)) x.level
  let d := d.setFbc c { x with raw := raw, level := lvl, lastAt := acc.foldl (fun t l => Tab.put t l d.now) x.lastAt }
  let d := d.each soon fun d _ => (d.inc 0x2720 1 c).raiseLim 0xE0 c []
  let src := d.rn 0x2700 2 c
  let d := if src != 2 && acc.any (· < 3) then d.hallCode c x.level else d
  let d := if src != 0 && (acc.contains 3 || acc.contains 4) then d.quadCode c (acc.contains 3) (acc.contains 4) else d
  let y := d.fbc c
  if src != 0 && acc.contains 5 && ((bit lvl 5 && 0 < y.dir) || (!bit lvl 5 && y.dir < 0)) then d.indexSeen c else d

/-- FEEDBACK_TRANSITION (R375, R376): in reset only the pins and their passthrough change. -/
def fbTransition (c levels : Nat) (d : Dev) : Dev :=
  let levels := levels % 64
  if 8 ≤ c then d
  else
    let d := d.modFbc c fun x => { x with pins := levels }
    if d.md.fieldReset then d.modFbc c fun x => { x with raw := levels, level := levels }
    else d.fbSample c (Nat.xor levels (d.rn 0x2700 4 c)) true

/-- MINEDGE_EXPIRY (R376): the line's transition is accepted when its raw level still differs. -/
def minedgeAt (c line : Nat) (d : Dev) : Dev :=
  if 8 ≤ c || 6 ≤ line || d.md.fieldReset then d
  else
    let x := d.fbc c
    let raw := Nat.xor x.pins (d.rn 0x2700 4 c)
    if (d.accepted c raw).contains line then d.fbSample c raw false else d

/-- The sector that a channel latches (R378, R380). -/
def Dev.liveSector (d : Dev) (c : Nat) : Nat :=
  if d.rn 0x2700 2 c == 2 then 0xFF else (hallSector (d.fbc c).level).getD 0xFF

/-- A channel at a latch instant (R381, R388, R393). -/
def Dev.fbLatch (d : Dev) (c : Nat) : Dev :=
  let x := d.fbc c
  let w := d.rn 0x2700 10 c
  let hist := if x.hist.isEmpty then [] else ((x.acc, d.tm.latchNs) :: x.hist).take (w + 1)
  let valid := hist.length == w + 1 && 0 < w
  let sum := ((hist.take w).map (·.1)).sum
  let t0 := match hist.getLast? with
    | some p => p.2
    | none => 0
  let speed := if valid then fratio (sum * 1000000000) (d.tm.latchNs - t0) else Dy.zero
  let sector := d.liveSector c
  let pairs := d.rn 0x2700 11 c
  let off := d.rd 0x2700 2 c == 1 && pairs != 0 && sector < 6 &&
    2 ≤ sectorDiff (expectedSector pairs (d.rn 0x2700 12 c) (d.rn 0x2700 8 c) x.pos) sector
  let mism := if off then min 3 (x.mism + 1) else 0
  let d := d.setFbc c { x with acc := 0, hist := hist, mism := mism, sector := sector }
  let o := 0x2710
  let d := (((d.wr o 1 c x.pos).wr o 2 c (ofSigned 32 x.pos)).wf o 3 c speed).wb o 4 c valid
  let d := ((d.wr o 5 c sector).wr o 6 c (d.rd 0x2700 1 c)).wr o 7 c x.unc
  let d := (((d.wb o 8 c x.seen).wr o 9 c x.idxPos).wr o 10 c x.idxDev).wr o 11 c x.latches
  let d := (d.wr o 12 c x.idxStamp).wr o 13 c x.edgeStamp
  if mism == 2 then ((d.inc 0x2720 7 c).raise 0xE6 (leBytes c 1)).setProof (512 + c) 0 6 else d

/-- Every channel latches (R126, R381). -/
def Dev.fbLatchAll (d : Dev) : Dev := d.each (List.range 8) Dev.fbLatch

/-- Arming takes effect at a boundary (R389, R390). -/
def Dev.fbArmAll (d : Dev) : Dev :=
  d.each (List.range 8) fun d c =>
    if !(d.fbc c).armDue then d
    else
      let d := d.modFbc c fun x => { x with armDue := false, seen := false, acc := 0, hist := [(0, d.tm.latchNs)] }
      ((d.wr 0x2710 3 c 0).wr 0x2710 4 c 0).wr 0x2710 8 c 0

/-- A channel is to be armed at the next boundary (R390). -/
def Dev.fbArm (d : Dev) (c : Nat) : Dev := d.modFbc c fun x => { x with armDue := true }

/-- FEEDBACK_TRANSITION. -/
def execFeedbackTransition (t : Nat) (channel levels : Nat) : State → Host.Outcome State Fault Refusal :=
  onDev t (fbTransition channel levels)
/-- MINEDGE_EXPIRY. -/
def execMinedgeExpiry (t : Nat) (channel line : Nat) : State → Host.Outcome State Fault Refusal :=
  onDev t (minedgeAt channel line)

end Sys2Proof.Machine
end

