-- ==== Sys2Proof/Machine/Capture.lean ====
section
/-! DEFINITION. The capture units (R499 to R509): arming, samples, rows and reductions, trigger conditions, the record. -/

namespace Sys2Proof.Machine

/-! ### Configuration -/

/-- Fields of the configuration registers (the table of CAP_CTRL, CAP_STAT, CAP_RATE and CAP_TRIG). -/
def CapUnit.linked (x : CapUnit) : Bool := bit (x.reg 0) 0
def CapUnit.master (x : CapUnit) : Bool := bit (x.reg 0) 1
def CapUnit.xdev (x : CapUnit) : Bool := bit (x.reg 0) 2
def CapUnit.reduce (x : CapUnit) : Bool := bit (x.reg 0) 3
def CapUnit.rearm (x : CapUnit) : Bool := bit (x.reg 0) 4
def CapUnit.cycDiv (x : CapUnit) : Nat := bits (x.reg 0xC) 7 0 + 1
def CapUnit.fastDec (x : CapUnit) : Nat := bits (x.reg 0xC) 18 8
def CapUnit.fast (x : CapUnit) : Bool := bit (x.reg 0xC) 19
def CapUnit.rawDec (x : CapUnit) : Nat := bits (x.reg 0xC) 27 20 + 1
def CapUnit.src (x : CapUnit) (n : Nat) : Nat := x.reg (0x100 + 4 * n)
def CapUnit.holdMode (x : CapUnit) : Nat := bits (x.reg 0x18) 1 0
def CapUnit.holdVal (x : CapUnit) : Nat := bits (x.reg 0x18) 31 8

/-- Offsets of the configuration registers in the order of the Config element (6000h:2). -/
def capOffsets : List Nat :=
  [0, 0xC, 0x10, 0x14, 0x18, 0x1C, 0x20, 0x24, 0x28, 0x2C, 0x30] ++ (List.range 32).map fun n => 0x100 + 4 * n

/-- Place of a configuration register in the Config element. -/
def capPlace (off : Nat) : Nat := if off < 0x100 then off else off - 0x100 + 52

/-- The Config element as the registers stand (6000h:2); its Default while they stand at reset. -/
def CapUnit.config (x : CapUnit) : Bytes :=
  if x.regs.isEmpty then zeros 180
  else capOffsets.foldl (fun b off => splice b (capPlace off) (leBytes (x.reg off) 4)) (zeros 180)

/-- The bits of a configuration register that are fields. -/
def capMask (off : Nat) : Nat :=
  if off == 0 then 0x1F else if off == 0xC then 0xFFFFFFF else if off == 0x18 then 0xFFFFFF03
  else if off == 0x1C then 0x1F1F else if off ≥ 0x100 then 0xF3FFF else 0xFFFFFFFF

/-- A configuration register is written in state 0. -/
def Dev.capReg (d : Dev) (u off v : Nat) : Dev :=
  let x := d.capU u
  if x.state != 0 || !capOffsets.contains off then d
  else
    let x := { x with regs := Tab.put x.regs off (Nat.land v (capMask off)) }
    (d.setCapU u x).wblob (0x6000 + u) 2 0 x.config

/-- The Config element comes into force (R509). -/
def Dev.capConfig (d : Dev) (u : Nat) (b : Bytes) : Dev :=
  let regs : Tab Nat := if allZero b then [] else
    capOffsets.foldl (fun t off => Tab.put t off (Nat.land (leAt b (capPlace off) 4) (capMask off))) []
  (d.setCapU u { d.capU u with regs := regs }).wblob (0x6000 + u) 2 0 (if allZero b then zeros 180 else b)

/-- The state of a unit (CAP_STAT.STATE, 6000h:1). -/
def Dev.capState (d : Dev) (u st : Nat) : Dev := (d.setCapU u { d.capU u with state := st }).wr (0x6000 + u) 1 0 st

/-! ### Arming (R502, R503, R506) -/

/-- True when channel source `v` names an enabled, present source (R502). -/
def Dev.capSrcOk (d : Dev) (v : Nat) : Bool :=
  let k := bits v 3 0
  let i := bits v 13 4
  let e := bits v 19 16
  if k == 1 then i < 512 && d.rb 0x2000 1 i && e ≤ 7 && bits (d.rn 0x2020 (1 + e) i) 11 8 != 0
  else if k == 2 then i < 512 && d.rb 0x2000 1 i && e ≤ 3
  else if k == 3 then i < 512 && d.rb 0x2000 1 i && e < d.stageCount i
  else if k == 4 then i < 8 && d.rb 0x3000 1 i && 2 ≤ e && e ≤ 9
  else if k == 5 then i < 16 && d.rb 0x3080 2 0
  else if k == 6 then i < 8 && d.rb 0x2700 1 i && e ≤ 1
  else false

/-- True when the unit can be armed, apart from the master rule (R502). -/
def Dev.capArmable (d : Dev) (u : Nat) : Bool :=
  let x := d.capU u
  !x.chans.isEmpty && decide (x.reg 0x14 < x.rowsN) && x.chans.all fun n => d.capSrcOk (x.src n)

/-- A unit in state 0 is armed, or its CFGERR is set. -/
def Dev.capArmOne (d : Dev) (u : Nat) : Dev :=
  let x := d.capU u
  if !d.capArmable u then d.setCapU u { x with cfgErr := true }
  else
    let st := if x.holdMode == 1 || x.holdMode == 2 then 1 else 2
    (d.setCapU u { x with
      written := 0, sub := 0, postLeft := 0, acc := [], skip := d.tm.cycle + 1, holdCount := 0, armedAt := d.now
      prev := none, low1 := false, high1 := false, low2 := false, high2 := false, pulseAt := none, pulseF := 0
      crossed2 := false }).capState u st

/-- ARM (R502, R503). -/
def Dev.capArm (d : Dev) (u : Nat) : Dev :=
  let x := d.capU u
  if x.state != 0 then d
  else if x.linked && !x.master then d.setCapU u { x with cfgErr := true }
  else
    let ok := d.capArmable u
    let d := d.capArmOne u
    if ok && x.linked && x.master then
      d.each (List.range 4) fun d v =>
        let y := d.capU v
        if v != u && y.linked && y.state == 0 then d.capArmOne v else d
    else d

/-- Event F9h for every unit that accepted a trigger (R505). -/
def Dev.capNote (r : Dev × List Nat) : Dev :=
  r.1.each r.2 fun d v => d.raise 0xF9 (leBytes v 1 ++ leBytes (d.capU v).trigSrc 1)

/-- FORCE (R504): a trigger at its arrival. -/
def Dev.capForce (d : Dev) (u : Nat) : Dev := Dev.capNote (d.capTrigger u 16 0 d.devNs d.tm.cycle)

/-- ABORT (R505). -/
def Dev.capAbort (d : Dev) (u : Nat) : Dev := d.capState u 0

/-- RELEASE (R506). -/
def Dev.capRelease (d : Dev) (u : Nat) : Dev :=
  let x := d.capU u
  if x.state != 4 then d
  else
    let d := d.capState u 0
    if x.rearm && !(x.linked && !x.master) then d.capArm u else d

/-- A trigger received over Slalom (R508): to every unit with XDEV in state 1 or 2; `cycle`: of the frame. -/
def Dev.capSlalom (d : Dev) (cycle : Nat) : Dev :=
  d.each (List.range 4) fun d u =>
    let x := d.capU u
    if x.xdev && (x.state == 1 || x.state == 2) then Dev.capNote (d.capTrigger u 8 0 d.devNs cycle) else d

/-! ### Samples (R499, R500) -/

/-- The latest output of stage `s` of axis `a` on the active blade. -/
def Dev.stageOut (d : Dev) (a s : Nat) : Bf :=
  match d.active with
  | none => Bf.zero
  | some b =>
    let x := d.axLaw b a
    match x.done with
    | none => Bf.zero
    | some k => Tab.get (Tab.get x.ys k []) s Bf.zero

/-- The value of channel source `v` as binary32; `out`: the decimator output of a fast-clocked sigma-delta channel. -/
def Dev.capValue (d : Dev) (v : Nat) (fast : Bool) (out : Nat) : Nat :=
  let k := bits v 3 0
  let i := bits v 13 4
  let e := bits v 19 16
  if k == 1 then f32Of ((Tab.get d.eng.held i ([], [])).1.getD e Bf.zero).val
  else if k == 2 then
    let s := d.setp i
    if e == 0 then f32Of (Dy.ofInt s.pos) else f32Of (if e == 1 then s.vel else if e == 2 then s.acc else s.tff).val
  else if k == 3 then f32Of (d.stageOut i e).val
  else if k == 4 then (if e == 2 then f32Of (Dy.ofInt (d.rn 0x3040 2 i)) else d.rn 0x3040 e i)
  else if k == 5 then
    if fast then f32Of ((f32Val out).mul (d.rf 0x3080 (19 + i) 0))
    else match d.line.sd[i]? with
      | some o => f32Of ((⟨o.man, o.exp⟩ : Dy).mul (d.rf 0x3080 (19 + i) 0))
      | none => 0
  else if k == 6 then (if e == 0 then f32Of (Dy.ofInt (d.rd 0x2710 1 i)) else d.rn 0x2710 3 i)
  else 0

/-- The sample of every enabled channel, in channel order; `sd`: the decimator outputs of the sigma-delta channels in
channel order. -/
def Dev.capSamples (d : Dev) (u : Nat) (sd : List Nat) : List (Nat × Nat) :=
  let x := d.capU u
  let isSd (n : Nat) : Bool := bits (x.src n) 3 0 == 5
  x.chans.map fun n => (n, d.capValue (x.src n) x.fast (sd.getD ((x.chans.filter fun m => m < n && isSd m).length) 0))

/-! ### Reductions and rows (R501) -/

/-- A sample enters the accumulation of its channel. -/
def CapAcc.take (a : Option CapAcc) (v : Nat) : CapAcc :=
  let y := f32Val v
  match a with
  | none => { first := v, min := v, max := v, sum := y, sumSq := y.mul y }
  | some c => { c with
      min := if y.lt (f32Val c.min) then v else c.min
      max := if (f32Val c.max).lt y then v else c.max
      sum := c.sum.add y, sumSq := c.sumSq.add (y.mul y) }

/-- The four reductions of an interval of `n` samples. -/
def CapAcc.reductions (a : CapAcc) (n : Nat) : Bytes :=
  let mean := a.sum.divBits (Dy.ofInt n) 64
  let rms := (a.sumSq.divBits (Dy.ofInt n) 96).sqrtBits
  leBytes a.min 4 ++ leBytes a.max 4 ++ leBytes (f32Of mean) 4 ++ leBytes (f32Of rms) 4

/-- The row of an interval. -/
def CapUnit.row (x : CapUnit) : Bytes :=
  let a (n : Nat) : CapAcc := Tab.get x.acc n {}
  (x.chans.flatMap fun n => leBytes (a n).first 4) ++
    (if x.reduce then x.chans.flatMap fun n => (a n).reductions x.rawDec else [])

/-- Address of row `i` of unit `u` (R501). -/
def capAddr (u len i : Nat) : Nat := 0x20000000 + 0x400000 * u + i * len

/-! ### Trigger conditions (R507) -/

/-- Sample period in ns. -/
def Dev.capPeriod (d : Dev) (x : CapUnit) : Nat := if x.fast then x.fastDec * 50 else d.period * x.cycDiv

/-- A crossing of level `l` between the last sample and this one: the fraction. -/
def crossFrac (l s0 s1 : Dy) : Nat :=
  let n := l.sub s0
  let m := s1.sub s0
  if m.isZero then 0 else min 255 ((n.scale 8).divBits m 64).floor.toNat

/-- What a sample does to the trigger condition: the unit, and the fraction and instant (ns/256) of a firing. `v`: the
sample; `t`: its instant in ns/256; `ts`: the sample period in ns. -/
def CapUnit.watch (x : CapUnit) (v : Nat) (t : Int) (ts : Nat) : CapUnit × Option (Nat × Int) :=
  let k := bits (x.reg 0x1C) 2 0
  let pol := bit (x.reg 0x1C) 3
  let outside := bit (x.reg 0x1C) 4
  let sg (y : Dy) : Dy := if pol then y.neg else y
  let s := sg (f32Val v)
  let la := sg (f32Val (x.reg (if pol then 0x24 else 0x20)))
  let lb := sg (f32Val (x.reg (if pol then 0x20 else 0x24)))
  let h := f32Val (x.reg 0x28)
  let t1 : Int := x.reg 0x2C * 256
  let t2 : Int := x.reg 0x30 * 256
  let low (l : Dy) (was : Bool) : Bool := if s.le (l.sub h) then true else if l.le s then false else was
  let high (l : Dy) (was : Bool) : Bool := if (l.add h).le s then true else if s.le l then false else was
  let x' := { x with
    prev := some (s, t), low1 := low la x.low1, high1 := high la x.high1, low2 := low lb x.low2, high2 := high lb x.high2 }
  match x.prev with
  | none => (x', none)
  | some (s0, t0) =>
    let upA := x.low1 && la.le s
    let downA := x.high1 && s.le la
    let upB := x.low2 && lb.le s
    let fA := crossFrac la s0 s
    let fB := crossFrac lb s0 s
    let tA := t0 + (fA * ts : Nat)
    let tB := t0 + (fB * ts : Nat)
    if k == 1 then (x', if upA then some (fA, tA) else none)
    else if k == 2 then
      match downA, x.pulseAt with
      | true, some p =>
        let w := tA - p
        let inside := decide (t1 ≤ w) && decide (w ≤ t2)
        ({ x' with pulseAt := none }, if inside != outside then some (fA, tA) else none)
      | _, _ => ({ x' with pulseAt := if upA then some tA else x.pulseAt }, none)
    else if k == 3 then
      match downA, x.pulseAt with
      | true, some _ => ({ x' with pulseAt := none }, if x.crossed2 || upB then none else some (fA, tA))
      | _, _ =>
        if upA then ({ x' with pulseAt := some tA, crossed2 := upB }, none)
        else ({ x' with crossed2 := x.crossed2 || upB }, none)
    else if k == 4 then
      match x.pulseAt with
      | some p =>
        if p + t1 ≤ (if downA then tA else t) then
          ({ x' with pulseAt := none }, some (x.pulseF, p + t1))
        else ({ x' with pulseAt := if downA then none else some p }, none)
      | none => ({ x' with pulseAt := if upA then some tA else none, pulseF := fA }, none)
    else if k == 5 then
      let p := if upA then some tA else x.pulseAt
      match upB, p with
      | true, some a =>
        let w := tB - a
        ({ x' with pulseAt := none }, if (if outside then decide (t1 < w) else decide (w < t1)) then some (fB, tB) else none)
      | _, _ => ({ x' with pulseAt := p }, none)
    else (x', none)

/-- A firing of the unit's own condition, qualified by the hold-off (R504). -/
def Dev.capFire (d : Dev) (u : Nat) (f : Nat × Int) : Dev :=
  let x := d.capU u
  if x.state == 1 then
    if x.holdMode == 2 then
      let d := d.setCapU u { x with holdCount := x.holdCount + 1 }
      if x.holdVal ≤ x.holdCount + 1 then d.capState u 2 else d
    else d
  else Dev.capNote (d.capTrigger u 1 f.1 (f.2 / 256).toNat d.tm.cycle)

/-- The row in progress is complete (R501, R505): what to store, and the end of the record. -/
def Dev.capRow (d : Dev) (u : Nat) : Dev × List (Bool × Nat × Bytes) :=
  let x := d.capU u
  let w := [(false, capAddr u x.rowLen (x.written % x.rowsN), x.row)]
  let x := { x with written := x.written + 1, sub := 0, acc := [] }
  if x.state == 3 then
    if x.postLeft ≤ 1 then
      let trig := x.written - (x.rowsN - x.reg 0x14)
      let start := trig - x.reg 0x14
      let x := { x with postLeft := 0, startRow := start % x.rowsN, rows := x.written - start }
      let d := (d.setCapU u x).capState u 4
      let d := (d.wr (0x6000 + u) 6 0 x.startRow).wr (0x6000 + u) 7 0 x.rows
      (d.raise 0xFA (leBytes u 1 ++ leBytes x.rows 4), w)
    else (d.setCapU u { x with postLeft := x.postLeft - 1 }, w)
  else (d.setCapU u x, w)

/-- CAPTURE_SAMPLE: a sample instant of unit `u` (R499, R501, R507). -/
def captureSampleAt (u : Nat) (sd : List Nat) (d : Dev) : Dev × List (Bool × Nat × Bytes) :=
  let x := d.capU u
  if d.md.fieldReset || !(1 ≤ x.state && x.state ≤ 3) || (!x.fast && d.tm.cycle < x.skip) then (d, [])
  else
    let vs := d.capSamples u sd
    let late : Int := if x.fast then (3 * (x.fastDec - 1) * 25 : Nat) else 0
    let base : Int := if x.fast then d.devNs else d.tm.latchDev
    let t := (base - late) * 256
    let acc := vs.foldl (fun m v => Tab.put m v.1 (CapAcc.take (Tab.find m v.1) v.2)) x.acc
    let x := { x with acc := acc, skip := if x.fast then x.skip else d.tm.cycle + x.cycDiv }
    let ch := bits (x.reg 0x1C) 12 8
    let v := ((vs.find? fun p => p.1 == ch).map (·.2)).getD 0
    let r := if (vs.any fun p => p.1 == ch) && (x.state == 1 || x.state == 2) then x.watch v t (d.capPeriod x) else (x, none)
    let r := if x.state == 3 && (vs.any fun p => p.1 == ch) then x.watch v t (d.capPeriod x) else r
    let d := d.setCapU u r.1
    let d := match r.2 with
      | some f => d.capFire u f
      | none => d
    let y := d.capU u
    if x.rawDec ≤ y.sub + 1 then d.capRow u else (d.setCapU u { y with sub := y.sub + 1 }, [])

/-- CAPTURE_HOLDOFF_EXPIRY (R504): in time mode the unit becomes armed. -/
def holdoffAt (u : Nat) (d : Dev) : Dev :=
  let x := d.capU u
  if d.md.fieldReset || x.state != 1 || x.holdMode != 1 || d.now < x.armedAt + x.holdVal * us then d else d.capState u 2

/-! ### The record (R509) -/

/-- True when row `r` belongs to the record of unit `u`. -/
def Dev.capInRecord (d : Dev) (u r : Nat) : Bool :=
  let x := d.capU u
  x.state == 4 && r < x.rowsN && (r + x.rowsN - x.startRow) % x.rowsN < x.rows

/-- Whole rows of the record from ReadRow, at most 1,024 bytes (6000h:9). -/
def Dev.capData (d : Dev) (sram : Mem) (u : Nat) : Bytes :=
  let x := d.capU u
  let r := d.rn (0x6000 + u) 8 0
  if !d.capInRecord u r then []
  else
    let left := x.rows - (r + x.rowsN - x.startRow) % x.rowsN
    (List.range (min left (1024 / x.rowLen))).flatMap fun j =>
      memSlice sram (capAddr u x.rowLen ((r + j) % x.rowsN)) x.rowLen

/-- Judgement and effect of a capture Command (6000h:3, R509): its status. -/
def Dev.capCommand (d : Dev) (u v : Nat) : Nat × Dev :=
  if v == 1 then
    let x := d.capU u
    let refused := x.state == 0 && ((x.linked && !x.master) || !d.capArmable u)
    (if refused then 5 else 0, d.capArm u)
  else if v == 2 then (0, d.capForce u)
  else if v == 3 then (0, d.capAbort u)
  else if v == 4 then (0, d.capRelease u)
  else (6, d)

/-! ### The commands -/

/-- A command of a unit while the field die is out of reset. -/
def capDo (u : Nat) (f : Dev → Nat → Dev) (d : Dev) : Dev := if d.md.fieldReset then d else f d u

/-- CAPTURE_ARM. -/
def execCaptureArm (t : Nat) (unit : Nat) : State → Host.Outcome State Fault Refusal := onDev t (capDo unit Dev.capArm)
/-- CAPTURE_FORCE. -/
def execCaptureForce (t : Nat) (unit : Nat) : State → Host.Outcome State Fault Refusal := onDev t (capDo unit Dev.capForce)
/-- CAPTURE_ABORT. -/
def execCaptureAbort (t : Nat) (unit : Nat) : State → Host.Outcome State Fault Refusal := onDev t (capDo unit Dev.capAbort)
/-- CAPTURE_RELEASE. -/
def execCaptureRelease (t : Nat) (unit : Nat) : State → Host.Outcome State Fault Refusal := onDev t (capDo unit Dev.capRelease)
/-- CAPTURE_SAMPLE. -/
def execCaptureSample (t : Nat) (unit : Nat) (sd : List Nat) : State → Host.Outcome State Fault Refusal :=
  onMem t fun _ _ d => captureSampleAt unit sd d
/-- CAPTURE_HOLDOFF_EXPIRY. -/
def execCaptureHoldoffExpiry (t : Nat) (unit : Nat) : State → Host.Outcome State Fault Refusal := onDev t (holdoffAt unit)

end Sys2Proof.Machine
end

