-- ==== Sys2Proof/Machine/Governor.lean ====
section
/-! DEFINITION. The slack governor (R267 to R270). The PMBus command codes are those of the PMBus standard
(notes/assumptions/31.md). -/

namespace Sys2Proof.Machine

/-- An element of the slack governor's record (9010h). -/
def Dev.gv (d : Dev) (e : Nat) : Nat := d.rn 0x9010 e 0

/-- PMBus command codes: PAGE, VOUT_MODE, VOUT_COMMAND, READ_VOUT. -/
def pmPage : Nat := 0
def pmMode : Nat := 0x20
def pmCommand : Nat := 0x21
def pmRead : Nat := 0x8B

/-- VOUT_COMMAND for a voltage in mV (R269): round(V * 2^-N). -/
def voutWord (mv : Nat) (n : Int) : Nat := (fdiv (Dy.ofInt mv) (Dy.ofInt 1000)).scale (-n) |>.round.toNat

/-- A READ_VOUT value in mV. -/
def voutMv (w : Nat) (n : Int) : Nat := ((Dy.ofInt (w * 1000 : Nat)).scale n).round.toNat

/-- A PMBus transaction starts: 1 PAGE, 2 VOUT_MODE, 3 VOUT_COMMAND, 4 READ_VOUT. -/
def Dev.govSend (d : Dev) (k : Nat) : Dev :=
  let d := { d with gov.trans := k }
  let c := if k == 1 then pmPage else if k == 2 then pmMode else if k == 3 then pmCommand else pmRead
  let v := if k == 1 then d.gv 3 else if k == 3 then voutWord (d.gv 12) d.gov.exp else 0
  d.emit (.pmbus (d.gv 2) c v)

/-- The start sequence (R269): at the start of the latch generator and at a commit of GovMode, Address or Page. -/
def Dev.govStart (d : Dev) : Dev :=
  if d.gv 1 == 0 then { d with gov := {} }.wr 0x9010 12 0 0 |>.wr 0x9010 13 0 0 |>.wr 0x9010 14 0 0
  else if d.gov.trans != 0 then { d with gov := { d.gov with restart := true, linked := false, settles := [], want := false } }
  else
    let d := { d with gov := { evalAt := d.now + d.gv 11 * ms } }.wr 0x9010 14 0 1
    d.govSend (if d.gv 3 == 0xFF then 2 else 1)

/-- A lasting PMBus failure (R270). -/
def Dev.govFail (d : Dev) : Dev :=
  let d := { d with gov := { d.gov with trans := 0, again := false, linked := false, settles := [], want := false, readAgain := false } }
  ((d.inc 0x9010 18 0).raise 0x8F []).wr 0x9010 14 0 3

/-- The bus is free: a waiting start sequence, request or read goes out. -/
def Dev.govNext (d : Dev) : Dev :=
  let d := { d with gov := { d.gov with trans := 0, again := false } }
  if d.gov.restart then { d with gov.restart := false }.govStart
  else if d.gov.want then { d with gov.want := false }.govSend 3
  else d

/-- A request for a voltage (R268): clamped; made only when it differs from VCommanded. -/
def Dev.govRequest (d : Dev) (up : Bool) : Dev :=
  let v := if up then d.gv 12 + d.gv 6 else d.gv 12 - d.gv 6
  let v := max (d.gv 7) (min (d.gv 8) v)
  let d := { d with gov.hold := d.now + d.gv 10 * us, gov.raised := d.gov.raised || up }
  if v == d.gv 12 then
    if up && v == d.gv 8 && d.gv 14 != 2 then (d.wr 0x9010 14 0 2).raise 0x8E [] else d
  else
    let d := (d.wr 0x9010 12 0 v).inc 0x9010 (if up then 15 else 16) 0
    let d := if up then d else d.wr 0x9010 14 0 1
    if d.gov.trans == 0 then d.govSend 3 else { d with gov.want := true }

/-- True while the governor evaluates slack: GovMode 2 with VStart commanded. -/
def Dev.govOn (d : Dev) : Bool := d.gv 1 == 2 && d.gov.linked && d.gv 14 != 3

/-- The slack of a cycle after its cut-off (R267, R268): `s` the slack S_k, `w` the window W. -/
def Dev.govSlack (d : Dev) (s w : Int) : Dev :=
  let less := match d.gov.smin with
    | some p => decide (s * p.2 < p.1 * w)
    | none => true
  let d := if less then { d with gov.smin := some (s, w) } else d
  if d.govOn && decide (s * 100 < (d.gv 5 : Int) * w) && d.gov.hold ≤ d.now then (d.govRequest true).raiseLim 0x8D 0 [] else d

/-- GOVERNOR_EVAL_INTERVAL (R268). -/
def govEvalAt (d : Dev) : Dev :=
  if d.md.fieldReset || !d.govOn || d.now < d.gov.evalAt then d
  else
    let tgt : Int := d.gv 4
    let low := match d.gov.smin with
      | some p => decide (p.1 * 100 < tgt * p.2)
      | none => false
    let high := match d.gov.smin with
      | some p => decide ((tgt + 5) * p.2 ≤ p.1 * 100)
      | none => true
    let d :=
      if low then d.govRequest true
      else if high && !d.gov.raised && d.gov.hold ≤ d.now then d.govRequest false else d
    { d with gov := { d.gov with smin := none, raised := false, evalAt := d.gov.evalAt + d.gv 11 * ms } }

/-- GOVERNOR_SETTLE (R270): READ_VOUT. -/
def govSettleAt (d : Dev) : Dev :=
  match d.gov.settles with
  | (t, r) :: rest =>
    if d.md.fieldReset || d.gov.trans != 0 || d.now < t then d
    else { d with gov := { d.gov with settles := rest, readAgain := r } }.govSend 4
  | [] => d

/-- A transaction that was acknowledged with a good packet error check: what it read (R269, R270). -/
def Dev.govGood (d : Dev) (data : Nat) : Dev :=
  let k := d.gov.trans
  let d := if d.gov.again then d.inc 0x9010 17 0 else d
  if k == 1 then { d with gov.again := false }.govSend 2
  else if k == 2 then
    if bits data 7 5 != 0 then d.govFail
    else
      let d := { d with gov := { d.gov with exp := toSigned 5 (data % 32), again := false } }
      { d with gov.linked := true }.wr 0x9010 12 0 (d.gv 9) |>.govSend 3
  else if k == 3 then { d with gov.settles := d.gov.settles ++ [(d.now + d.gv 10 * us, false)] }.govNext
  else
    let v := voutMv data d.gov.exp
    let d := d.wr 0x9010 13 0 v
    let far := 20 < (if v < d.gv 12 then d.gv 12 - v else v - d.gv 12)
    if far then
      if d.gov.readAgain then d.govFail
      else { d with gov.settles := d.gov.settles ++ [(d.now + d.gv 10 * us, true)] }.govNext
    else (if d.gov.readAgain then d.inc 0x9010 17 0 else d).govNext

/-- PMBUS_TRANSACTION_COMPLETE (R270). -/
def pmbusDoneAt (ok : Bool) (data : Nat) (d : Dev) : Dev :=
  if d.md.fieldReset || d.gov.trans == 0 then d
  else if d.gov.restart then d.govNext
  else if ok then d.govGood data
  else if d.gov.again then d.govFail
  else { d with gov.again := true }.govSend d.gov.trans

/-- GOVERNOR_EVAL_INTERVAL. -/
def execGovernorEvalInterval (t : Nat) : State → Host.Outcome State Fault Refusal := onDev t govEvalAt
/-- GOVERNOR_SETTLE. -/
def execGovernorSettle (t : Nat) : State → Host.Outcome State Fault Refusal := onDev t govSettleAt
/-- PMBUS_TRANSACTION_COMPLETE. -/
def execPmbusTransactionComplete (t : Nat) (ack pecOk : Bool) (data : Nat) : State → Host.Outcome State Fault Refusal :=
  onDev t (pmbusDoneAt (ack && pecOk) data)

end Sys2Proof.Machine
end

