-- ==== Sys2Proof/Machine/Judge.lean ====
section
/-! DEFINITION. The Judge and the blades (R272 to R292): lasting faults, takeover, restoring, arbitration lost, the
planned swap. -/

namespace Sys2Proof.Machine

/-- Redundancy state (R286). -/
def Dev.redundancy (d : Dev) : Nat :=
  match d.active with
  | none => 4
  | some a =>
    let o := bladeOther a
    if d.rn 0x9020 2 0 == 2 then 3
    else if d.blState o == 3 then 0
    else if d.blState o == 5 && d.eng.revoking.isNone then 2 else 1

/-- A blade is reset (R282, R285): engine state cleared, self-test; one whose lasting faults exceed RestoreLimit stays
failed. -/
def Dev.bladeReset (d : Dev) (b : Blade) : Dev :=
  let o := 0x9030 + bladeNum b
  let d := { d with eng.recopy := d.eng.recopy.filter fun p => p.1 != b }
  let d := if match d.eng.revoking with
      | some (x, _) => x == b
      | none => false
    then { d with eng.revoking := none } else d
  if d.rn 0x9020 9 0 < d.rn o 3 0 then d.setBl b {}
  else ((d.setBl b { testing := true }).inc o 4 0).setBlState b 1

/-- No blade is left to drive the frames (R287). -/
def Dev.noBladeLeft (d : Dev) : Dev :=
  let d := ((d.wr 0x9020 1 0 0xFF).raise 0x84 []).safeHold 0x84
  let d := { d with eng.replay := [], eng.takeover := none }
  d.each d.enabledAxes fun d a => d.immediateSto a 0x84 false

/-- Laws that blade `b` has completed in the open cycle and whose slots are not fresh (R278). -/
def Dev.replayList (d : Dev) (b : Blade) : List LawId :=
  let ls := (d.enabledAxes.map LawId.axis) ++ (d.units.map LawId.unit)
  ls.filter fun l => !d.eng.fresh.contains l && d.eng.cutFor.isSome && (d.resultOf b l).1 == d.eng.cutFor

/-- The grant of the frame writer to the standby blade (R276). -/
def Dev.grant (d : Dev) (x : Blade) (cause : Nat) : Dev :=
  let n := bladeOther x
  let d := (((d.wr 0x9020 1 0 (bladeNum n)).setBlState n 4).inc 0x9020 4 0).wr 0x9020 6 0 cause
  let d := (d.wr 0x9020 7 0 d.devTime).emit (.revoke x)
  let d := { d with
    eng.takeover := some (cause, d.devTime, d.now), eng.revoking := some (x, d.now), eng.replay := d.replayList n }
  d.raise 0x80 (leBytes cause 1)

/-- A lasting fault of blade `x` (R275 to R289). -/
def Dev.bladeFault (d : Dev) (x : Blade) (cause : Nat) : Dev :=
  let o := 0x9030 + bladeNum x
  let st := d.blState x
  if st == 0 || st == 5 then d
  else
    let d := ((d.wr o 2 0 cause).inc o 3 0).setBlState x 5
    let d := if cause == 1 then d.inc o 9 0 else d
    let d := { d with eng.diverged := none }.raise 0x81 (leBytes (bladeNum x) 1 ++ leBytes cause 1)
    if d.active != some x then d.bladeReset x
    else if d.rn 0x9020 2 0 == 1 && d.blState (bladeOther x) == 3 then d.grant x cause
    else (d.noBladeLeft.emit (.revoke x)).bladeReset x

/-- BLADE_LASTING_FAULT (R276): the Judge takes a report of the blade. -/
def bladeLastingAt (b : Blade) (cause : Nat) (d : Dev) : Dev :=
  let y := d.bl b
  if d.md.fieldReset || !y.reports.contains cause then d
  else (d.setBl b { y with reports := y.reports.erase cause }).bladeFault b cause

/-- BLADE_HEARTBEAT_LOSS (R273): not watched without arbitration (R289). -/
def bladeHeartbeatAt (b : Blade) (d : Dev) : Dev :=
  if d.md.fieldReset || d.rn 0x9020 2 0 != 1 then d else d.bladeFault b 1

/-- The revocation of a blade takes effect; it is reset (R282). -/
def revocationAt (b : Blade) (wait : Nat) (d : Dev) : Dev :=
  match d.eng.revoking with
  | some (x, t) => if d.md.fieldReset || x != b || d.now < t + wait then d else d.bladeReset b
  | none => d

/-- TAKEOVER_COMPLETE (R278): the first replay is written. -/
def takeoverDoneAt (d : Dev) : Dev :=
  match d.eng.takeover, d.active with
  | some (_, _, t), some b =>
    if d.md.fieldReset then d
    else
      let d := d.each d.eng.replay fun d l => d.frameWrite l (d.resultOf b l).2
      { d with eng.replay := [], eng.takeover := none }.wr 0x9020 8 0 ((d.now - t) / 1000 : Nat)
  | _, _ => d

/-- BLADE_SELF_TEST_COMPLETE (R282, R283): a pass begins the resynchronisation at the next cut-off. -/
def selfTestAt (b : Blade) (bad : Nat) (d : Dev) : Dev :=
  let o := 0x9030 + bladeNum b
  if d.md.fieldReset || !(d.bl b).testing then d
  else
    let d := (d.modBl b fun y => { y with testing := false }).wr o 5 0 bad
    if bad == 0 then (d.modBl b fun y => { y with resync := some 0, copyDue := [], copied := [] }).setBlState b 2
    else ((d.wr o 2 0 5).setBlState b 5).raise 0x82 (leBytes (bladeNum b) 1)

/-- Arbitration is lost (R289, R290). -/
def Dev.arbitrationLost (d : Dev) : Dev :=
  if d.rn 0x9020 2 0 == 2 then d else { d with eng.swapDue := false, eng.diverged := none }.wr 0x9020 2 0 2 |>.raise 0x85 []

/-- JUDGE_HEARTBEAT_LOSS (R290). -/
def judgeLostAt (d : Dev) : Dev := if d.md.fieldReset then d else d.arbitrationLost

/-- One blade's part of the self-tests at power-up (R288). -/
def Dev.powerUpBlade (d : Dev) (b : Blade) (bad : Nat) : Dev :=
  let o := 0x9030 + bladeNum b
  let d := d.wr o 5 0 bad
  if bad == 0 then d.setBlState b 3
  else ((d.wr o 2 0 5).setBlState b 5).raise 0x82 (leBytes (bladeNum b) 1)

/-- POWER_UP_SELF_TEST_COMPLETE (R288, R289): once, while the Judge and both blades are in self-test. -/
def powerUpAt (judgeOk : Bool) (ba bb : Nat) (d : Dev) : Dev :=
  if d.md.fieldReset || d.rn 0x9020 2 0 != 0 then d
  else
    let d := (d.powerUpBlade .a ba).powerUpBlade .b bb
    let d :=
      if ba == 0 then (d.wr 0x9020 1 0 0).setBlState .a 4
      else if bb == 0 then (d.wr 0x9020 1 0 1).setBlState .b 4 else d.wr 0x9020 1 0 0xFF
    if judgeOk then d.wr 0x9020 2 0 1 else d.arbitrationLost

/-- Judgement of a write to SwapRequest at step 11 (R291): its status. -/
def swapCheck (d : Dev) (v : Nat) : Nat :=
  if v == 0 then 0
  else if d.mode != 2 || d.redundancy != 0 then 5
  else if d.eng.takeover.isSome || d.eng.revoking.isSome || d.eng.swapDue then 9 else 0

/-- Judgement of a write to FaultAck at step 11 (R251): its status. -/
def faultAckCheck (d : Dev) (a v : Nat) : Nat :=
  if v == 0 then 0
  else if d.axState a != 3 || !d.rb 0x2000 1 a || !d.torqueOff a || d.faultPersists a then 5 else 0

/-- FaultAck takes effect at the boundary (R251, R253). -/
def Dev.faultAck (d : Dev) (a : Nat) : Dev :=
  ((d.awaitFirst a).wr 0x2160 4 a 0).wr 0x2160 7 a 0 |>.raise 0x8A (leBytes a 2)

/-! ### At the cut-off (R275, R283, R291) -/

/-- Insertion of a law's state on the resynchronising blade (R283). -/
def Dev.copyLaw (d : Dev) (src dst : Blade) (l : LawId) : Dev :=
  let d := match l with
    | .axis a => d.setAxLaw dst a { d.axLaw src a with run := none, ys := [] }
    | .unit u => d.modBl dst fun y => { y with lines := Tab.put y.lines u { Tab.get (d.bl src).lines u {} with jobs := [] } }
  d.modBl dst fun y => { y with copied := l :: y.copied }

/-- True while a law is running or waits on a blade for cycle `k` or an earlier one (R247). -/
def Dev.lawOpen (d : Dev) (b : Blade) (k : Nat) (l : LawId) : Bool :=
  match l with
  | .axis a => (match (d.axLaw b a).run with
      | some r => decide (r.job.cycle ≤ k)
      | none => false) || (d.bl b).jobs.any fun j => j.axis == a && decide (j.cycle ≤ k)
  | .unit u => (Tab.get (d.bl b).lines u {}).jobs.any fun j => decide (j.cycle ≤ k)

/-- The laws of the engine. -/
def Dev.allLaws (d : Dev) : List LawId := (d.enabledAxes.map LawId.axis) ++ (d.units.map LawId.unit)

/-- Number of a law modulo 8 (R283). -/
def lawMod8 : LawId → Nat
  | .axis a => a % 8
  | .unit u => u % 8

/-- A blade reports Incomplete at the cut-off of cycle `k` (the table of inputs of the Judge). -/
def Dev.incomplete (d : Dev) (b : Blade) (k : Nat) : Bool := d.allLaws.any (d.lawOpen b k)

/-- The copy step of a resynchronising blade at the cut-off of cycle `k` (R283, R284). -/
def Dev.resyncStep (d : Dev) (k : Nat) (b : Blade) : Dev :=
  match (d.bl b).resync, d.active with
  | some j, some a =>
    if a == b || d.blState b != 2 then d
    else
      let y := d.bl b
      let want := y.copyDue ++ (if j < 8 then d.allLaws.filter fun l => lawMod8 l == j else [])
      let later := want.filter (d.lawOpen a k)
      let d := d.each (want.filter fun l => !later.contains l) fun d l => d.copyLaw a b l
      if 7 ≤ j && later.isEmpty then
        ((d.modBl b fun y => { y with resync := none, copyDue := [] }).setBlState b 3).raise 0x83 (leBytes (bladeNum b) 1)
      else d.modBl b fun y => { y with resync := some (j + 1), copyDue := later }
  | _, _ => d

/-- The divergence incident at a cut-off (R275): `l` the one blade that lagged. The second component: the blade whose
divergence is lasting. -/
def Dev.divergence (d : Dev) (k : Nat) : Dev × Option Blade :=
  let sts := (d.blState .a == 3 && d.blState .b == 4) || (d.blState .a == 4 && d.blState .b == 3)
  if d.rn 0x9020 2 0 != 1 || !sts || blades.any (fun b => !(d.bl b).reports.isEmpty) then
    ({ d with eng.diverged := none }, none)
  else
    let ia := d.incomplete .a k
    let ib := d.incomplete .b k
    let lag : Option Blade := if ia == ib then none else if ia then some .a else some .b
    match d.eng.diverged with
    | none => ({ d with eng.diverged := lag }, none)
    | some x =>
      if lag == some x then ({ d with eng.diverged := none }, some x)
      else (({ d with eng.diverged := lag }.inc (0x9030 + bladeNum x) 6 0).raise 0x87 (leBytes (bladeNum x) 1), none)

/-- The planned swap at a cut-off (R291): dropped when the other blade is no longer in standby. -/
def Dev.swapStep (d : Dev) : Dev :=
  if !d.eng.swapDue then d
  else
    let d := { d with eng.swapDue := false }
    match d.active with
    | some x =>
      let n := bladeOther x
      if d.blState n != 3 || d.rn 0x9020 2 0 != 1 then d
      else
        let d := ((d.wr 0x9020 1 0 (bladeNum n)).setBlState n 4).setBlState x 3
        (d.inc 0x9020 5 0).raise 0x86 (leBytes (bladeNum n) 1)
    | none => d

/-! ### Commands -/

/-- BLADE_LASTING_FAULT. -/
def execBladeLastingFault (t : Nat) (blade : Blade) (cause : Nat) : State → Host.Outcome State Fault Refusal :=
  onDev t (bladeLastingAt blade cause)
/-- BLADE_HEARTBEAT_LOSS. -/
def execBladeHeartbeatLoss (t : Nat) (blade : Blade) : State → Host.Outcome State Fault Refusal :=
  onDev t (bladeHeartbeatAt blade)
/-- REVOCATION_ACK. -/
def execRevocationAck (t : Nat) (blade : Blade) : State → Host.Outcome State Fault Refusal := onDev t (revocationAt blade 0)
/-- REVOCATION_ACK_TIMEOUT. -/
def execRevocationAckTimeout (t : Nat) (blade : Blade) : State → Host.Outcome State Fault Refusal :=
  onDev t (revocationAt blade (2 * us))
/-- TAKEOVER_COMPLETE. -/
def execTakeoverComplete (t : Nat) : State → Host.Outcome State Fault Refusal := onDev t takeoverDoneAt
/-- BLADE_SELF_TEST_COMPLETE. -/
def execBladeSelfTestComplete (t : Nat) (blade : Blade) (bits : Nat) : State → Host.Outcome State Fault Refusal :=
  onDev t (selfTestAt blade bits)
/-- JUDGE_HEARTBEAT_LOSS. -/
def execJudgeHeartbeatLoss (t : Nat) : State → Host.Outcome State Fault Refusal := onDev t judgeLostAt
/-- POWER_UP_SELF_TEST_COMPLETE. -/
def execPowerUpSelfTestComplete (t : Nat) (judgeOk : Bool) (bitsA bitsB : Nat) : State → Host.Outcome State Fault Refusal :=
  onDev t (powerUpAt judgeOk bitsA bitsB)

end Sys2Proof.Machine
end

