-- ==== Sys2Proof/Machine/Line.lean ====
section
/-! DEFINITION. The Line engine (R294 to R328): points of common coupling, converter inputs, the virtual machine law, unit
states and trips. -/

namespace Sys2Proof.Machine

/-! ### Small parts -/

/-- Unit `u`. -/
def Dev.lu (d : Dev) (u : Nat) : LineUnit := Tab.get d.line.units u {}
/-- Sets it. -/
def Dev.setLu (d : Dev) (u : Nat) (x : LineUnit) : Dev := { d with line.units := Tab.put d.line.units u x }
/-- Changes it. -/
def Dev.modLu (d : Dev) (u : Nat) (f : LineUnit → LineUnit) : Dev := d.setLu u (f (d.lu u))
/-- State of a unit (3040h:1). -/
def Dev.luState (d : Dev) (u : Nat) : Nat := d.rn 0x3040 1 u
/-- The PCC of a unit. -/
def Dev.luPcc (d : Dev) (u : Nat) : Nat := d.rn 0x3000 2 u
/-- PCC `p`. -/
def Dev.pcc (d : Dev) (p : Nat) : Pcc := Tab.get d.line.pccs p {}
/-- The line law of a unit on a blade. -/
def Dev.lineLaw (d : Dev) (b : Blade) (u : Nat) : LineLaw := Tab.get (d.bl b).lines u {}
/-- Sets it. -/
def Dev.setLineLaw (d : Dev) (b : Blade) (u : Nat) (x : LineLaw) : Dev :=
  d.modBl b fun y => { y with lines := Tab.put y.lines u x }
/-- Changes the law's state on both blades. -/
def Dev.modLaws (d : Dev) (u : Nat) (f : LineLaw → LineLaw) : Dev :=
  d.each blades fun d b => d.setLineLaw b u (f (d.lineLaw b u))
/-- The next run of a unit's law is a first run (R308). -/
def Dev.lineFirst (d : Dev) (u : Nat) : Dev := d.modLaws u fun x => { x with first := true }
/-- One turn. -/
def turn : Nat := 4294967296
/-- An angle difference from -0.5 to 0.5 turn. -/
def wrapTurn (a b : Nat) : Dy := ⟨toSigned 32 (a + turn - b % turn), -32⟩
/-- Sine of an angle (R307). -/
def sinT (a : Nat) : Bf := bfOf ⟨Config.sinTable (a % turn), -22⟩
/-- Cosine of an angle. -/
def cosT (a : Nat) : Bf := sinT (a + 1073741824)
/-- A third of a turn. -/
def third : Nat := 1431655765
/-- Angle of a vector in U32 turns. -/
def angleOf (y x : Bf) : Nat := Config.atan2Table y.m (y.e - 22) x.m (x.e - 22) % turn
/-- Square root of the sum of two squares. -/
def hypot (x y : Bf) : Bf := bfOf ((x.times x).add (y.times y)).sqrtBits
/-- A fraction in binary64 rounded to BF24. -/
def bfRatio (n m : Int) : Bf := bfOf (fratio n m)

/-! ### Points of common coupling (R302 to R305) -/

/-- The sigma-delta input that carries a role. -/
def Dev.roleInput (d : Dev) (r : Nat) : Option Nat := (List.range 16).find? fun n => d.rn 0x3080 (3 + n) 0 == r

/-- The voltage inputs of PCC `p`. -/
def Dev.pccInputs (d : Dev) (p : Nat) : List (Option Nat) := (List.range 3).map fun j => d.roleInput (16 * (p + 1) + j)

/-- True while a PCC is valid (R305). -/
def Dev.pccValid (d : Dev) (p : Nat) : Bool :=
  d.rb 0x3080 2 0 && (d.pccInputs p).all fun i => match i with
    | some n => !d.line.faulted.contains n
    | none => false

/-- A latched output in pu (R302): 0 for a role without input. -/
def Dev.sdValue (d : Dev) (i : Option Nat) : Bf :=
  match i with
  | some n =>
    match d.line.sd[n]? with
    | some o => bfOf ((⟨o.man, o.exp⟩ : Dy).mul (d.rf 0x3080 (19 + n) 0))
    | none => Bf.zero
  | none => Bf.zero

/-- The PCC space vector at a latch instant (R304); `p` the PCC. -/
def Dev.measurePcc (d : Dev) (p : Nat) : Dev :=
  let ins := d.pccInputs p
  let old := d.pcc p
  let va := d.sdValue (ins.getD 0 none)
  let vb := d.sdValue (ins.getD 1 none)
  let vc := d.sdValue (ins.getD 2 none)
  let al := bfOf ((bfRatio 2 3).val.mul (va.val.sub ((vb.val.add vc.val).scale (-1))))
  let be := bfOf ((bfOf (fdiv (Dy.ofInt 1) (fsqrt (Dy.ofInt 3)))).val.mul (vb.val.sub vc.val))
  let v := hypot al be
  let age := match ins.getD 0 none with
    | some n => match d.line.sd[n]? with
      | some o => o.age
      | none => 0
    | none => 0
  let r := d.rn 0x3080 1 0
  let tau := bfOf (fadd (fratio age 1000000000) (fratio (3 * (r - 1) : Nat) 40000000))
  let turns := ((old.f.times tau).scale 32).round
  let th := ofSigned 32 ((angleOf be al : Int) + turns)
  let f := match old.prev with
    | some (t0, _) =>
      let dt := fratio d.period 1000000000
      let df := bfOf (fdiv (wrapTurn th t0) dt)
      bfOf (old.f.val.add ((df.val.sub old.f.val).mul (bfOf (fdiv dt (fratio 1 50))).val))
    | none => old.f
  let d := { d with line.pccs := Tab.put d.line.pccs p { v := v, theta := th, f := f, prev := some (th, d.tm.cycle) } }
  let o := 0x3090 + p
  (((d.wb o 1 0 (d.pccValid p)).wf o 2 0 v.val).wf o 3 0 f.val).wr o 4 0 th

/-- FaultedInputs of both PCCs (3090h:5, 3091h:5). -/
def Dev.faultBits (d : Dev) : Dev :=
  d.each [0, 1] fun d p =>
    let ns := d.line.faulted.filter fun n => d.rn 0x3080 (3 + n) 0 / 16 == p + 1
    (d.wr (0x3090 + p) 5 0 ((ns.map fun n => 2 ^ n).sum : Nat)).wb (0x3090 + p) 1 0 (d.pccValid p)

/-- SIGMA_DELTA_STUCK (R305). -/
def sdStuckAt (n : Nat) (d : Dev) : Dev :=
  let d := if d.md.fieldReset || 16 ≤ n then d else { d with line.stuckAt := Tab.put d.line.stuckAt n d.now }
  if d.md.fieldReset || 16 ≤ n || !d.rb 0x3080 2 0 || d.line.faulted.contains n then d
  else
    let d := { d with line.faulted := n :: d.line.faulted }.raise 0xA6 (leBytes n 1)
    let r := d.rn 0x3080 (3 + n) 0 / 16
    (if r == 1 || r == 2 then d.inc (0x308F + r) 6 0 else d).faultBits

/-- SIGMA_DELTA_RECOVERY (R305): 16 ms after the last run of one level. -/
def sdRecoverAt (n : Nat) (d : Dev) : Dev :=
  if d.md.fieldReset || d.now < Tab.get d.line.stuckAt n 0 + 16 * ms then d else { d with line.faulted := d.line.faulted.filter (· != n) }.faultBits

/-! ### Converter inputs (R296, R298, R300) -/

/-- A converter slot fits its gate, which is not lost (R296, the table of trip causes). -/
def Dev.convFits (d : Dev) (c : Nat × Nat × Nat × Nat) : Bool :=
  let g := (d.sg c.2.1).gate c.2.2.1
  d.slotFits c.2.1 c.2.2.1 c.2.2.2 && !g.lost && bit (gKind g.desc) 2 && 12 ≤ gLo g.desc && 12 ≤ gLi g.desc

/-- Every converter of a unit fits. -/
def Dev.unitFits (d : Dev) (u : Nat) : Bool := (d.convs u).all d.convFits

/-- The inputs of a converter slot (R298). -/
def convOf (b : Bytes) : ConvIn :=
  { ia := toSigned 16 (leAt b 0 2), ib := toSigned 16 (leAt b 2 2), ic := toSigned 16 (leAt b 4 2)
    vdc := leAt b 6 2, status := byteAt b 8 }

/-- True when the window of a converter slot is decided in cycle `k`, or none is to come. -/
def Dev.convDecided (d : Dev) (k : Nat) (c : Nat × Nat × Nat × Nat) : Bool :=
  let st := d.segState c.2.1
  (st != 4 && st != 5) || !d.slotFits c.2.1 c.2.2.1 c.2.2.2 || (match Tab.find d.eng.win (c.2.1 * 4096 + c.2.2.1) with
    | some w => w.cycle == k
    | none => false)

/-- The window data of a converter slot in cycle `k`. -/
def Dev.convData (d : Dev) (k : Nat) (c : Nat × Nat × Nat × Nat) : Option Bytes :=
  match Tab.find d.eng.win (c.2.1 * 4096 + c.2.2.1) with
  | some w => if w.cycle == k && d.slotFits c.2.1 c.2.2.1 c.2.2.2 then
      w.data.map fun x =>
        let li := gLi ((d.sg c.2.1).gate c.2.2.1).desc
        slice x (c.2.2.2 * li) li
    else none
  | none => none

/-- The inputs of a unit taken in cycle `k`: held values for a null window, 3040h:13, Vdc and the breaker's report. -/
def Dev.takeConvs (d : Dev) (u k : Nat) : Dev :=
  let cs := d.convs u
  let got := cs.filterMap fun c => (d.convData k c).map fun b => (c.1, convOf b)
  let d := d.modLu u fun x => { x with conv := got.foldl (fun t p => Tab.put t p.1 p.2) x.conv }
  let d := if got.length < cs.length then d.inc 0x3040 13 u else d
  let d := if got.isEmpty then d
    else d.modLu u fun x => { x with vdc := fdiv ⟨((got.map fun p => p.2.vdc).sum : Nat), -14⟩ (Dy.ofInt got.length) }
  let brk := bit (Tab.get (d.lu u).conv 0 {}).status 2
  (d.wb 0x3040 10 u brk).wf 0x3040 9 u (d.lu u).vdc

/-- Lanes 28 to 31 take waiting line laws (R306). -/
def Dev.lineDispatch (d : Dev) (b : Blade) : Dev :=
  if !d.evaluates b then d
  else d.each [0, 1, 2, 3] fun d l =>
    if (Tab.find (d.bl b).lanes (28 + l)).isSome then d
    else
      match (List.range 8).find? fun u => u % 4 == l && !(d.lineLaw b u).jobs.isEmpty with
      | some u => d.modBl b fun y => { y with lanes := Tab.put y.lanes (28 + l) (.unit u) }
      | none => d

/-- True when the law of unit `u` is ready in cycle `k` (R306). -/
def Dev.lineReady (d : Dev) (u k : Nat) : Bool :=
  2 ≤ d.mode && d.luState u != 0 && (d.lu u).ready != some k && 1000 ≤ d.sinceLatch k &&
    (d.convs u).all (d.convDecided k)

/-- The law of unit `u` becomes ready: its inputs. -/
def Dev.lineJob (d : Dev) (u k : Nat) : Dev :=
  let d := (d.takeConvs u k).modLu u fun x => { x with ready := some k }
  let x := d.lu u
  let sn := d.rf 0x3000 4 u
  let sum (f : ConvIn → Int) : Bf := bfOf ((d.convs u).foldl (fun s c =>
    s.add ((⟨f (Tab.get x.conv c.1 {}), -13⟩ : Dy).mul (bfOf (fdiv (d.rf 0x3000 (11 + c.1) u) sn)).val)) Dy.zero)
  let p := d.pcc (d.luPcc u)
  let j : LineJob := {
    cycle := k, at_ := d.tm.latchNs * 1000, ia := sum (·.ia), ib := sum (·.ib), ic := sum (·.ic), vdc := bfOf x.vdc
    st := d.luState u, brk := d.rb 0x3040 10 u, valid := d.pccValid (d.luPcc u)
    v := p.v, theta := p.theta, f := p.f, closing := x.closing }
  let d := { d with eng.ranThis := .unit u :: d.eng.ranThis }
  d.each blades fun d b =>
    if !d.evaluates b || (d.blState b == 2 && !(d.bl b).copied.contains (.unit u)) then d
    else d.setLineLaw b u { d.lineLaw b u with jobs := (d.lineLaw b u).jobs ++ [j] }

/-- Laws that have become ready. -/
def Dev.lineWake (d : Dev) : Dev :=
  let k := d.tm.cycle
  let us := d.units.filter fun u => d.lineReady u k
  if us.isEmpty then d else ((d.each us fun d u => d.lineJob u k).lineDispatch .a).lineDispatch .b

/-! ### The virtual machine law (R307) -/

/-- Saturated U16 of a value in units of 2^-k. -/
def u16Of (x : Dy) (k : Int) : Nat := (max 0 (min 65535 (x.scale k).round)).toNat

/-- The parameters of a unit's law as BF24 values. -/
structure LineParam where
  t : Bf
  par : Nat → Bf
  set : Nat → Bf
  ap : Bf
  aq : Bf
  ad : Bf
  ah : Bf
  amp : Option Bf
  mq : Bf
  ct : Bf
  cf : Bf
  c5 : Bf
  ar : Bf
  a01 : Bf
  xft : Bf

/-- The parameters of unit `u`. -/
def Dev.lineParam (d : Dev) (u : Nat) : LineParam :=
  let t := fratio d.period 1000000000
  let q := fun e => d.rf 0x3010 e u
  let fn := d.rf 0x3000 6 u
  let hundred := Dy.ofInt 100
  let thousand := Dy.ofInt 1000
  { t := bfOf t, par := fun e => bfOf (q e), set := fun e => bfOf (d.rf 0x3030 e u)
    ap := bfOf (fdiv t (fdiv (q 7) thousand)), aq := bfOf (fdiv t (fdiv (q 8) thousand))
    ad := bfOf (fdiv t (q 3)), ah := bfOf (fdiv t (fmul (Dy.ofInt 2) (q 1)))
    amp := if (q 4).isZero then none else some (bfOf (fdiv hundred (q 4)))
    mq := bfOf (fdiv (q 6) hundred)
    ct := bfOf (fmul fn t), cf := bfOf (fdiv (Dy.ofInt 1) fn), c5 := bfOf (fdiv (Dy.ofInt 5) fn)
    ar := bfOf (fdiv t (d.rf 0x3020 1 u)), a01 := bfOf (fdiv t (fratio 1 10)), xft := bfOf (d.rf 0x3020 14 u) }

/-- Value of a BF24 times another, as a term. -/
def Bf.by (x y : Bf) : Dy := x.times y

/-- One evaluation: the law's next state with its output, and the current imag. -/
def lineEval (x : LineLaw) (p : LineParam) (j : LineJob) : LineLaw × Bf :=
  let wset := p.set 4
  let x := if x.first then
      { x with first := false, theta := 0, w := wset, wf := wset, piso := Bf.zero, pf := Bf.zero, qf := Bf.zero
               ifl := Bf.zero, vse := Bf.zero, e := Bf.zero, xr := Bf.zero
               ref1 := (Bf.zero, Bf.zero), ref2 := (Bf.zero, Bf.zero) }
    else x
  let c0 := cosT x.theta
  let c1 := cosT (x.theta + turn - third)
  let c2 := cosT (x.theta + third)
  let s0 := sinT x.theta
  let s1 := sinT (x.theta + turn - third)
  let s2 := sinT (x.theta + third)
  let tw := bfRatio 2 3
  let id := bfOf (tw.val.mul (((j.ia.by c0).add (j.ib.by c1)).add (j.ic.by c2)))
  let iq := bfOf (tw.val.mul (((j.ia.by s0).add (j.ib.by s1)).add (j.ic.by s2))).neg
  let imag := hypot id iq
  let vd0 := x.ref2.1
  let vq0 := x.ref2.2
  let pf := bfOf (x.pf.val.add ((((vd0.by id).add (vq0.by iq)).sub x.pf.val).mul p.ap.val))
  let qf := bfOf (x.qf.val.add ((((vq0.by id).sub (vd0.by iq)).sub x.qf.val).mul p.aq.val))
  let ifl := bfOf (x.ifl.val.add ((imag.val.sub x.ifl.val).mul p.ap.val))
  let pr0 := bfOf ((((p.set 1).val).add ((p.par 13).val.mul (j.vdc.val.sub (p.par 14).val))).add x.piso.val)
  let pref := match p.amp with
    | some m => bfOf (pr0.val.add ((wset.val.sub x.w.val).mul m.val))
    | none => pr0
  let wf := bfOf (x.wf.val.add ((x.w.val.sub x.wf.val).mul p.ad.val))
  let swing := j.st == 3 || j.st == 5
  let w :=
    if swing then
      bfOf (x.w.val.add (((pref.val.sub pf.val).sub ((p.par 2).val.mul (x.w.val.sub wf.val))).mul p.ah.val))
    else if j.st == 4 then bfOf ((j.f.by p.cf).add (p.c5.val.mul (wrapTurn j.theta x.theta)))
    else x.w
  let piso :=
    if swing && p.amp.isNone then bfOf (x.piso.val.add ((p.par 5).val.mul ((wset.val.sub w.val).mul p.t.val))) else x.piso
  let theta := ofSigned 32 ((x.theta : Int) + ((w.by p.ct).scale 32).round)
  let still := j.st == 1 || j.st == 7
  let vset := p.set 3
  let lim := vset.by p.ar
  let dv := ((vset.val.sub x.vse.val).max lim.neg).min lim
  let vse := if still then Bf.zero else if j.st == 3 && !j.brk then x.vse else bfOf (x.vse.val.add dv)
  let e :=
    if still then Bf.zero
    else if j.st == 4 then j.v
    else if j.st != 6 then bfOf (vse.val.sub (p.mq.val.mul (qf.val.sub (p.set 2).val)))
    else x.e
  let xr := if j.st == 6 then p.xft else bfOf (Dy.zero.max (x.xr.val.sub (p.xft.by p.a01)))
  let xx := bfOf (((p.par 10).val.add ((p.par 12).val.mul (Dy.zero.max (ifl.val.sub (p.par 11).val)))).add xr.val)
  let vd := bfOf ((e.val.sub ((p.par 9).by id)).add (xx.by iq))
  let vq := bfOf (((p.par 9).by iq).neg.sub (xx.by id))
  let mag := hypot vd vq
  let ang := ofSigned 32 ((theta : Int) + (((w.by p.ct).scale 33).round) + (angleOf vq vd : Int))
  let form := j.st == 4 || j.st == 5 || j.st == 6 || (j.st == 3 && j.brk)
  let close := j.st == 3 || j.st == 5 || j.st == 6 || (j.st == 4 && j.closing)
  let cmd := (if form then 1 else 0) + (if close then 2 else 4) + (if j.st == 6 then 8 else 0)
  let out := leBytes ang 4 ++ leBytes (u16Of mag.val 14) 2 ++ leBytes (u16Of w.val 15) 2 ++ leBytes cmd 1 ++ [0] ++
    leBytes (u16Of (p.par 11).val 14) 2
  ({ x with
      theta := theta, w := w, wf := wf, piso := piso, pf := pf, qf := qf, ifl := ifl, vse := vse, e := e, xr := xr, x := xx
      ref2 := x.ref1, ref1 := (vd, vq), ang2 := x.ang1, ang1 := ang, done := some j.cycle, out := out }, imag)

/-! ### Conditions watched in each run -/

/-- Start of a continuous condition. -/
def since (t : Option Nat) (ok : Bool) (at_ : Nat) : Option Nat := if ok then some (t.getD at_) else none

/-- The conditions of a run (R311 to R318); `app` the angle that the unit applied at the latch instant. -/
def Dev.lineConds (d : Dev) (u : Nat) (j : LineJob) (x : LineLaw) (imag : Bf) (app : Nat) : Dev :=
  let y := d.lu u
  let g := fun e => d.rf 0x3020 e u
  let y := { y with imag := imag }
  if j.st == 2 then
    let ok := j.valid && j.v.val.lt (g 3)
    d.setLu u { y with deadAt := since y.deadAt ok j.at_, deadDue := y.deadDue && ok }
  else if j.st == 3 then
    let seen := j.brk && !y.bsSeen
    let y := { y with
      bsSeen := y.bsSeen || j.brk, closeAt := if j.brk then none else y.closeAt
      conf := if j.brk && (g 2).lt imag.val then y.conf + 1 else if 3 ≤ y.conf then y.conf else 0 }
    if seen then (d.setLu u y).raise 0xA3 (leBytes u 1) else d.setLu u y
  else if j.st == 4 then
    let fd := (x.w.val.mul (d.rf 0x3000 6 u)).sub j.f.val
    let ok := j.valid && (wrapTurn j.theta app).abs.le (fdiv (g 5) (Dy.ofInt 360)) && fd.abs.le (g 6) &&
      (x.e.val.sub j.v.val).abs.le (g 7)
    d.setLu u { y with syncAt := since y.syncAt ok j.at_ }
  else if j.st == 5 then
    let hit := (j.valid && (j.v.val.lt (g 9) || (g 11).lt j.v.val)) || (g 13).le imag.val
    d.setLu u { y with dist := if hit then y.dist + 1 else if 2 ≤ y.dist then y.dist else 0 }
  else if j.st == 6 then
    let ok := (!j.valid || ((g 10).le j.v.val && j.v.val.le (g 12))) && imag.val.lt (d.rf 0x3010 11 u)
    d.setLu u { y with recAt := since y.recAt ok j.at_, recDue := y.recDue && ok }
  else d.setLu u y

/-- Energy in W ns of a run, and whole Wh carried (3050h). -/
def Dev.lineLife (d : Dev) (u : Nat) (pf : Bf) (st : Nat) : Dev :=
  let e := ((pf.val.mul (d.rf 0x3000 4 u)).mul (Dy.ofInt d.period)).round
  let wh : Nat := 3600000000000
  let y := d.lu u
  let o := y.whOut + e.toNat
  let i := y.whIn + (-e).toNat
  let f := y.formPs + (if 3 ≤ st && st ≤ 6 then d.period else 0)
  let d := d.setLu u { y with whOut := o % wh, whIn := i % wh, formPs := f % wh }
  let d := if o / wh == 0 then d else d.wr 0x3050 1 u (d.rn 0x3050 1 u + o / wh : Nat)
  let d := if i / wh == 0 then d else d.wr 0x3050 2 u (d.rn 0x3050 2 u + i / wh : Nat)
  if f / wh == 0 then d else d.add 0x3050 3 u (f / wh)

/-- LINE_LAW_COMPLETE (R307): the law in service on its lane ends. -/
def lineDoneAt (b : Blade) (u : Nat) (bad : Bool) (d : Dev) : Dev :=
  if d.md.fieldReset then d
  else
    let d := d.lineWake
    let x := d.lineLaw b u
    match x.jobs with
    | [] => d
    | j :: rest =>
      if !d.evaluates b || Tab.find (d.bl b).lanes (28 + u % 4) != some (.unit u) then d
      else
        let app := x.ang2
        let r := lineEval x (d.lineParam u) j
        let y := { r.1 with jobs := rest }
        let d := (d.setLineLaw b u y).modBl b fun z => { z with lanes := Tab.del z.lanes (28 + u % 4) }
        let d := d.noteCompletion j.cycle
        let d :=
          if d.active == some b then
            let d := (((d.wf 0x3040 3 u y.w.val).wf 0x3040 4 u y.e.val).wf 0x3040 5 u y.pf.val).wf 0x3040 6 u y.qf.val
            let d := (d.wf 0x3040 7 u y.ifl.val).wf 0x3040 8 u y.x.val
            ((d.lineConds u j y r.2 app).lineLife u y.pf j.st)
          else d
        (d.handOut b (.unit u) j.cycle y.out bad).lineDispatch b

/-! ### Unit states (R311 to R323) -/

/-- Trip causes that hold for a unit in a state (the table of trip causes). -/
def Dev.tripCauses (d : Dev) (u st : Nat) : List Nat :=
  let x := d.lu u
  let bad (p : Nat × ConvIn) : Bool := bit p.2.status 4 || (p.1 == 0 && bit p.2.status 3)
  (if (st == 3 || st == 4) && x.breakerLate then [1] else []) ++
  (if ((d.convs u).any fun c => bad (c.1, Tab.get x.conv c.1 {})) then [2] else []) ++
  (if st == 6 && x.rideLong then [3] else []) ++
  (if d.rn 0x3020 17 u ≤ d.rn 0x3040 12 u then [4] else []) ++
  (if d.unitFits u then [] else [5]) ++
  (if (st == 2 || st == 4 || st == 7) && !d.pccValid (d.luPcc u) then [6] else [])

/-- A unit changes state at a boundary; what begins and ends with it. -/
def Dev.luGo (d : Dev) (u st : Nat) : Dev :=
  let old := d.luState u
  let d := d.wr 0x3040 1 u st
  let d := if old == 1 || old == 7 then
      (d.modLaws u fun x => { x with vse := Bf.zero, e := Bf.zero, xr := Bf.zero }).wr 0x3040 2 u 0 else d
  let d := if old == 6 then d.wr 0x3040 15 u ((d.now - (d.lu u).rideAt) / ms : Nat) else d
  let d := d.modLu u fun x => { x with
    dist := 0, conf := 0, deadAt := none, deadDue := false, syncAt := none, recAt := none, recDue := false
    rideLong := false, breakerLate := false, closeAt := none
    closing := x.closing && st == 5 }
  if st == 3 then
    (d.modLaws u fun x => { x with vse := Bf.zero }).modLu u fun x => { x with closeAt := some d.now, bsSeen := false }
  else if st == 6 then
    ((d.modLu u fun x => { x with rideAt := d.now }).inc 0x3040 14 u).inc 0x3050 4 u
  else d

/-- A trip (R322). -/
def Dev.lineTrip (d : Dev) (u c : Nat) : Dev :=
  ((d.luGo u 7).wr 0x3040 2 u c).raise 0xA2 (leBytes u 1 ++ leBytes c 1)

/-- Synchronise-and-share (R314). -/
def Dev.lineShare (d : Dev) (u : Nat) : Dev :=
  let p := d.pcc (d.luPcc u)
  let w := bfOf (p.f.by (bfOf (fdiv (Dy.ofInt 1) (d.rf 0x3000 6 u))))
  ((d.luGo u 5).modLaws u fun x => { x with theta := p.theta, w := w, wf := w, vse := p.v, e := p.v }).raise 0xA4 (leBytes u 1)

/-- True when EMF set-point of a unit has reached VSet on the active blade. -/
def Dev.vseReached (d : Dev) (u : Nat) : Bool :=
  match d.active with
  | some b => (bfOf (d.rf 0x3030 3 u)).val.le (d.lineLaw b u).vse.val
  | none => false

/-- The transition of one unit at a boundary (R311): the first row that applies. -/
def Dev.lineStep (d : Dev) (u : Nat) (clears toRun : Bool) : Dev :=
  if !d.rb 0x3000 1 u then (if d.luState u == 0 then d else (d.wr 0x3040 1 u 0).setLu u {})
  else
    let d := if d.luState u == 0 then (d.wr 0x3040 1 u 1).lineFirst u else d
    let st := d.luState u
    let x := d.lu u
    let d := d.setLu u { x with cmd := none }
    let live := 2 ≤ st && st ≤ 6
    let cs := d.tripCauses u st
    let v := (d.pcc (d.luPcc u)).v.val
    let lvl := d.rf 0x3020 4 u
    let other (o : Nat) : Bool := o != u && d.rb 0x3000 1 o && d.luPcc o == d.luPcc u &&
      ((3 ≤ d.luState o && d.luState o ≤ 6) || (d.luState o == 2 && o < u))
    let d := if st == 7 then
        d.each (cs.filter fun c => !x.causes.contains c) fun d c => d.raise 0xA2 (leBytes u 1 ++ leBytes c 1) else d
    let d := d.modLu u fun x => { x with causes := cs }
    match live, cs with
    | true, c :: _ => d.lineTrip u c
    | _, _ =>
      if live && (x.cmd == some 2 || clears) then d.luGo u 1
      else if st == 1 && (x.cmd == some 1 || (d.rn 0x3000 3 u == 1 && toRun)) then d.luGo u 2
      else if st == 2 && lvl.le v then d.luGo u 4
      else if st == 2 && x.deadDue && !(List.range 8).any other then d.luGo u 3
      else if st == 3 && 3 ≤ x.conf then (if d.pccValid (d.luPcc u) then d.lineShare u else d.lineTrip u 6)
      else if st == 3 && d.rb 0x3040 10 u && d.vseReached u then d.luGo u 5
      else if st == 4 && v.lt lvl then d.luGo u 2
      else if st == 4 && x.closing && d.rb 0x3040 10 u then (d.luGo u 5).raise 0xA5 (leBytes u 1)
      else if st == 5 && 2 ≤ x.dist then d.luGo u 6
      else if st == 6 && x.recDue then d.luGo u 5
      else if st == 7 && x.cmd == some 3 then d.luGo u 1
      else d

/-- One or more units are in Riding (R319). -/
def Dev.riding (d : Dev) : Bool := (List.range 8).any fun u => d.luState u == 6

/-- The line units at a boundary; `enable` the Enable bit now (R160). -/
def Dev.lineBoundary (d : Dev) (enable : Bool) : Dev :=
  let clears := d.line.enableWas && !enable
  let toRun := d.mode == 3 && d.line.modeWas != 3
  let before := d.line.riding
  let d := d.each (List.range 8) fun d u => d.lineStep u clears toRun
  let after := d.riding
  let d := { d with line := { d.line with enableWas := enable, modeWas := d.mode, riding := after } }
  if after && !before then d.raise 0xA0 [] else if before && !after then d.raise 0xA1 [] else d

/-- Judgement of a write to 3030h:5 (R312): its status. -/
def lineCmdCheck (d : Dev) (u v : Nat) : Nat :=
  let st := d.luState u
  if v == 1 then (if d.mode == 3 && st == 1 then 0 else 5)
  else if v == 2 then (if 2 ≤ st && st ≤ 6 then 0 else 5)
  else if v == 3 then (if st == 7 && !(d.tripCauses u 7).contains (d.rn 0x3040 2 u) then 0 else 5)
  else 6

/-- The units at the cut-off of cycle `k` (R321): a law of the active blade that missed it. -/
def Dev.lineMiss (d : Dev) (b : Blade) (u k : Nat) (exempt : Bool) : Dev :=
  let x := d.lineLaw b u
  if x.done == some k then d.wr 0x3040 12 u 0
  else if exempt || x.first || !(x.jobs.any fun j => j.cycle == k) then d
  else ((d.inc 0x3040 11 u).wr 0x3040 12 u (min 255 (d.rn 0x3040 12 u + 1) : Nat)).raiseLim 0xA7 u (leBytes u 1)

/-! ### Timers -/

/-- DEAD_BUS_TIMER (R311). -/
def deadBusAt (u : Nat) (d : Dev) : Dev :=
  match (d.lu u).deadAt with
  | some t => if d.md.fieldReset || d.luState u != 2 || d.now < t + 100 * ms then d
    else d.modLu u fun x => { x with deadDue := true }
  | none => d

/-- SYNC_CLOSE_TIMER (R315). -/
def syncCloseAt (u : Nat) (d : Dev) : Dev :=
  match (d.lu u).syncAt with
  | some t => if d.md.fieldReset || d.luState u != 4 || (d.lu u).closing || d.now < t + 100 * ms then d
    else d.modLu u fun x => { x with closing := true, closeAt := some d.now }
  | none => d

/-- BREAKER_TIMEOUT (R313, R315). -/
def breakerAt (u : Nat) (d : Dev) : Dev :=
  match (d.lu u).closeAt with
  | some t =>
    if d.md.fieldReset || (d.luState u != 3 && d.luState u != 4) || d.rb 0x3040 10 u || d.now < t + d.rn 0x3020 8 u * ms then d
    else d.modLu u fun x => { x with breakerLate := true }
  | none => d

/-- RIDE_RECOVER_TIMER (R318). -/
def rideRecoverAt (u : Nat) (d : Dev) : Dev :=
  match (d.lu u).recAt with
  | some t => if d.md.fieldReset || d.luState u != 6 || d.now < t + d.rn 0x3020 15 u * ms then d
    else d.modLu u fun x => { x with recDue := true }
  | none => d

/-- MAX_RIDE_TIME_EXPIRY (R318). -/
def maxRideAt (u : Nat) (d : Dev) : Dev :=
  if d.md.fieldReset || d.luState u != 6 || d.now < (d.lu u).rideAt + d.rn 0x3020 16 u * ms then d
  else d.modLu u fun x => { x with rideLong := true }

/-! ### Commands -/

/-- LINE_LAW_COMPLETE. -/
def execLineLawComplete (t : Nat) (blade : Blade) (unit : Nat) (copyBad : Bool) : State → Host.Outcome State Fault Refusal :=
  onDev t (lineDoneAt blade unit copyBad)
/-- DEAD_BUS_TIMER. -/
def execDeadBusTimer (t : Nat) (unit : Nat) : State → Host.Outcome State Fault Refusal := onDev t (deadBusAt unit)
/-- SYNC_CLOSE_TIMER. -/
def execSyncCloseTimer (t : Nat) (unit : Nat) : State → Host.Outcome State Fault Refusal := onDev t (syncCloseAt unit)
/-- BREAKER_TIMEOUT. -/
def execBreakerTimeout (t : Nat) (unit : Nat) : State → Host.Outcome State Fault Refusal := onDev t (breakerAt unit)
/-- RIDE_RECOVER_TIMER. -/
def execRideRecoverTimer (t : Nat) (unit : Nat) : State → Host.Outcome State Fault Refusal := onDev t (rideRecoverAt unit)
/-- MAX_RIDE_TIME_EXPIRY. -/
def execMaxRideTimeExpiry (t : Nat) (unit : Nat) : State → Host.Outcome State Fault Refusal := onDev t (maxRideAt unit)
/-- SIGMA_DELTA_STUCK. -/
def execSigmaDeltaStuck (t : Nat) (input : Nat) : State → Host.Outcome State Fault Refusal := onDev t (sdStuckAt input)
/-- SIGMA_DELTA_RECOVERY. -/
def execSigmaDeltaRecovery (t : Nat) (input : Nat) : State → Host.Outcome State Fault Refusal := onDev t (sdRecoverAt input)

end Sys2Proof.Machine
end

