-- ==== Sys2Proof/Machine/Glide.lean ====
section
/-! DEFINITION. Glide (R329 to R342): the coordinator of each cycle in binary64, group states, exhaustion. -/

namespace Sys2Proof.Machine

/-- Group `g`. -/
def Dev.gg (d : Dev) (g : Nat) : GlideSt := Tab.get d.line.groups g {}
/-- Changes it. -/
def Dev.modGg (d : Dev) (g : Nat) (f : GlideSt → GlideSt) : Dev :=
  { d with line.groups := Tab.put d.line.groups g (f (d.gg g)) }
/-- State of a group (3110h:1). -/
def Dev.ggState (d : Dev) (g : Nat) : Nat := d.rn (0x3110 + g) 1 0
/-- A group is enabled. -/
def Dev.ggOn (d : Dev) (g : Nat) : Bool := d.rb (0x3100 + g) 1 0
/-- The line unit of a group. -/
def Dev.ggUnit (d : Dev) (g : Nat) : Nat := d.rn (0x3100 + g) 2 0
/-- The groups. -/
def ggs : List Nat := List.range 8
/-- The members of a group: enabled axes (R329). -/
def Dev.members (d : Dev) (g : Nat) : List Nat := d.enabledAxes.filter fun a => d.rn 0x3120 1 a == g
/-- The enabled groups of a unit. -/
def Dev.unitGroups (d : Dev) (u : Nat) : List Nat := ggs.filter fun g => d.ggOn g && d.ggUnit g == u

/-- The period in seconds. -/
def Dev.secP (d : Dev) : Dy := fratio d.period 1000000000

/-- E0 of a group (R333). -/
def Dev.ggE0 (d : Dev) (g : Nat) : Dy :=
  (d.members g).foldl (fun s a =>
    let w := fmul (d.rf 0x3120 3 a) (d.apf a).v
    fadd s (fmul (fmul ⟨1, -1⟩ (d.rf 0x3120 2 a)) (fmul w w))) Dy.zero

/-- avail of a group (R333). -/
def Dev.ggAvail (d : Dev) (g : Nat) : Dy :=
  let l := (d.gg g).lam
  let f := d.rf (0x3100 + g) 3 0
  fmul (d.ggE0 g) (Dy.zero.max (fsub (fmul l l) (fmul f f)))

/-- rmax of a group; `none` is infinite (R333). -/
def Dev.ggRmax (d : Dev) (g : Nat) : Option Dy :=
  (d.members g).foldl (fun (m : Option Dy) a =>
    let v := (d.apf a).v
    if v.isZero then m
    else
      let r := fdiv (d.rf 0x3120 4 a) v.abs
      some (match m with
        | some x => x.min r
        | none => r)) none

/-- The deficit regulator of a unit (R333): xi, and the power asked for in W. -/
def Dev.glideReg (d : Dev) (u : Nat) : Dy × Dy :=
  let x := d.lu u
  let err := fsub (d.rf 0x3060 1 u) x.vdc
  if (d.unitGroups u).any fun g => d.ggState g == 2 || d.ggState g == 3 then
    let xi := Dy.zero.max (fadd x.xi (fmul (fmul (fmul (d.rf 0x3060 3 u) (d.rf 0x3060 2 u)) err) d.secP))
    (xi, fmul (Dy.zero.max (fadd (fmul (d.rf 0x3060 2 u) err) xi)) (d.rf 0x3000 4 u))
  else (Dy.zero, Dy.zero)

/-- RatioError of a group (R341). -/
def Dev.ratioErr (d : Dev) (g : Nat) : Dy :=
  let ss := (d.members g).filterMap fun a =>
    let i := d.rn 0x3120 5 a
    let sp := (Tab.get d.eng.setps a {}).vel
    if i == 0xFF || sp.m == 0 then none
    else some (fsub (fdiv ((Tab.get d.eng.held a ([], [])).1.getD i Bf.zero).val sp.val) (Dy.ofInt 1))
  match ss with
  | [] => Dy.zero
  | s :: r => fsub (r.foldl Dy.max s) (r.foldl Dy.min s)

/-- One group's computation for the next cycle; `preq` the unit's demand, `tot` the energy available in its gliding
groups (R333, R340, R341). -/
def Dev.glideGroup (d : Dev) (g : Nat) (preq tot : Dy) : Dev :=
  let x := d.gg g
  let st := d.ggState g
  let u := d.ggUnit g
  let e0 := d.ggE0 g
  let avail := d.ggAvail g
  let floor := d.rf (0x3100 + g) 3 0
  let twole := fmul (fmul (Dy.ofInt 2) x.lam) e0
  let pg := if st != 2 || tot.isZero then Dy.zero else fdiv (fmul preq avail) tot
  let up := st == 4 && (fsub (d.rf 0x3060 1 u) (fratio 1 20)).le (d.lu u).vdc && !e0.isZero
  let lim (r : Dy) (neg : Bool) : Dy := match d.ggRmax g with
    | some m => if neg then r.max m.neg else r.min m
    | none => r
  let rate :=
    if st == 2 && !e0.isZero then lim (fdiv pg.neg twole) true
    else if up then lim (fdiv (fmul (d.rf 0x3060 4 u) (d.rf 0x3000 4 u)) twole) false
    else Dy.zero
  let l := fadd x.lam (fmul rate d.secP)
  let lam := if st == 2 then floor.max l else if st == 4 then (Dy.ofInt 1).min l else x.lam
  let p := if st == 2 then pg else if st == 4 then (fmul rate twole).neg else Dy.zero
  let err := d.ratioErr g
  let d := d.modGg g fun x => { x with
    lam := lam, lamDot := rate, tau := fadd x.tau (fmul lam d.secP)
    lent := fadd x.lent (fmul p d.secP), lowest := x.lowest.min lam }
  let o := 0x3110 + g
  let d := ((d.wf o 3 0 lam).wf o 4 0 (fmul (fmul x.lam x.lam) e0)).wf o 5 0 avail
  let d := (d.wf o 6 0 p).wf o 7 0 err
  let d := if (d.rf o 8 0).lt err then d.wf o 8 0 err else d
  if st != 1 && (d.rf (0x3100 + g) 4 0).lt err then d.raiseLim 0xAC g (leBytes g 1) else d

/-- True while the exhaustion conditions hold for a unit (R339). -/
def Dev.exhausting (d : Dev) (u : Nat) : Bool :=
  let gs := d.unitGroups u
  (gs.all fun g => d.ggState g == 3 || d.ggState g == 5) && (gs.any fun g => d.ggState g == 3) &&
    (d.lu u).vdc.lt (fsub (d.rf 0x3060 1 u) (fratio 1 20))

/-- The coordinator: lambda and tau for the set-points of the next cycle (R333). -/
def Dev.glideCompute (d : Dev) : Dev :=
  let on := ggs.filter d.ggOn
  d.each (List.range 8) fun d u =>
    let gs := on.filter fun g => d.ggUnit g == u && d.ggState g != 0
    if gs.isEmpty then d
    else
      let r := d.glideReg u
      let tot := (gs.filter fun g => d.ggState g == 2).foldl (fun s g => fadd s (d.ggAvail g)) Dy.zero
      let d := d.modLu u fun x => { x with xi := r.1 }
      let d := d.each gs fun d g => d.glideGroup g r.2 tot
      let ok := d.exhausting u
      d.modLu u fun x => { x with exhAt := since x.exhAt ok d.now, exhausted := x.exhausted && ok }

/-- A group enters a state. -/
def Dev.ggGo (d : Dev) (g st : Nat) : Dev :=
  let o := 0x3110 + g
  let old := d.ggState g
  let d := if old == 1 && st != 1 then (d.modGg g fun x => { x with lent := Dy.zero, lowest := x.lam }).wr o 8 0 0 else d
  let d := if st == 2 then d.inc o 9 0 else d
  let d := if (st == 1 || st == 5) && 2 ≤ old && old ≤ 4 then (d.wf o 10 0 (d.gg g).lowest).wf o 11 0 (d.gg g).lent else d
  d.wr o 1 0 st

/-- A group is put to lambda = 1 and device time, Armed (the table of Glide group transitions, first row). -/
def Dev.ggArm (d : Dev) (g : Nat) : Dev :=
  let d := d.ggGo g 1
  (d.modGg g fun x => { x with lam := Dy.ofInt 1, lamDot := Dy.zero, tau := fratio d.prof.tau 1000000000 }).wf (0x3110 + g) 3 0 (Dy.ofInt 1)

/-- The device enters Prepare. -/
def Dev.glidePrepare (d : Dev) : Dev := d.each (ggs.filter d.ggOn) Dev.ggArm

/-- The transition of one group at a boundary (R335); `sh`: the device enters Safe-hold at this boundary. -/
def Dev.glideStep (d : Dev) (g : Nat) (sh : Bool) : Dev :=
  let st := d.ggState g
  if !d.ggOn g then (if st == 0 then d else d.wr (0x3110 + g) 1 0 0)
  else if st == 0 then d.ggArm g
  else
    let x := d.gg g
    let d := d.modGg g fun x => { x with cmd := none }
    let u := d.ggUnit g
    let us := d.luState u
    let enter := us == 6 && (d.lu u).rideAt == d.now
    let bad := (d.members g).any fun a => d.axState a == 3 && d.rn 0x2160 1 a != 0
    if 2 ≤ st && st ≤ 4 && (sh || x.cmd == some 2 || bad) then
      let (q, d) := d.freeNat
      (d.ggGo g 5).raise 0xAB (leBytes g 1 ++ leBytes q 1)
    else if (st == 1 && enter && (d.mode == 3 || d.mode == 4) && !d.md.stopping) || (st == 4 && (enter || us == 7)) then
      (d.ggGo g 2).raise 0xA8 (leBytes g 1 ++ leBytes u 1)
    else if st == 2 && x.lam.le (d.rf (0x3100 + g) 3 0) then (d.ggGo g 3).raise 0xAD (leBytes g 1)
    else if (st == 2 || st == 3) && us == 5 then d.ggGo g 4
    else if st == 4 && (Dy.ofInt 1).le x.lam then (d.ggGo g 1).raise 0xAA (leBytes g 1)
    else if st == 5 && x.cmd == some 1 then d.ggGo g 4
    else d

/-- The Glide groups at a boundary, after the line units. -/
def Dev.glideBoundary (d : Dev) (sh : Bool) : Dev := d.each ggs fun d g => d.glideStep g sh

/-- Ride-through may end (R338). -/
def Dev.rideOver (d : Dev) : Bool :=
  !d.riding && (ggs.all fun g => !d.ggOn g || d.ggState g == 1 || d.ggState g == 5)

/-- Judgement of a write to 3110h:2 (R337): its status. -/
def glideCmdCheck (d : Dev) (g v : Nat) : Nat :=
  let st := d.ggState g
  if v == 1 then (if st == 5 && d.mode == 3 && d.luState (d.ggUnit g) == 5 then 0 else 5)
  else if v == 2 then (if 2 ≤ st && st ≤ 4 then 0 else 5)
  else 6

/-- GLIDE_EXHAUST_TIMER (R339). -/
def glideExhaustAt (u : Nat) (d : Dev) : Dev :=
  match (d.lu u).exhAt with
  | some t =>
    if d.md.fieldReset || (d.lu u).exhausted || !d.exhausting u || d.now < t + d.rn 0x3060 5 u * ms then d
    else ((d.modLu u fun x => { x with exhausted := true }).raise 0xA9 (leBytes u 1)).safeHold 0xA9
  | none => d

/-- GLIDE_EXHAUST_TIMER. -/
def execGlideExhaustTimer (t : Nat) (unit : Nat) : State → Host.Outcome State Fault Refusal := onDev t (glideExhaustAt unit)

end Sys2Proof.Machine
end

