-- ==== Sys2Proof/Machine/Motion.lean ====
section
/-! DEFINITION. Plans of constant-jerk phases (R349, R353, R354, R356), each operation in binary64. -/

namespace Sys2Proof.Machine

/-- A plan: durations in seconds with the jerk in each. -/
abbrev Phases := List (Dy × Dy)

/-- A state on a plan: distance from its start, velocity, acceleration. -/
structure Pva where
  x : Dy := ⟨0, 0⟩
  v : Dy := ⟨0, 0⟩
  a : Dy := ⟨0, 0⟩
deriving DecidableEq, Repr

/-- One half. -/
def half : Dy := ⟨1, -1⟩
/-- Zero where negative. -/
def Dy.pos (x : Dy) : Dy := if x.isNeg then Dy.zero else x
/-- `s` times `x` for a sign. -/
def Dy.sg (neg : Bool) (x : Dy) : Dy := if neg then x.neg else x
/-- The square. -/
def fsq (x : Dy) : Dy := fmul x x

/-- The state after time `h` under jerk `j`. -/
def Pva.move (s : Pva) (h j : Dy) : Pva :=
  let hj := fmul h j
  { x := fadd s.x (fmul h (fadd s.v (fmul h (fadd (fmul half s.a) (fdiv hj (Dy.ofInt 6))))))
    v := fadd s.v (fmul h (fadd s.a (fmul half hj)))
    a := fadd s.a hj }

/-- The state at time `t` of a plan; the second component: time past its end, `none` before it. -/
def runPlan : Phases → Dy → Pva → Pva × Option Dy
  | [], t, s => (s, some t)
  | (h, j) :: r, t, s => if t.lt h then (s.move t j, none) else runPlan r (fsub t h) (s.move h j)

/-- The state at the end of a plan. -/
def endPlan (ph : Phases) (s : Pva) : Pva := ph.foldl (fun s p => s.move p.1 p.2) s

/-- Change of velocity while the acceleration goes from `a` to `b` at jerk `j` or `-j`. -/
def dvOf (a b j : Dy) : Dy := Dy.sg (b.lt a) (fdiv (fsub (fsq b) (fsq a)) (fmul (Dy.ofInt 2) j))

/-- Phases in direction +1 from velocity `v0`, acceleration `a0` to `v1`, `a1`, the acceleration peak at most `lim`. -/
def rampUp (v0 a0 v1 a1 lim j : Dy) : Phases :=
  let dv := fsub v1 v0
  let ap := if lim.lt a0 then lim
    else lim.min (fsqrt (Dy.pos (fadd (fmul j dv) (fmul half (fadd (fsq a0) (fsq a1))))))
  let up := a0.le ap
  let t2 := if ap.isZero then Dy.zero else fdiv (fsub (fsub dv (dvOf a0 ap j)) (dvOf ap a1 j)) ap
  [(fdiv (fsub ap a0).abs j, Dy.sg (!up) j), (Dy.pos t2, Dy.zero), (Dy.pos (fdiv (fsub ap a1) j), j.neg)]

/-- Phases in direction +1 to `v1` through standstill, slowing under `dec` and then speeding up under `acc`. -/
def rampThrough (v0 a0 v1 acc dec j : Dy) : Phases :=
  let twoj := fmul (Dy.ofInt 2) j
  if dec.le acc then
    let az := dec.min (fsqrt (Dy.pos (fsub (fsq a0) (fmul twoj v0))))
    let hold := if az.isZero then Dy.zero else fdiv (fsub v0.neg (dvOf a0 az j)) az
    if v1.lt (fdiv (fsq az) twoj) || hold.isNeg && dec.lt a0 then rampUp v0 a0 v1 Dy.zero dec j
    else
      [(fdiv (fsub az a0).abs j, Dy.sg (az.lt a0) j), (Dy.pos hold, Dy.zero)] ++ rampUp Dy.zero az v1 Dy.zero acc j
  else
    let need := dvOf a0 acc j
    if v1.le (fdiv (fsq acc) twoj) then rampUp v0 a0 v1 Dy.zero dec j
    else if v0.neg.lt need then rampUp v0 a0 v1 Dy.zero acc j
    else rampUp v0 a0 Dy.zero acc dec j ++ rampUp Dy.zero acc v1 Dy.zero acc j

/-- The velocity reached when the acceleration is taken to zero at once. -/
def coastV (v a j : Dy) : Dy := fadd v (fdiv (fmul a a.abs) (fmul (Dy.ofInt 2) j))

/-- The shortest ramp from velocity `v0`, acceleration `a0` to velocity `v1`, speeding up within `acc` and slowing down
within `dec` (R349, R353, R356). -/
def rampTo (v0 a0 v1 acc dec j : Dy) : Phases :=
  let vz := coastV v0 a0 j
  let neg := v1.lt vz
  let w0 := Dy.sg neg v0
  let b0 := Dy.sg neg a0
  let w1 := Dy.sg neg v1
  let ph :=
    if (Dy.sg neg vz).isNeg && Dy.zero.lt w1 then rampThrough w0 b0 w1 acc dec j
    else rampUp w0 b0 w1 Dy.zero (if Dy.zero.lt w1 then acc else dec) j
  ph.map fun p => (p.1, Dy.sg neg p.2)

/-- Distance of a plan from velocity `v0` and acceleration `a0`. -/
def planDist (ph : Phases) (v0 a0 : Dy) : Dy := (endPlan ph { v := v0, a := a0 }).x

/-- Bisection, `n` steps: the greatest argument found at which `ok` holds, between `lo`, where it does, and `hi`. -/
def bisect (ok : Dy → Bool) : Nat → Dy → Dy → Dy
  | 0, lo, _ => lo
  | n + 1, lo, hi =>
    let m := fmul half (fadd lo hi)
    if ok m then bisect ok n m hi else bisect ok n lo m

/-- A plan in direction +1 over a distance `dist` not below that of the direct ramp (R353). -/
def planAhead (v0 a0 dist ve vel acc dec j : Dy) : Phases :=
  let viaPeak (vp : Dy) : Phases := rampTo v0 a0 vp acc dec j ++ rampTo vp Dy.zero ve acc dec j
  let dOf (ph : Phases) : Dy := planDist ph v0 a0
  let top := dOf (viaPeak vel)
  let vz := coastV v0 a0 j
  if top.le dist then
    rampTo v0 a0 vel acc dec j ++
      [(if vel.isZero then Dy.zero else fdiv (fsub dist top) vel, Dy.zero)] ++ rampTo vel Dy.zero ve acc dec j
  else if vel.lt vz then viaPeak (bisect (fun vp => (dOf (viaPeak vp)).le dist) 64 ve vel)
  else if a0.isNeg && ve.lt vz && dist.lt (dOf (viaPeak vz)) then
    let viaAcc (a1 : Dy) : Phases :=
      let h := fdiv (fsub a1 a0) j
      let s : Pva := { v := v0, a := a0 }
      (h, j) :: rampTo (s.move h j).v a1 ve acc dec j
    viaAcc (bisect (fun a1 => (dOf (viaAcc a1)).le dist) 64 a0 Dy.zero)
  else viaPeak (bisect (fun vp => (dOf (viaPeak vp)).le dist) 64 (vz.max ve) vel)

/-- The plan of a move over `dist` with end velocity `ve` (R353). -/
def planMove (v0 a0 dist ve vel acc dec j : Dy) : Phases :=
  let direct := rampTo v0 a0 ve acc dec j
  let d0 := planDist direct v0 a0
  if d0.eqv dist then direct
  else
    let neg := dist.lt d0
    (planAhead (Dy.sg neg v0) (Dy.sg neg a0) (Dy.sg neg dist) (Dy.sg neg ve) vel acc dec j).map fun p =>
      (p.1, Dy.sg neg p.2)

/-- The end velocity of a blended move (R354): `dist` its travel, `next` that of the move after it, both of one sign. -/
def blendVel (v0 a0 dist : Dy) (m : Move) (next : Dy) (n : Move) : Dy :=
  let neg := dist.isNeg
  let v0 := Dy.sg neg v0
  let a0 := Dy.sg neg a0
  let stops (ve : Dy) : Bool :=
    (planDist (rampTo ve Dy.zero Dy.zero n.acc n.dec n.jerk) ve Dy.zero).le next.abs
  let reaches (ve : Dy) : Bool := (planDist (rampTo v0 a0 ve m.acc m.dec m.jerk) v0 a0).le dist.abs
  let top := m.vel.min n.vel
  let ve := if stops top then top else bisect stops 64 Dy.zero top
  let ve :=
    if reaches ve then ve
    else
      let lo := Dy.pos (coastV v0 a0 m.jerk)
      if lo.lt ve && reaches lo then bisect reaches 64 lo ve else Dy.zero
  Dy.sg neg ve

end Sys2Proof.Machine
end

