-- ==== Sys2Proof/Machine/Profile.lean ====
section
/-! DEFINITION. The profile unit (R343 to R374): set-points of every enabled axis at a cycle boundary, virtual masters,
moves and their queue, velocity, gears and cams, stop ramps, homing, and the run of a stepper. -/

namespace Sys2Proof.Machine

/-! ### Profile time (R331, R344) -/

/-- The enabled Glide group of an axis. -/
def Dev.groupTime (d : Dev) (a : Nat) : Option Nat :=
  let g := d.rn 0x3120 1 a
  if g < 8 && d.ggOn g then some g else none

/-- The time of a base: group time in s, device cycle time in ns for `none`. -/
def Dev.baseTime (d : Dev) : Option Nat → Dy
  | some g => (d.gg g).tau
  | none => Dy.ofInt d.prof.tau

/-- Time in seconds since `t0` on a base. -/
def Dev.baseSince (d : Dev) (b : Option Nat) (t0 : Dy) : Dy :=
  match b with
  | some _ => fsub (d.baseTime b) t0
  | none => fdiv ((d.baseTime b).sub t0) (Dy.ofInt 1000000000)

/-- The base of a motion of axis `a`. -/
def Dev.motBase (d : Dev) (a : Nat) (m : Motion) : Option Nat := if m.devTime then none else d.groupTime a

/-- Changes the profile slot of an axis. -/
def Dev.modApf (d : Dev) (a : Nat) (f : AxProf → AxProf) : Dev := d.setApf a (f (d.apf a))

/-- The profile state of an axis (2240h:1). -/
def Dev.pfState (d : Dev) (a : Nat) : Nat := d.rn 0x2240 1 a
/-- Sets it. -/
def Dev.setPf (d : Dev) (a st : Nat) : Dev := d.wr 0x2240 1 a st

/-- An axis is at standstill (R347). -/
def Dev.standstill (d : Dev) (a : Nat) : Bool := (d.apf a).v.isZero && (d.apf a).a.isZero

/-- Position, velocity and acceleration set-points, `scaled` as in the slot. -/
structure SetPt where
  p : Int := 0
  v : Dy := ⟨0, 0⟩
  a : Dy := ⟨0, 0⟩
  scaled : Bool := true
deriving DecidableEq, Repr

/-- Velocity and acceleration as sent to the law (R331). -/
def Dev.scaledVA (d : Dev) (a : Nat) (s : SetPt) : Dy × Dy :=
  match (if s.scaled then d.groupTime a else none) with
  | some g =>
    let x := d.gg g
    (fmul x.lam s.v, fadd (fmul (fmul x.lam x.lam) s.a) (fmul x.lamDot s.v))
  | none => (s.v, s.a)

/-- Torque feedforward (R343). -/
def Dev.feedTorque (d : Dev) (a : Nat) (v : Dy) : Dy :=
  let f := d.rf 0x2200 7 a
  fadd (d.rf 0x2200 6 a) (if v.isZero then Dy.zero else Dy.sg v.isNeg f)

/-- The set-points that the laws of the cycle read (R222, R331, R343). -/
def Dev.snapSetps (d : Dev) : Dev :=
  let s := d.enabledAxes.map fun a =>
    let x := d.apf a
    let va := d.scaledVA a { p := x.p, v := x.v, a := x.a, scaled := x.scaled }
    (a, ({ pos := x.p, vel := bfOf va.1, acc := bfOf va.2, tff := bfOf (d.feedTorque a va.1), aux := bfOf (d.rf 0x2030 1 a) } : Setp))
  { d with eng.setps := s }

/-! ### Virtual masters (R357) -/

/-- Virtual master `n`. -/
def Dev.vm (d : Dev) (n : Nat) : VMaster := Tab.get d.prof.masters n {}

/-- The Glide group of the slaves of virtual master `n`. -/
def Dev.vmBase (d : Dev) (n : Nat) : Option Nat :=
  d.enabledAxes.findSome? fun a =>
    let m := (d.apf a).mot
    if (m.kind == 3 || m.kind == 4) && m.mKind == 2 && m.master == n then d.groupTime a else none

/-- The state of a motion at `el` seconds: position, velocity, acceleration, and the time past its end. -/
def motAt (m : Motion) (el : Dy) : Int × Dy × Dy × Option Dy :=
  let r := runPlan m.phases el { v := m.v0, a := m.a0 }
  match r.2 with
  | none => (m.p0 + r.1.x.round, r.1.v, r.1.a, none)
  | some left =>
    let run := fmul m.vEnd left
    if m.kind == 1 then (m.target + run.round, m.vEnd, Dy.zero, some left)
    else (m.p0 + (fadd r.1.x run).round, m.vEnd, Dy.zero, some left)

/-- A virtual master at a boundary: held while Enable is clear or it is disabled; each change of TargetVelocity and of
its time base starts a new ramp. -/
def Dev.vmStep (d : Dev) (n : Nat) (enable : Bool) : Dev :=
  let x := d.vm n
  let base := d.vmBase n
  let bn := match base with
    | some g => g
    | none => 0xFF
  let old : Option Nat := if x.base == 0xFF then none else some x.base
  let cur := match x.mot with
    | some m => let r := motAt m (d.baseSince old m.t0); (r.1, r.2.1, r.2.2.1)
    | none => (x.p, Dy.zero, Dy.zero)
  let tv := d.rn 0x2400 2 n
  let y : VMaster :=
    if !enable || !d.rb 0x2400 1 n then { x with v := Dy.zero, a := Dy.zero, mot := none, tv := none, base := bn }
    else if x.tv == some tv && x.base == bn then { x with p := cur.1, v := cur.2.1, a := cur.2.2 }
    else
      let acc := d.rf 0x2400 3 n
      let ph := rampTo cur.2.1 cur.2.2 (f32Val tv) acc acc (d.rf 0x2400 4 n)
      let m : Motion := { kind := 2, p0 := cur.1, v0 := cur.2.1, a0 := cur.2.2, t0 := d.baseTime base, phases := ph, vEnd := f32Val tv }
      { x with p := cur.1, v := cur.2.1, a := cur.2.2, mot := some m, tv := some tv, base := bn }
  let d := { d with prof.masters := Tab.put d.prof.masters n y }
  (d.wr 0x2400 5 n y.p).wf 0x2400 6 n y.v

/-! ### Gears and cams (R358 to R362) -/

/-- The master of a gear or cam: position, velocity, acceleration (R358). -/
def Dev.masterAt (d : Dev) (m : Motion) : SetPt :=
  if m.mKind == 2 then
    let x := d.vm m.master
    { p := x.p, v := x.v, a := x.a }
  else
    let x := d.apf m.master
    if m.mKind == 0 then { p := x.p, v := x.v, a := x.a, scaled := x.scaled }
    else
      let p := x.ext.getD x.p
      let vel := if d.rn 0x2200 9 m.master == 0xFF then Dy.zero else x.fbVel
      { p := if m.extrap then p + (fmul vel (fratio d.period 1000000000)).round else p, v := vel, scaled := false }

/-- Point `j` of the unrolled cam table `t` (R362). -/
def Dev.camPoint (d : Dev) (t : Nat) (pts : Bytes) (n : Nat) (j : Int) : Int :=
  toSigned 32 (leAt pts (4 * (j % (n : Int)).toNat) 4) + j / (n : Int) * d.rd 0x2500 3 t

/-- The cam target and its derivatives (R362). -/
def Dev.camAt (d : Dev) (m : Motion) (s : SetPt) : SetPt :=
  let t := m.table
  let n := d.rn 0x2500 1 t
  let len := d.rn 0x2500 2 t
  let pts := d.rblob 0x2500 4 t
  let dm := s.p - m.mOff
  let k := dm / (len : Int)
  let x := dm % (len : Int)
  let h := fratio len n
  let w := fdiv (Dy.ofInt x) h
  let i := w.floor
  let f := fsub w (Dy.ofInt i)
  let y (o : Int) : Dy := Dy.ofInt (d.camPoint t pts n (i + o))
  let c := fmul half (fsub (y 1) (y (-1)))
  let e := fmul half (fsub (y 2) (y 0))
  let dy := fsub (y 1) (y 0)
  let two := Dy.ofInt 2
  let three := Dy.ofInt 3
  let b2 := fsub (fsub (fmul three dy) (fmul two c)) e
  let b3 := fsub (fadd c e) (fmul two dy)
  let slope := fdiv (fadd c (fmul f (fadd (fmul two b2) (fmul (fmul three f) b3)))) h
  let curv := fdiv (fadd (fmul two b2) (fmul (fmul (Dy.ofInt 6) f) b3)) (fsq h)
  { p := m.phase + k * d.rd 0x2500 3 t + d.camPoint t pts n i + (fmul f (fadd c (fmul f (fadd b2 (fmul f b3))))).round
    v := fmul slope s.v, a := fadd (fmul curv (fsq s.v)) (fmul slope s.a), scaled := s.scaled }

/-- The gear target and its derivatives (R358). -/
def gearTarget (m : Motion) (s : SetPt) : SetPt :=
  { p := m.s0 + (s.p - m.m0) * m.num / (m.den : Int)
    v := fdiv (fmul s.v (Dy.ofInt m.num)) (Dy.ofInt m.den)
    a := fdiv (fmul s.a (Dy.ofInt m.num)) (Dy.ofInt m.den), scaled := s.scaled }

/-- Set-points of a slave at `el` seconds from its engagement (R359); the second component: it is synchronised. -/
def Dev.slaveAt (d : Dev) (m : Motion) (el : Dy) : SetPt × Bool :=
  let s := d.masterAt m
  let g := if m.kind == 4 then d.camAt m s else gearTarget m s
  let tt := fratio m.syncMs 1000
  let u := fdiv el tt
  let one := Dy.ofInt 1
  if m.synced || one.le u then (g, true)
  else
    let u2 := fsq u
    let w := fsub (fmul (Dy.ofInt 3) u2) (fmul (fmul (Dy.ofInt 2) u2) u)
    let gap := fadd (Dy.ofInt (m.p0 - g.p)) (fmul m.v0 el)
    let w1 := fdiv (fmul (fmul (Dy.ofInt 6) u) (fsub one u)) tt
    let w2 := fdiv (fsub (Dy.ofInt 6) (fmul (Dy.ofInt 12) u)) (fsq tt)
    let r := fsub one w
    ({ p := g.p + (fmul r gap).round
       v := fsub (fadd (fmul w g.v) (fmul r m.v0)) (fmul w1 gap)
       a := fadd (fsub (fmul w g.a) (fmul w2 gap)) (fmul (fmul (Dy.ofInt 2) w1) (fsub g.v m.v0))
       scaled := g.scaled }, false)

/-- The masters that an axis waits for: of its motion, and of a gear or cam about to be engaged. -/
def Dev.mastersOf (d : Dev) (a : Nat) : List Nat :=
  let x := d.apf a
  let m := x.mot
  (if (m.kind == 3 || m.kind == 4) && m.mKind == 0 then [m.master] else []) ++
    (if (x.cmds.contains 3 || x.cmds.contains 4) && d.rn 0x2220 1 a == 0 then [d.rn 0x2220 2 a] else [])

/-- Depth of an axis in its chain of masters. -/
def masterDepth : Nat → Dev → Nat → Nat
  | 0, _, _ => 0
  | k + 1, d, a => (d.mastersOf a).foldl (fun x m => max x (masterDepth k d m + 1)) 0

/-- True when the chain of masters from `m` meets `a` or is longer than `k` further levels (R351). -/
def chainBad : Nat → Dev → Nat → Nat → Bool
  | 0, _, _, _ => true
  | k + 1, d, a, m =>
    if m == a then true
    else
      let x := (d.apf m).mot
      if (x.kind == 3 || x.kind == 4) && x.mKind != 2 then chainBad k d a x.master else false

/-! ### Moves (R353 to R355) -/

/-- A motion of axis `a` from its set-points at this boundary. -/
def Dev.motionFrom (d : Dev) (a : Nat) (c : SetPt) (kind : Nat) (ph : Phases) (vEnd : Dy) (target : Int) : Motion :=
  { kind := kind, p0 := c.p, v0 := c.v, a0 := c.a, t0 := d.baseTime (d.groupTime a), phases := ph, vEnd := vEnd, target := target }

/-- The next queued move enters service at this boundary (R353 to R355). -/
def Dev.nextMove (d : Dev) (a : Nat) (c : SetPt) : Dev :=
  let x := d.apf a
  match x.queue with
  | [] => d
  | m :: rest =>
    let travel := m.target - c.p
    let ve := match rest with
      | n :: _ =>
        let nt := n.target - m.target
        if m.blend && ((0 < travel && 0 < nt) || (travel < 0 && nt < 0)) then
          blendVel c.v c.a (Dy.ofInt travel) m (Dy.ofInt nt) n
        else Dy.zero
      | [] => Dy.zero
    let ph := planMove c.v c.a (Dy.ofInt travel) ve m.vel m.acc m.dec m.jerk
    let mot := { d.motionFrom a c 1 ph ve m.target with move := some m }
    (d.setApf a { x with queue := rest, mot := mot, scaled := true }).setPf a 2

/-! ### Stop ramps (R349) -/

/-- A stop ramp starts from the set-points at this boundary. -/
def Dev.startStop (d : Dev) (a : Nat) (c : SetPt) : Dev :=
  let va := d.scaledVA a c
  let dec := d.rf 0x2200 4 a
  let ph := rampTo va.1 va.2 Dy.zero dec dec (d.rf 0x2200 5 a)
  let m : Motion := { kind := 5, p0 := c.p, v0 := va.1, a0 := va.2, t0 := d.baseTime none, phases := ph, devTime := true }
  (d.modApf a fun x => { x with mot := m, queue := [], scaled := false }).setPf a 8

/-- A command is discarded (R352). -/
def Dev.discardCmd (d : Dev) (a : Nat) : Dev := d.inc 0x2240 8 a

/-! ### Homing (R363 to R367) -/

/-- A homing fails with a code (R367); its stop ramp is due. -/
def Dev.homeFailed (d : Dev) (a code : Nat) : Dev :=
  let d := d.modApf a fun x => { x with homing := none, homeFail := none, stopDue := true }
  (d.wr 0x2240 7 a code).raise 0xE9 (leBytes a 2 ++ leBytes code 1)

/-- A homing completes with its reference (R366). -/
def Dev.homeDone (d : Dev) (a : Nat) (ref off : Int) : Dev :=
  let d := d.modApf a fun x => { x with homing := none, homeFail := none, mot := {}, scaled := true }
  let was := d.rd 0x2240 6 a
  let kept := d.rn 0x5020 1 a == 1 && d.rn 0x5020 2 a == 0
  let d := (((d.wr 0x2240 6 a (wrapI64 (ref - off))).wr 0x2240 7 a 2).setPf a 1).raise 0xE8 (leBytes a 2)
  if kept then (if was == d.rd 0x2240 6 a then d else d.proofTouch a) else d.setProof a 1 0

/-- A switch of axis `a`, by descriptor, as in the last valid window. -/
def Dev.switchOn (d : Dev) (a desc : Nat) : Bool :=
  bit desc 15 && bit ((Tab.get d.eng.held a ([], [])).2.getD (bits desc 2 0) 0) (bits desc 7 3) != bit desc 8

/-- The index latch of a homing: its state or count, and the latched position by the running value (R364, R387). -/
def Dev.indexLatch (d : Dev) (a : Nat) (h : HomeSt) : Nat × Int :=
  let x := d.apf a
  let raws := (Tab.get d.eng.held a ([], [])).2
  let local_ := 0x10 ≤ h.indexField && h.indexField < 0x18
  let c := h.indexField - 0x10
  let id := if local_ then d.rn 0x2710 11 c else if d.switchOn a h.toggle then 1 else 0
  let raw := if local_ then ofSigned 32 (d.rd 0x2710 9 c) else raws.getD (h.indexField % 8) 0
  (id, x.ext.getD x.p + toSigned 32 (raw + 2 ^ 32 - x.raw % 2 ^ 32))

/-- A ramp of a homing to velocity `v` from its set-points. -/
def Dev.homeRamp (d : Dev) (a : Nat) (c : SetPt) (v : Dy) : Dev :=
  let h := d.rf 0x2230 4 a
  let h := match (d.apf a).homing with
    | some x => x.acc
    | none => h
  d.modApf a fun x => { x with mot := d.motionFrom a c 2 (rampTo c.v c.a v h h (d.rf 0x2200 3 a)) v 0, scaled := true }

/-- Changes the homing of an axis. -/
def Dev.modHome (d : Dev) (a : Nat) (f : HomeSt → HomeSt) : Dev :=
  d.modApf a fun x => { x with homing := x.homing.map f }

/-- The reference is found: the axis moves to its end (R365). -/
def Dev.homeEnd (d : Dev) (a : Nat) (c : SetPt) (h : HomeSt) (ref : Int) (away : Bool) : Dev :=
  let target := ref + (if away then -h.dir else h.dir) * (h.backOff : Int)
  let ph := planMove c.v c.a (Dy.ofInt (target - c.p)) Dy.zero h.creep h.acc h.acc (d.rf 0x2200 3 a)
  (d.modApf a fun x => { x with mot := d.motionFrom a c 1 ph Dy.zero target, scaled := true }).modHome a
    fun h => { h with step := 6, ref := some ref }

/-- Signed velocity in the direction of a homing. -/
def dirV (dir : Int) (v : Dy) : Dy := Dy.sg (dir < 0) v

/-- The steps of a homing at a boundary (R364, R365, R367). -/
def Dev.homeStep (d : Dev) (a : Nat) (c : SetPt) (h : HomeSt) : Dev :=
  let x := d.apf a
  let fb := x.ext.getD c.p
  let sw := if h.method == 5 then h.limNeg else if h.method == 6 then h.limPos else h.sw
  let on := d.switchOn a sw
  let lim := d.switchOn a (if h.dir < 0 then h.limNeg else h.limPos)
  let idx := d.indexLatch a h
  match x.homeFail with
  | some code => d.homeFailed a code
  | none =>
    if d.axState a == 3 then d.homeFailed a 0x14
    else if h.step ≤ 3 && h.limit < (c.p - h.startPos).natAbs then d.homeFailed a 0x11
    else if h.step == 4 && h.limit < (c.p - h.edgePos).natAbs then d.homeFailed a (if h.method == 7 || h.method == 8 then 0x11 else 0x12)
    else if h.step == 5 && h.ref.isNone && h.limit < (c.p - h.startPos).natAbs then d.homeFailed a 0x11
    else if h.step == 1 then
      if on then (d.homeRamp a c (dirV (-h.dir) h.creep)).modHome a fun h => { h with step := 2 }
      else if h.method ≤ 4 && lim then
        if h.reversed then d.homeFailed a 0x13
        else (d.homeRamp a c (dirV (-h.dir) h.search)).modHome a fun h => { h with dir := -h.dir, reversed := true }
      else d
    else if h.step == 2 then
      if !on && (dirV h.dir c.v).isNeg then
        if h.method ≤ 4 then (d.homeRamp a c (dirV h.dir h.creep)).modHome a fun h => { h with step := 3 }
        else d.modHome a fun h => { h with step := 4, dir := -h.dir, edgePos := c.p, toggleWas := some idx.1 }
      else d
    else if h.step == 3 then
      if !on then d
      else if h.method ≤ 2 then d.homeEnd a c h fb false
      else d.modHome a fun h => { h with step := 4, edgePos := c.p, toggleWas := some idx.1 }
    else if h.step == 4 then
      if h.toggleWas == some idx.1 then d else d.homeEnd a c h idx.2 false
    else if h.step == 5 then
      match h.ref with
      | some r => d.homeEnd a c h r true
      | none =>
        let lead := h.dir * (c.p - fb)
        d.modHome a fun h => { h with hardAt := since h.hardAt (decide ((h.hardErr : Int) ≤ lead)) d.now }
    else d

/-- A homing begins (R364 to R366). -/
def Dev.homeBegin (d : Dev) (a : Nat) (c : SetPt) : Dev :=
  let m := d.rn 0x2230 1 a
  let off := d.rd 0x2230 5 a
  let x := d.apf a
  if m == 11 then d.homeDone a (x.ext.getD c.p) off
  else if m == 12 then d.homeDone a 0 off
  else
    let pos := m % 2 == 1
    let pos := if m == 5 || m == 6 then !pos else pos
    let h : HomeSt := {
      method := m, search := d.rf 0x2230 2 a, creep := d.rf 0x2230 3 a, acc := d.rf 0x2230 4 a, offset := off
      backOff := d.rn 0x2230 6 a, sw := d.rn 0x2230 7 a, limNeg := d.rn 0x2230 8 a, limPos := d.rn 0x2230 9 a
      indexField := d.rn 0x2230 10 a, toggle := d.rn 0x2230 11 a, hardErr := d.rn 0x2230 12 a
      limit := d.rn 0x2230 13 a, timeMs := d.rn 0x2230 14 a, startedAt := d.now, startPos := c.p
      step := if m ≤ 6 then 1 else if m ≤ 8 then 4 else 5
      dir := if pos then 1 else -1, reversed := false, edgePos := c.p, hardAt := none, toggleWas := none, ref := none }
    let d := (d.setApf a { x with homing := some h, homeFail := none }).wr 0x2240 7 a 1
    let d := d.modHome a fun h => { h with toggleWas := some (d.indexLatch a h).1 }
    (d.homeRamp a c (dirV h.dir (if m ≤ 6 then h.search else h.creep))).setPf a 7

/-! ### Commands at their boundary (R351, R352, R355, R356, R359) -/

/-- A move is appended: its target from the members in force and the move before it (R353). -/
def Dev.appendMove (d : Dev) (a : Nat) (c : SetPt) : Dev :=
  let x := d.apf a
  let last := match x.queue.getLast? with
    | some m => some m.target
    | none => if x.mot.kind == 1 then some x.mot.target else none
  let t := d.rd 0x2210 1 a
  let m : Move := {
    target := if d.rb 0x2210 2 a then t + last.getD c.p else t + d.rd 0x2240 6 a
    vel := d.rf 0x2210 3 a, acc := d.rf 0x2210 4 a, dec := d.rf 0x2210 5 a, jerk := d.rf 0x2210 6 a
    blend := d.rb 0x2210 7 a }
  d.setApf a { x with queue := x.queue ++ [m] }

/-- Command 02h: a ramp to the signed Velocity (R356). -/
def Dev.runAt (d : Dev) (a : Nat) (c : SetPt) : Dev :=
  let v := d.rf 0x2210 3 a
  let ph := rampTo c.v c.a v (d.rf 0x2210 4 a) (d.rf 0x2210 5 a) (d.rf 0x2210 6 a)
  (d.modApf a fun x => { x with queue := [], mot := d.motionFrom a c 2 ph v 0, scaled := true }).setPf a 3

/-- Commands 03h and 04h: engagement (R358, R359). A cam always synchronises. -/
def Dev.engage (d : Dev) (a : Nat) (c : SetPt) (kind : Nat) : Dev :=
  let rel := d.rn 0x2220 5 a == 1 && kind == 3
  let m : Motion := { d.motionFrom a c kind [] Dy.zero 0 with
    mKind := d.rn 0x2220 1 a, master := d.rn 0x2220 2 a, num := d.rd 0x2220 3 a, den := d.rn 0x2220 4 a
    table := d.rn 0x2220 7 a, mOff := d.rd 0x2220 8 a, phase := d.rd 0x2220 6 a, syncMs := d.rn 0x2220 9 a
    extrap := d.rb 0x2220 10 a, synced := rel }
  let m := { m with m0 := if rel then (d.masterAt m).p else 0, s0 := if rel then c.p else m.phase }
  let d := d.modApf a fun x => { x with queue := [], mot := m, scaled := true }
  if rel then (d.setPf a 5).raise 0xEA (leBytes a 2) else d.setPf a 4

/-- Command 07h (R355). -/
def Dev.flushMoves (d : Dev) (a : Nat) (c : SetPt) : Dev :=
  let x := d.apf a
  let d := d.setApf a { x with queue := [] }
  match x.mot.move with
  | none => d
  | some m =>
    if x.mot.kind != 1 || x.mot.vEnd.isZero then d
    else
      let dist := x.mot.target - c.p
      let stop := rampTo c.v c.a Dy.zero m.acc m.dec m.jerk
      let far := planDist stop c.v c.a
      let past := if dist < 0 then far.lt (Dy.ofInt dist) else (Dy.ofInt dist).lt far
      let mot := if past then d.motionFrom a c 1 stop Dy.zero (c.p + far.round)
        else d.motionFrom a c 1 (planMove c.v c.a (Dy.ofInt dist) Dy.zero m.vel m.acc m.dec m.jerk) Dy.zero x.mot.target
      d.modApf a fun x => { x with mot := { mot with move := some m } }

/-- An accepted command acts (R351); one whose conditions no longer hold is discarded. -/
def Dev.actCmd (d : Dev) (a : Nat) (c : SetPt) (cmd : Nat) : Dev :=
  if !((d.mode == 3 || d.mode == 4) && d.axState a == 2) then d.discardCmd a
  else if cmd == 1 then d.appendMove a c
  else if cmd == 2 then d.runAt a c
  else if cmd == 3 then d.engage a c 3
  else if cmd == 4 then d.engage a c 4
  else if cmd == 5 then d.homeBegin a c
  else if cmd == 7 then d.flushMoves a c
  else d

/-! ### The boundary (R344, R346) -/

/-- The set-points that the motion of an axis gives at this boundary. -/
def Dev.motNow (d : Dev) (a : Nat) : SetPt :=
  let x := d.apf a
  let m := x.mot
  let el := d.baseSince (d.motBase a m) m.t0
  if m.kind == 0 then { p := x.p, scaled := x.scaled }
  else if m.kind == 3 || m.kind == 4 then (d.slaveAt m el).1
  else
    let r := motAt m el
    { p := r.1, v := r.2.1, a := r.2.2.1, scaled := x.scaled }

/-- The motion of an axis reaches its end at this boundary: a move hands over, a stop ramp and a homing end, a slave is
synchronised. -/
def Dev.motEnd (d : Dev) (a : Nat) (c : SetPt) : Dev :=
  let x := d.apf a
  let m := x.mot
  let el := d.baseSince (d.motBase a m) m.t0
  let ended := match (motAt m el).2.2.2 with
    | some _ => true
    | none => false
  if m.kind == 1 && ended then
    match x.homing with
    | some h => d.homeDone a (h.ref.getD 0) h.offset
    | none =>
      if x.queue.isEmpty then (d.setApf a { x with mot := {}, scaled := true }).setPf a 1 else d.nextMove a c
  else if m.kind == 5 && ended then (d.setApf a { x with mot := {}, scaled := true }).setPf a 1
  else if (m.kind == 3 || m.kind == 4) && !m.synced && (d.slaveAt m el).2 then
    ((d.setApf a { x with mot := { m with synced := true } }).setPf a (if m.kind == 3 then 5 else 6)).raise 0xEA (leBytes a 2)
  else d

/-- The set-points of an axis are set (2240h:2-5). -/
def Dev.showAxis (d : Dev) (a : Nat) (c : SetPt) : Dev :=
  let d := d.modApf a fun x => { x with p := wrapI64 c.p, v := c.v, a := c.a, scaled := c.scaled }
  let x := d.apf a
  let va := d.scaledVA a c
  let n := x.queue.length + (if x.mot.kind == 1 && x.homing.isNone then 1 else 0)
  (((d.wr 0x2240 2 a n).wr 0x2240 3 a x.p).wf 0x2240 4 a va.1).wf 0x2240 5 a va.2

/-- Enable is clear (R346): the set-points follow the feedback. -/
def Dev.followAxis (d : Dev) (a : Nat) : Dev :=
  let x := d.apf a
  let d := if x.homing.isSome then d.homeFailed a 0x14 else d
  let p := if d.rn 0x2200 8 a == 0xFF then x.p else x.ext.getD x.p
  let d := d.modApf a fun x => { x with mot := {}, queue := [], cmds := [], stopDue := false, homeFail := none }
  (d.setPf a 0).showAxis a { p := p }

/-- One axis at a boundary with Enable set. -/
def Dev.profileAxis (d : Dev) (a : Nat) : Dev :=
  let d := if d.pfState a == 0 then d.setPf a 1 else d
  let c := d.motNow a
  let d := d.modApf a fun x => { x with p := c.p }
  let d := match (d.apf a).homing with
    | some h => d.homeStep a c h
    | none => d
  let x := d.apf a
  let six := x.cmds.contains 6
  let d := d.setApf a { x with cmds := [], stopDue := false }
  let d :=
    if x.stopDue || six then
      let lost := if x.stopDue then x.cmds else x.cmds.filter (· != 6)
      let d := d.each lost fun d _ => d.discardCmd a
      let d := if (d.apf a).homing.isSome then d.homeFailed a 0x14 else d
      let d := d.modApf a fun x => { x with stopDue := false }
      if d.pfState a != 8 || !x.stopDue then d.startStop a c else d
    else
      let d := d.each x.cmds fun d cmd => d.actCmd a c cmd
      let d := if (d.apf a).mot.kind != 1 && (d.apf a).homing.isNone then d.nextMove a c else d
      d.motEnd a c
  d.showAxis a (d.motNow a)

/-- The profile unit at a boundary `dt` ns after the one before: every enabled axis, masters before their slaves. -/
def Dev.profileEval (d : Dev) (dt : Nat) (enable : Bool) : Dev :=
  let d := { d with prof.tau := d.prof.tau + dt }
  let d := d.each (List.range 16) fun d n => d.vmStep n enable
  let on := d.enabledAxes
  let gone := (d.prof.axes.map (·.1)).filter fun a => !on.contains a
  let d := d.each gone fun d a => { d with prof.axes := Tab.del d.prof.axes a }.setPf a 0
  let depth := on.map fun a => (a, masterDepth 9 d a)
  d.each (List.range 10) fun d l =>
    d.each (depth.filter fun p => p.2 == l) fun d p => if enable then d.profileAxis p.1 else d.followAxis p.1

/-- The latch generator starts (R357): cycle time from 0, every virtual master at position 0. -/
def Dev.profileStart (d : Dev) : Dev := { d with prof.tau := 0, prof.masters := [] }

/-- The device enters Prepare (R374): queues are discarded, gears and cams disengaged. -/
def Dev.profilePrepare (d : Dev) : Dev :=
  d.each d.enabledAxes fun d a =>
    let d := if (d.apf a).homing.isSome then d.homeFailed a 0x14 else d
    d.modApf a fun x => { x with mot := {}, queue := [], cmds := [], stopDue := false }

/-! ### Judging a command (R351) -/

/-- A value in (0, max]. -/
def inRange (x mx : Dy) : Bool := Dy.zero.lt x && x.le mx

/-- Conditions of order 6: the gear or cam cannot be engaged. -/
def Dev.gearBad (d : Dev) (a v : Nat) : Bool :=
  let kind := d.rn 0x2220 1 a
  let m := d.rn 0x2220 2 a
  let own := d.groupTime a
  let base :=
    if kind == 2 then
      16 ≤ m || !d.rb 0x2400 1 m || (d.enabledAxes.any fun b =>
        let x := (d.apf b).mot
        b != a && (x.kind == 3 || x.kind == 4) && x.mKind == 2 && x.master == m && d.groupTime b != own)
    else
      m == a || 511 < m || !d.rb 0x2000 1 m || (kind == 1 && d.rn 0x2200 8 m == 0xFF) || chainBad 8 d a m ||
        d.groupTime m != own
  base || (v == 4 && d.rn 0x2500 1 (d.rn 0x2220 7 a) == 0)

/-- Condition of order 8: the method needs a field or switch that is set to none. -/
def Dev.homeLacks (d : Dev) (a : Nat) : Bool :=
  let m := d.rn 0x2230 1 a
  let none_ (e : Nat) : Bool := !bit (d.rn 0x2230 e a) 15
  let idx := d.rn 0x2230 10 a
  d.rn 0x2200 8 a == 0xFF || (m ≤ 4 && none_ 7) ||
    (3 ≤ m && m ≤ 8 && (idx == 0xFF || (idx < 8 && none_ 11))) || (m == 5 && none_ 8) || (m == 6 && none_ 9)

/-- Judgement of a write to 2210h:8: its status (R351). -/
def Dev.profCheck (d : Dev) (a v : Nat) : Nat :=
  let x := d.apf a
  let st := d.pfState a
  let vel := d.rf 0x2210 3 a
  let mv := d.rf 0x2200 1 a
  if v < 1 || 7 < v then 6
  else if !(d.mode == 3 || d.mode == 4) || d.axState a != 2 then 5
  else if v != 6 && (st == 7 || st == 8) then 5
  else if v == 1 && 16 ≤ x.queue.length + (if x.mot.kind == 1 then 1 else 0) + (x.cmds.filter (· == 1)).length then 9
  else if (v == 1 && !inRange vel mv) || (v == 2 && mv.lt vel.abs) then 6
  else if (v == 1 || v == 2) && !(inRange (d.rf 0x2210 4 a) (d.rf 0x2200 2 a) && inRange (d.rf 0x2210 5 a) (d.rf 0x2200 2 a) &&
      inRange (d.rf 0x2210 6 a) (d.rf 0x2200 3 a)) then 6
  else if (v == 3 || v == 4) && d.gearBad a v then 6
  else if v == 5 && (!d.standstill a || !x.queue.isEmpty || x.mot.kind == 1) then 5
  else if v == 5 && d.homeLacks a then 6
  else 0

/-- An accepted command acts at the next boundary. -/
def Dev.profAccept (d : Dev) (a v : Nat) : Dev := d.modApf a fun x => { x with cmds := x.cmds ++ [v] }

/-! ### Feedback (R345) and steppers (R371, R372) -/

/-- The position feedback field of axis `a` in a decided window: the running value. `raw`: its number. -/
def Dev.extendFb (d : Dev) (a ff raw : Nat) : Dev :=
  let fmt := bits (d.rn 0x2020 (1 + ff) a) 11 8
  let w := if fmt == 1 || fmt == 2 then 16 else 32
  let val : Int :=
    if fmt == 1 || fmt == 3 then toSigned w raw
    else if fmt == 5 || fmt == 6 then (fieldValue fmt raw).1.round else (raw : Int)
  let n := ofSigned 32 val
  d.modApf a fun x =>
    let x := if x.ff == ff then x else { x with ff := ff, ext := none }
    match x.ext with
    | none => { x with ext := some val, raw := n }
    | some e => { x with ext := some (wrapI64 (e + toSigned w (n + 2 ^ 32 - x.raw))), raw := n }

/-- A decided window of axis `a` reaches the profile unit (R345, R358); `valid`: it is not null. -/
def Dev.feedAxis (d : Dev) (a : Nat) (valid : Bool) : Dev :=
  let h := Tab.get d.eng.held a ([], [])
  let ff := d.rn 0x2200 8 a
  let vf := d.rn 0x2200 9 a
  let d :=
    if ff == 0xFF then d
    else
      match d.localRaw a ff with
      | some raw => d.extendFb a ff raw
      | none => if valid then d.extendFb a ff (h.2.getD ff 0) else d
  if valid && vf != 0xFF then d.modApf a fun x => { x with fbVel := (h.1.getD vf Bf.zero).val } else d

/-- The mode and current of a stepper in a run of its law (R371, R372). -/
def Dev.stepRun (d : Dev) (a : Nat) (first null : Bool) : Dev :=
  let x := d.apf a
  let v := (d.scaledVA a { p := x.p, v := x.v, a := x.a, scaled := x.scaled }).1.abs
  let th := d.rf 0x2250 4 a
  let hy := fmul half (d.rf 0x2250 5 a)
  let strong :=
    if first then th.le v
    else
      let s := if (fadd th hy).le v then true else x.strong
      if v.lt (fsub th hy) then false else s
  let lf := d.rn 0x2250 6 a
  let la := if lf == 0xFF || null then Dy.zero else ((Tab.get d.eng.held a ([], [])).1.getD lf Bf.zero).val.abs
  let base := if strong then d.rn 0x2250 2 a else d.rn 0x2250 1 a
  let excess := Dy.pos (fsub la (d.rf 0x2250 7 a))
  let target := min (d.rn 0x2250 3 a) (base + (fmul (d.rf 0x2250 8 a) excess).round.toNat)
  let cur := if first || x.current ≤ target then target else max target (x.current - d.rn 0x2250 10 a)
  let stall := if (d.rf 0x2250 9 a).le la then x.stall + 1 else 0
  let d := d.setApf a { x with strong := strong, current := cur, stall := stall }
  let d := ((d.wr 0x2251 1 a cur).wb 0x2251 2 a strong).wf 0x2251 3 a la
  if stall == 2 then ((d.inc 0x2251 4 a).raise 0xEB (leBytes a 2)).setProof a 0 7 else d

/-- A stepper axis: its law ends in an OUT stage of format 7 (R368). -/
def Dev.isStepper (d : Dev) (a : Nat) : Bool :=
  (List.range (d.stageCount a)).any fun s => stKind (d.stage a s) == kOut && stMode (d.stage a s) == 7

/-! ### Commands of the table -/

/-- HARD_STOP_TIMER (R365): the lead held for 10 ms. -/
def hardStopAt (a : Nat) (d : Dev) : Dev :=
  match (d.apf a).homing with
  | some h =>
    match h.hardAt with
    | some t =>
      if d.md.fieldReset || h.step != 5 || h.ref.isSome || d.now < t + 10 * ms then d
      else d.modHome a fun h => { h with ref := some ((d.apf a).ext.getD 0) }
    | none => d
  | none => d

/-- HOMING_TIMEOUT (R367). -/
def homingTimeoutAt (a : Nat) (d : Dev) : Dev :=
  match (d.apf a).homing with
  | some h =>
    if d.md.fieldReset || d.now < h.startedAt + h.timeMs * ms then d
    else d.modApf a fun x => { x with homeFail := some 0x10 }
  | none => d

/-- HARD_STOP_TIMER. -/
def execHardStopTimer (t : Nat) (axis : Nat) : State → Host.Outcome State Fault Refusal := onDev t (hardStopAt axis)
/-- HOMING_TIMEOUT. -/
def execHomingTimeout (t : Nat) (axis : Nat) : State → Host.Outcome State Fault Refusal := onDev t (homingTimeoutAt axis)

end Sys2Proof.Machine
end

