-- ==== Sys2Proof/Machine/Codec.lean ====
section
/-! DEFINITION. The encoding of object values (R83) and the check code of the safety group (R456, R465). -/

namespace Sys2Proof.Machine

/-- Size of a type in bytes; 0 for STR and BLOB. -/
def tySize : Ty → Nat
  | .bool => 1 | .u8 => 1 | .i8 => 1
  | .u16 => 2 | .i16 => 2
  | .u32 => 4 | .i32 => 4 | .bf24 => 4 | .f32 => 4
  | .u64 => 8 | .i64 => 8 | .f64 => 8
  | .time => 10
  | .str => 0 | .blob => 0

/-- True for the signed integers. -/
def tySigned : Ty → Bool
  | .i8 => true | .i16 => true | .i32 => true | .i64 => true
  | .bool => false | .u8 => false | .u16 => false | .u32 => false | .u64 => false | .bf24 => false | .f32 => false
  | .f64 => false | .time => false | .str => false | .blob => false

/-- True for STR and BLOB. -/
def tyBytes (t : Ty) : Bool := tySize t == 0

/-- A number encoded under its type. -/
def encodeNum (t : Ty) (n : Int) : Bytes := leBytes (ofSigned (8 * tySize t) n) (tySize t)

/-- The number that bytes of a type spell. -/
def decodeNum (t : Ty) (bs : Bytes) : Int := if tySigned t then toSigned (8 * tySize t) (ofLe bs) else (ofLe bs : Nat)

/-- The type of an element. -/
def tyOf (o e : Nat) : Ty := ((desc? o e).map Desc.ty).getD .blob

/-- An element of the field die, encoded. -/
def Dev.encodeEl (d : Dev) (o e i : Nat) : Bytes :=
  let t := tyOf o e
  if tyBytes t then d.rblob o e i else encodeNum t (d.rd o e i)

/-- The values of the safety group in member order, every element of every instance in turn (R456, R465). -/
def Dev.safetyBytes (d : Dev) : Bytes :=
  (d.encodeEl 0x4000 4 0 ++ d.encodeEl 0x4000 5 0) ++
    ((List.range 16).flatMap fun i => [1, 2, 3, 4].flatMap fun e => d.encodeEl 0x4010 e i) ++
    ((List.range 8).flatMap fun n => d.encodeEl 0x4020 1 n) ++
    ((List.range 512).flatMap fun a => (List.range 17).flatMap fun e => d.encodeEl 0x4030 (e + 1) a)

/-- The check code of the values in force (R456). -/
def Dev.checkCode (d : Dev) : Nat := crc16 d.safetyBytes

end Sys2Proof.Machine
end

