-- ==== Sys2Proof/Machine/SafetyMon.lean ====
section
/-! DEFINITION. The safety monitor (R435 to R465): demands and their causes, safe stops, limits, release, inputs with their
test pulses, outputs with their checks, the seal, the replies of gates. -/

namespace Sys2Proof.Machine

/-! ### Demands that persist (R437, R447, R448) -/

/-- Latched level of input `i` (R451). -/
def Dev.inLevel (d : Dev) (i : Nat) : Bool := (Tab.get d.safe.ins i {}).latched
/-- A function with activation code `c` is active. -/
def Dev.codeActive (d : Dev) (c : Nat) : Bool :=
  c == 1 || (0x10 ≤ c && c < 0x20 && !d.inLevel (c % 16)) || (0x20 ≤ c && c < 0x30 && d.inLevel (c % 16))

/-- An axis has a torque path (R437). -/
def Dev.torquePath (d : Dev) (a : Nat) : Bool :=
  d.rn 0x4030 1 a != 0xFF || bit (gKind ((d.sg (d.axSeg a)).gate (d.axPos a)).desc) 0

/-- An input demands a stop of axis `a`: role 1, or role 2 with its group. -/
def Dev.inputDemand (d : Dev) (a : Nat) : Bool :=
  let g := d.rn 0x4030 1 a
  (List.range 16).any fun i => !d.inLevel i &&
    (d.rn 0x4010 1 i == 1 || (d.rn 0x4010 1 i == 2 && g < 8 && bit (d.rn 0x4010 2 i) g))

/-- A held demand of axis `a` persists (R448). -/
def Dev.heldDemand (d : Dev) (a : Nat) : Bool :=
  let g := d.rn 0x4030 1 a
  d.inputDemand a || d.axState a == 3 || !d.torquePath a || d.rn 0x4000 3 0 != 0 || (g < 8 && d.rn 0x4020 5 g == 1) ||
    d.safe.monFault || d.redundancy == 4

/-- The causes of a device stop that hold now, by key, with their event numbers (R447). -/
def Dev.stopCauses (d : Dev) : List (Nat × Nat) :=
  if d.mode < 2 then []
  else
    ((List.range 16).filter fun i => d.rn 0x4010 1 i == 1 && !d.inLevel i).map (fun i => (i, 0xB0)) ++
    (if d.rn 0x4000 3 0 != 0 && 3 ≤ d.mode then [(16, if d.rn 0x4000 3 0 == 2 then 0xBA else 0xB9)] else []) ++
    (if d.safe.monFault then [(17, 0xBD)] else []) ++
    ((List.range 8).filter fun n => d.rn 0x4020 5 n == 1).map (fun n => (32 + n, 0xB7)) ++
    ((d.safe.axes.filter fun p => p.2.scope1).map fun p => (1024 + p.1, 0xB4)) ++
    ((d.safe.axes.filter fun p => p.2.stoLast).map fun p => (2048 + p.1, 0xBC))

/-- Each new cause raises its demand (R447); with none left 4000h:6 reads 00h. -/
def Dev.updateCauses (d : Dev) : Dev :=
  let cs := d.stopCauses
  let d := d.each (cs.filter fun c => !d.safe.causes.contains c.1) fun d c => d.deviceStop c.2
  let d := if cs.isEmpty then d.wr 0x4000 6 0 0 else d
  { d with safe.causes := cs.map (·.1), safe.deviceStop := !cs.isEmpty }

/-- A safety function demands a stop: request 03h is refused (R40, R437, R447). -/
def Dev.safetyRefuses (d : Dev) : Bool :=
  !d.stopCauses.isEmpty || (d.enabledAxes.any fun a =>
    d.heldDemand a || (d.asf a).latched || (d.asf a).scope1 || d.saf a == 3)

/-! ### Safe stops (R443, R444) -/

/-- The axes of a stop's group enter state 3 when every one has completed (R436, R444). -/
def Dev.finishStop (d : Dev) (a : Nat) : Dev :=
  let g := d.groupOf a
  if (g.any fun x => (d.saf x == 2 && !(d.asf x).done) || (d.asf x).stopDue.isSome) || !(g.any fun x => d.saf x == 2) then d
  else
    let dur := (d.now - (d.asf a).ls) / ms
    let d := d.each (g.filter fun x => d.saf x == 2) fun d x => (d.wr 0x4040 1 x 3).wr 0x4040 8 x (sat32 dur)
    (d.raise 0xB2 (leBytes a 2 ++ leBytes (sat32 dur) 4)).driveOutputs

/-- Event B5h (R439, R459): an immediate STO. -/
def Dev.implausible (d : Dev) (a : Nat) : Dev :=
  if d.saf a == 1 || d.saf a == 2 then (d.raise 0xB5 (leBytes a 2)).immediateSto a 0xB5 true else d

/-- Safe-hold starts the safe stop of every axis in state 1 (R43, R447). -/
def Dev.safeHoldStop (d : Dev) (ev : Nat) : Dev :=
  d.each d.enabledAxes fun d a =>
    let x := d.asf a
    if d.saf a == 1 && x.stopDue.isNone then d.setAsf a { x with stopDue := some ev } else d

/-! ### Judging a sample (R438 to R443, R459) -/

/-- A sample of the monitored position at L_k (R438, R439): `raw` of the position field, mean speed of the velocity field. -/
def Dev.monSample (d : Dev) (a ff raw : Nat) : Dev :=
  let x := d.asf a
  let fmt := bits (d.rn 0x2020 (1 + ff) a) 11 8
  let w := if fmt == 1 || fmt == 2 then 16 else 32
  let val : Int :=
    if fmt == 1 || fmt == 3 then toSigned w raw
    else if fmt == 5 || fmt == 6 then (fieldValue fmt raw).1.round else (raw : Int)
  let n := ofSigned 32 val
  let same := x.ff == ff
  let ext := match (if same then x.raw else none) with
    | some r => wrapI64 (x.ext + toSigned w (n + 2 ^ 32 - r))
    | none => val
  let lk := d.tm.latchNs
  let p := d.period
  let win := max 1 (250000 / max 1 p) * p
  let hist := if same then x.hist else []
  let vf := d.rn 0x2200 9 a
  let vh := if vf == 0xFF then [] else
    ((lk, ((Tab.get d.eng.held a ([], [])).1.getD vf Bf.zero).val) :: (if same then x.velHist else [])).filter fun q => lk < q.1 + win
  -- newest first; everything within the window, and the newest sample at or before its begin
  let inside := hist.filter fun q => lk < q.1 + win
  let hist := (lk, ext) :: inside ++ (hist.drop inside.length).take 1
  let v := match hist.getLast? with
    | some q => if q.1 < lk then fratio ((ext - q.2) * 1000000000) (lk - q.1 : Nat) else Dy.zero
    | none => Dy.zero
  let d := d.setAsf a { x with ext := ext, raw := some n, ff := ff, hist := hist, velHist := vh, vs := v, nulls := 0 }
  (d.wf 0x4040 4 a v).wr 0x4040 9 a (wrapI64 (ext - d.rd 0x2240 6 a))

/-- The functions active on an axis, bits 0 to 3 of 4040h:3 (R440, R441). -/
def Dev.activeFns (d : Dev) (a : Nat) : Nat :=
  let slp := d.codeActive (d.rn 0x4030 7 a)
  let proven := d.rn 0x5020 1 a == 1
  (if d.codeActive (d.rn 0x4030 4 a) then 1 else 0) + (if slp && proven then 2 else 0) +
    (if d.codeActive (d.rn 0x4030 10 a) then 4 else 0) + (if slp && !proven then 8 else 0)

/-- The functions violated at a sample: 0 SLS, 1 SLP, 2 SDI (R440, R441). -/
def Dev.violations (d : Dev) (a : Nat) : List Nat :=
  let f := d.activeFns a
  let v := (d.asf a).vs
  let sls := d.rf 0x4030 3 a
  let x := d.rd 0x4040 9 a
  let low := Dy.ofInt (d.rd 0x4030 5 a)
  let high := Dy.ofInt (d.rd 0x4030 6 a)
  let stop := fadd (Dy.ofInt x) (fdiv (fmul v v.abs) (fmul (Dy.ofInt 2) (d.rf 0x4030 12 a)))
  let out (y : Dy) : Bool := y.lt low || high.lt y
  let tol := d.rf 0x4030 11 a
  (if (bit f 0 && sls.lt v.abs) || (bit f 3 && (sls.min (d.rf 0x4030 8 a)).lt v.abs) then [0] else []) ++
  (if bit f 1 && (out (Dy.ofInt x) || out stop) then [1] else []) ++
  (if bit f 2 && (if d.rn 0x4030 9 a == 0 then v.lt tol.neg else tol.lt v) then [2] else [])

/-- Limit functions of an axis in state 1 (R440 to R442). -/
def Dev.judgeLimits (d : Dev) (a : Nat) : Dev :=
  let bad := d.violations a
  if bad.isEmpty then d
  else
    let d := d.each bad fun d f => (d.inc 0x4040 6 a).raise 0xB4 (leBytes a 2 ++ leBytes f 1)
    if d.rn 0x4030 2 a == 1 then
      (d.setAsf a { d.asf a with scope1 := true, latched := true }).updateCauses
    else d.demandStop a 0xB4 true

/-- Plausibility of an axis in state 1 or 2 (R459). -/
def Dev.judgePlausible (d : Dev) (a : Nat) : Dev :=
  let x := d.asf a
  let n := x.velHist.length
  let mean := fdiv (x.velHist.foldl (fun s q => fadd s q.2) Dy.zero) (Dy.ofInt n)
  let vb := n != 0 && (d.rf 0x4030 16 a).lt (fsub x.vs mean).abs
  let fl := d.rn 0x4030 17 a
  let fb := d.saf a == 1 && fl != 0 && fl < ((d.setp a).pos - x.ext).natAbs
  let y := { x with velBad := if vb then x.velBad + 1 else 0, folBad := if fb then x.folBad + 1 else 0 }
  if 2 ≤ y.velBad || 2 ≤ y.folBad then (d.setAsf a { y with velBad := 0, folBad := 0 }).implausible a else d.setAsf a y

/-- The envelope and the completion of a safe stop (R443, R444). -/
def Dev.judgeStop (d : Dev) (a : Nat) : Dev :=
  let x := d.asf a
  if x.done then d
  else
    let t := fdiv (Dy.ofInt ((d.tm.latchNs : Int) - (x.ls / 1000 : Nat))) (Dy.ofInt 1000000000)
    let late := Dy.zero.max (fsub t (fratio (d.rn 0x4030 13 a) 1000))
    let ss := d.rf 0x4030 15 a
    let lim := ss.max (fsub (fadd x.v0 (d.rf 0x4030 16 a)) (fmul (d.rf 0x4030 12 a) late))
    if lim.lt x.vs.abs then (d.raise 0xB3 (leBytes a 2)).immediateSto a 0xB3 true
    else if x.vs.abs.le ss then (d.setAsf a { x with done := true }).finishStop a
    else d

/-- The window of an axis is decided (R438, R439). -/
def Dev.safetyWindow (d : Dev) (a : Nat) (valid : Bool) : Dev :=
  let ff := d.rn 0x2200 8 a
  let st := d.saf a
  if ff == 0xFF then
    if st == 2 || (st == 1 && (d.rn 0x4030 4 a != 0 || d.rn 0x4030 7 a != 0 || d.rn 0x4030 10 a != 0)) then d.implausible a else d
  else
    let old := d.rn 0x4040 3 a
    let d := d.wr 0x4040 3 a (d.activeFns a + (if bit old 4 then 16 else 0) : Nat)
    if !valid then
      if st == 2 || (st == 1 && d.activeFns a != 0) then
        let x := d.asf a
        let d := d.setAsf a { x with nulls := x.nulls + 1 }
        if d.rn 0x2160 2 a < x.nulls + 1 then d.implausible a else d
      else d
    else
      let d := d.monSample a ff ((Tab.get d.eng.held a ([], [])).2.getD ff 0)
      let d := if st == 1 then d.judgeLimits a else d
      let d := if d.saf a == 1 || d.saf a == 2 then d.judgePlausible a else d
      if d.saf a == 2 then d.judgeStop a else d

/-! ### The boundary (R435, R443, R448, R450) -/

/-- The filtered levels are latched; group stops and new causes (R447, R451). -/
def Dev.safetyLatch (d : Dev) : Dev :=
  let d := { d with safe.ins := d.safe.ins.map fun (p : Nat × SafeIn) => (p.1, { p.2 with latched := p.2.level }) }
  let d := d.each d.enabledAxes fun d a =>
    let g := d.rn 0x4030 1 a
    if g < 8 && (List.range 16).any fun i => !d.inLevel i && d.rn 0x4010 1 i == 2 && bit (d.rn 0x4010 2 i) g
      then d.demandStop a 0xB1 false else d
  d.updateCauses

/-- The device enters Prepare or Run (R450, R437, R458). -/
def Dev.safetyMode (d : Dev) (new : Nat) : Dev :=
  let d :=
    if new == 2 then
      d.each d.enabledAxes fun d a =>
        let x := d.asf a
        let d := d.setAsf a { x with stopDue := none, done := false }
        if d.saf a == 1 || d.saf a == 2 || (d.saf a == 3 && !(d.heldDemand a || x.latched || x.scope1 || x.stoLast))
          then d.wr 0x4040 1 a 0 else d
    else if new == 3 then
      d.each d.enabledAxes fun d a => if d.saf a == 0 && !d.heldDemand a then d.wr 0x4040 1 a 1 else d
    else d
  d.driveOutputs

/-- Releases and safe stops take effect, and the Permit bits of the frame are fixed (R435, R443, R448). -/
def Dev.safetyStart (d : Dev) : Dev :=
  let d := d.each d.enabledAxes fun d a =>
    let x := d.asf a
    if x.release then
      let ok := (d.mode == 3 || d.mode == 4) && d.rn 0x4000 3 0 == 0
      let d := d.setAsf a { x with release := false }
      if d.saf a == 3 then d.wr 0x4040 1 a (if ok then 1 else 0) else d
    else d
  let d := d.each d.enabledAxes fun d a =>
    let x := d.asf a
    match x.stopDue with
    | none => d
    | some ev =>
      let d := d.setAsf a { x with stopDue := none, ls := d.tm.latchNs * 1000, v0 := x.vs.abs, done := false }
      if d.saf a == 1 then ((d.wr 0x4040 1 a 2).wr 0x4040 2 a ev).stopRampDue a else d.setAsf a { x with stopDue := none }
  { d with eng.permits := d.enabledAxes.filter fun a => d.saf a == 1 || d.saf a == 2 }.driveOutputs

/-- The data of axes no longer enabled are dropped; their state is 0. -/
def Dev.safetySync (d : Dev) : Dev :=
  let gone := (d.safe.axes.map (·.1)).filter fun a => !d.rb 0x2000 1 a
  d.each gone fun d a => { d with safe.axes := Tab.del d.safe.axes a }.wr 0x4040 1 a 0

/-- True when every axis has its torque off and no stop is due (R160). -/
def Dev.torqueAllOff (d : Dev) : Bool := d.enabledAxes.all fun a => d.torqueOff a && (d.asf a).stopDue.isNone

/-! ### Release (R448, R449) -/

/-- Judgement of a write of TRUE to 4040h:5. -/
def Dev.resetCheck (d : Dev) (a : Nat) : Nat :=
  if d.saf a != 3 || (d.groupOf a).any d.heldDemand then 5 else 0

/-- A release is accepted for some axes: their latched demands are cleared, those in state 3 without a held demand change
at the next boundary; a stuck-off output is tried again. -/
def Dev.releaseAxes (d : Dev) (as : List Nat) (data : Bytes) : Dev :=
  let d := d.each as fun d a =>
    let d := d.setAsf a { d.asf a with
      latched := false, scope1 := false, stoLast := false, release := d.saf a == 3 && !d.heldDemand a }
    let g := d.rn 0x4030 1 a
    if g < 8 && d.rn 0x4020 5 g == 2 then
      { d with safe.outs := Tab.mod d.safe.outs g {} fun x => { x with check := 2, repeating := true } }
    else d
  (d.raise 0xBE data).updateCauses

/-- Every axis in state 3 without a held demand is released by an input (R449). -/
def Dev.inputRelease (d : Dev) : Dev :=
  let as := d.enabledAxes.filter fun a => d.saf a == 3 && !d.heldDemand a
  if as.isEmpty then d else d.releaseAxes as []

/-! ### Inputs (R449, R451, R452) -/

/-- Input `i`. -/
def Dev.sin (d : Dev) (i : Nat) : SafeIn := Tab.get d.safe.ins i {}
/-- Changes it. -/
def Dev.modSin (d : Dev) (i : Nat) (f : SafeIn → SafeIn) : Dev := { d with safe.ins := Tab.put d.safe.ins i (f (d.sin i)) }

/-- The filtered level of an input changes. -/
def Dev.inputFlip (d : Dev) (i : Nat) (lv : Bool) : Dev :=
  let x := d.sin i
  let d := (d.modSin i fun x => { x with level := lv, heldUs := 0, riseAt := if lv then some d.now else none }).wb 0x4010 5 i lv
  if lv then d
  else
    let role := d.rn 0x4010 1 i
    if role == 2 then d.raise 0xB1 (leBytes i 1)
    else if role == 4 then
      match x.riseAt with
      | some t =>
        if x.testBad then d
        else if t + 100 * ms ≤ d.now && d.now ≤ t + 5 * sec then d.inputRelease else d.inc 0x4010 6 i
      | none => d
    else d

/-- One sample of input `i` (R451). -/
def Dev.inputSample (d : Dev) (i : Nat) (raw : Bool) : Dev :=
  let x := d.sin i
  if x.testBad || (d.rn 0x4010 4 i != 0 && d.now < x.blankUntil) then d
  else if raw == x.level then d.modSin i fun x => { x with raw := raw, heldUs := 0 }
  else
    let held := if x.heldUs == 0 then 1 else x.heldUs + 100
    let d := d.modSin i fun x => { x with raw := raw, heldUs := held }
    if d.rn 0x4010 3 i ≤ held - 1 then d.inputFlip i raw else d

/-- Blanking of a pulse, and the level read in its check window (R452). -/
def Dev.pulseCheck (d : Dev) (i : Nat) (level repeated : Bool) : Dev :=
  let d := d.modSin i fun x => { x with blankUntil := d.now + 500 * us }
  if !level then
    let d := d.modSin i fun x => { x with testBad := false, testOnce := false }
    if repeated then d.inc 0x4010 6 i else d
  else if !repeated then d.modSin i fun x => { x with testOnce := true }
  else
    let d := ((d.inc 0x4010 6 i).raise 0xB8 (leBytes i 1)).modSin i fun x => { x with testBad := true, testOnce := false, riseAt := none }
    if (d.sin i).level then d.inputFlip i false else d

/-- TEST_PULSE (R452). -/
def testPulseAt (source levels : Nat) (d : Dev) : Dev :=
  if d.md.fieldReset then d
  else d.each ((List.range 16).filter fun i => d.rn 0x4010 4 i == source + 1) fun d i => d.pulseCheck i (bit levels i) false

/-- TEST_PULSE_REPEAT (R452). -/
def testRepeatAt (source i : Nat) (level : Bool) (d : Dev) : Dev :=
  if d.md.fieldReset || !(d.sin i).testOnce || d.rn 0x4010 4 i != source + 1 then d else d.pulseCheck i level true

/-! ### Outputs (R453 to R455) -/

/-- Output `n`. -/
def Dev.sout (d : Dev) (n : Nat) : SafeOut := Tab.get d.safe.outs n {}
/-- Changes it. -/
def Dev.modSout (d : Dev) (n : Nat) (f : SafeOut → SafeOut) : Dev := { d with safe.outs := Tab.put d.safe.outs n (f (d.sout n)) }

/-- OutputState of a steady output. -/
def Dev.showOut (d : Dev) (n : Nat) : Dev :=
  d.wr 0x4020 2 n (if d.rn 0x4020 5 n != 0 then 3 else if (d.sout n).on then 1 else 0)

/-- OUTPUT_TEST_PULSE (R453). -/
def outputPulse (n : Nat) (d : Dev) : Dev :=
  let x := d.sout n
  if d.md.fieldReset || !x.on || x.check != 0 || d.rn 0x4020 5 n != 0 then d
  else ((d.modSout n fun x => { x with check := 1 }).wr 0x4020 2 n 2).wr 0x4020 6 n d.devTime

/-- A lasting failure of a check (R455). -/
def Dev.outputFault (d : Dev) (n kind : Nat) : Dev :=
  let d := (((d.inc 0x4020 4 n).wr 0x4020 5 n kind).raise 0xB7 (leBytes n 1 ++ leBytes kind 1)).modSout n
    fun x => { x with check := 0, repeating := false, on := false, goodSince := none, offAt := d.now }
  let d := d.showOut n
  if kind == 1 then d.updateCauses
  else (d.each (d.enabledAxes.filter fun a => d.rn 0x4030 1 a == n) fun d a => d.immediateSto a 0xB7 false).driveOutputs

/-- OUTPUT_READBACK_CHECK (R453 to R455). -/
def readbackCheck (n : Nat) (on : Bool) (d : Dev) : Dev :=
  let x := d.sout n
  if d.md.fieldReset || x.check == 0 then d
  else if x.check == 1 then
    if x.repeating then d
    else if on then d.modSout n fun x => { x with repeating := true }
    else if x.on then d.modSout n fun x => { x with check := 2 }
    else (d.modSout n fun x => { x with check := 0 }).showOut n
  else if x.check == 2 then
    if on then
      let d := if d.rn 0x4020 5 n == 2 then d.wr 0x4020 5 n 0 else d
      (d.modSout n fun x => { x with check := 0, repeating := false }).showOut n
    else if d.rn 0x4020 5 n == 2 then d.outputFault n 2
    else if x.repeating then d
    else d.modSout n fun x => { x with repeating := true }
  else d

/-- OUTPUT_TEST_REPEAT (R455). -/
def outputRepeat (n : Nat) (good : Bool) (d : Dev) : Dev :=
  let x := d.sout n
  if d.md.fieldReset || !x.repeating || x.check == 0 then d
  else if good then
    ((d.inc 0x4020 3 n).raise 0xB6 (leBytes n 1)).modSout n (fun x => { x with check := 0, repeating := false }) |>.showOut n
  else d.outputFault n (if x.check == 2 then 2 else 1)

/-- Readback of an output at a sample (R453, R455): one that is off reads off once its switch-off time has passed. -/
def Dev.offRead (d : Dev) (n : Nat) (on : Bool) : Dev :=
  let x := d.sout n
  let kind := d.rn 0x4020 5 n
  if x.on || !d.rb 0x4020 1 n || d.now < x.offAt + 750 * us then d
  else
    let d := if kind == 1 then d.modSout n fun x => { x with goodSince := since x.goodSince (!on) d.now } else d
    if on && kind == 0 && x.check == 0 then d.modSout n fun x => { x with check := 3, repeating := true } else d

/-- OUTPUT_FAULT_CLEAR (R455). -/
def outputClear (n : Nat) (d : Dev) : Dev :=
  match (d.sout n).goodSince with
  | some t =>
    if d.md.fieldReset || d.rn 0x4020 5 n != 1 || d.now < t + sec then d
    else (((d.wr 0x4020 5 n 0).modSout n fun x => { x with goodSince := none }).driveOutputs.showOut n).updateCauses
  | none => d

/-! ### The seal (R456 to R458) -/

/-- SealState from the code read and the check code in force; a new mismatch in Run or Ride-through raises its event. -/
def Dev.sealUpdate (d : Dev) : Dev :=
  let old := d.rn 0x4000 3 0
  let st := if !d.safe.sealRead then 1 else if d.rn 0x4000 9 0 != 0 then 2
    else if d.rn 0x4000 1 0 == d.rn 0x4000 2 0 then 0 else 1
  let d := d.wr 0x4000 3 0 st
  let d := if st != 0 && st != old && (d.mode == 3 || d.mode == 4)
    then d.raise (if st == 2 then 0xBA else 0xB9) (leBytes (d.rn 0x4000 1 0) 2 ++ leBytes (d.rn 0x4000 9 0) 2) else d
  d.updateCauses

/-- The seal balls are read (R457): with their pull-ups and with their pull-downs. -/
def Dev.readSeal (d : Dev) (up down : Nat) : Dev :=
  let up := up % 65536
  let down := down % 65536
  let d := (d.wr 0x4000 1 0 (Nat.land up down)).wr 0x4000 9 0 (Nat.xor up down)
  let d := d.wr 0x4000 2 0 d.checkCode
  { d with safe.sealRead := true }.sealUpdate

/-- The values of the safety group in force changed: the check code and the seal are judged anew. -/
def Dev.recheck (d : Dev) : Dev := (d.wr 0x4000 2 0 d.checkCode).sealUpdate

/-- The safety group was committed (R458): event BFh with the old and the new code. -/
def Dev.safetyCommitted (d : Dev) : Dev :=
  let old := d.rn 0x4000 2 0
  let d := d.recheck
  (d.raise 0xBF (leBytes old 2 ++ leBytes (d.rn 0x4000 2 0) 2)).driveOutputs

/-! ### Gates (R460, R461) -/

/-- The axes bound to safety gate `i` of segment `s`. -/
def Dev.safetyAxes (d : Dev) (s i : Nat) : List Nat :=
  match (d.safetyGates s)[i]? with
  | some p => d.axesAt s p
  | none => []

/-- A rotation without a good reply (R460). -/
def Dev.replyMissing (d : Dev) (s i : Nat) : Dev :=
  let n := Tab.get d.safe.replies (s * 4096 + i) 0 + 1
  let d := { d with safe.replies := Tab.put d.safe.replies (s * 4096 + i) n }
  if n == d.rn 0x4000 5 0 then
    d.each (d.safetyAxes s i) (fun d a => d.demandStop a 0xBB false) |>.raise 0xBB (leBytes s 1 ++ leBytes i 1)
  else d

/-- StoActive of a good reply for one axis (R461). -/
def Dev.stoCheck (d : Dev) (a echo : Nat) (sto : Bool) : Dev :=
  let x := d.asf a
  let f := d.rn 0x4040 3 a % 16
  let permitted := d.eng.permits.contains a
  let d := d.wr 0x4040 3 a (f + (if permitted && sto then 16 else 0) : Nat)
  match x.clearSeq with
  | none => d
  | some s =>
    if permitted || 32768 ≤ (echo + 65536 - (s + 1) % 65536) % 65536 then d
    else if sto then
      if x.stoInc then (d.setAsf a { x with stoInc := false }).inc 0x4040 7 a else d
    else if !x.stoInc then d.setAsf a { x with stoInc := true }
    else
      let d := (d.setAsf a { x with stoInc := false, stoLast := true, latched := true }).raise 0xBC (leBytes a 2)
      let g := d.rn 0x4030 1 a
      let d := if g < 8 then (d.modSout g fun x => { x with on := false, offAt := d.now }).showOut g else d
      d.updateCauses

/-- A reply whose CRC matches (R460): good when its echo is recent. -/
def Dev.takeReply (d : Dev) (s i sto echo : Nat) : Dev :=
  let seq := (d.sg s).seq
  let back := (seq % 65536 + 65536 - echo % 65536) % 65536
  if back < 1 || d.rn 0x4000 4 0 + 1 < back then d.replyMissing s i
  else
    let d := { d with safe.replies := Tab.put d.safe.replies (s * 4096 + i) 0 }
    d.each (d.safetyAxes s i) fun d a => d.stoCheck a echo (bit sto (d.axSlot a))

/-- The container of a frame is sent (R461): since which Seq each axis's Permit bit is clear. -/
def Dev.noteClears (d : Dev) (s : Nat) : Dev :=
  let seq := (d.sg s).seq
  d.each (d.enabledAxes.filter fun a => d.axSeg a == s) fun d a =>
    let x := d.asf a
    if d.eng.permits.contains a then (if x.clearSeq.isNone then d else d.setAsf a { x with clearSeq := none, stoInc := false })
    else if x.clearSeq.isSome then d
    else d.setAsf a { x with clearSeq := some seq }

/-! ### Commands -/

/-- SAFETY_INPUT_SAMPLE (R451, R453, R462). -/
def inputSampleAt (levels readback : Nat) (up : Upset) (d : Dev) : Dev :=
  if d.md.fieldReset then d
  else
    let d := d.each (List.range 16) fun d i => d.inputSample i (bit levels i)
    let d := d.each (List.range 8) fun d n => d.offRead n (bit readback n)
    match up with
    | .none => d
    | .once => d.inc 0x4000 7 0
    | .twice =>
      let d := { d.inc 0x4000 8 0 with safe.monFault := true }.raise 0xBD []
      (d.each d.enabledAxes fun d a => d.immediateSto a 0xBD false).driveOutputs.updateCauses

/-- STOP_TIME_EXPIRY (R444). -/
def stopTimeAt (a : Nat) (d : Dev) : Dev :=
  let x := d.asf a
  if d.md.fieldReset || d.saf a != 2 || x.done || d.now < x.ls + d.rn 0x4030 14 a * ms then d
  else ((d.setAsf a { x with done := true, latched := true }).raise 0xB3 (leBytes a 2)).finishStop a

/-- SEAL_READ (R457). -/
def sealReadAt (up down : Nat) (d : Dev) : Dev :=
  if d.md.fieldReset then d else { d with clk.straps := (d.clk.straps.1, up, down) }.readSeal up down

/-- SAFETY_INPUT_SAMPLE. -/
def execSafetyInputSample (t : Nat) (levels readback : Nat) (upset : Upset) : State → Host.Outcome State Fault Refusal :=
  onDev t (inputSampleAt levels readback upset)
/-- STOP_TIME_EXPIRY. -/
def execStopTimeExpiry (t : Nat) (axis : Nat) : State → Host.Outcome State Fault Refusal := onDev t (stopTimeAt axis)
/-- TEST_PULSE. -/
def execTestPulse (t : Nat) (source levels : Nat) : State → Host.Outcome State Fault Refusal := onDev t (testPulseAt source levels)
/-- TEST_PULSE_REPEAT. -/
def execTestPulseRepeat (t : Nat) (source input : Nat) (level : Bool) : State → Host.Outcome State Fault Refusal :=
  onDev t (testRepeatAt source input level)
/-- OUTPUT_TEST_PULSE. -/
def execOutputTestPulse (t : Nat) (output : Nat) : State → Host.Outcome State Fault Refusal := onDev t (outputPulse output)
/-- OUTPUT_READBACK_CHECK. -/
def execOutputReadbackCheck (t : Nat) (output : Nat) (on : Bool) : State → Host.Outcome State Fault Refusal :=
  onDev t (readbackCheck output on)
/-- OUTPUT_TEST_REPEAT. -/
def execOutputTestRepeat (t : Nat) (output : Nat) (good : Bool) : State → Host.Outcome State Fault Refusal :=
  onDev t (outputRepeat output good)
/-- OUTPUT_FAULT_CLEAR. -/
def execOutputFaultClear (t : Nat) (output : Nat) : State → Host.Outcome State Fault Refusal := onDev t (outputClear output)
/-- SEAL_READ. -/
def execSealRead (t : Nat) (sealUp sealDown : Nat) : State → Host.Outcome State Fault Refusal := onDev t (sealReadAt sealUp sealDown)

end Sys2Proof.Machine
end

