-- ==== Sys2Proof/Machine/Segment.lean ====
section
/-! DEFINITION. Slalom segments (06, 07): starting, claiming, numbering, delay measurement, enumeration, assignment,
taking the frame back, and the classification of faults. -/

namespace Sys2Proof.Machine

/-! ### Small parts -/

/-- The channels. -/
def chans : List Chan := [.a, .b]
/-- Number of a channel. -/
def chNum : Chan → Nat
  | .a => 0
  | .b => 1
/-- The other channel. -/
def chOther : Chan → Chan
  | .a => .b
  | .b => .a

/-- This head's 48-bit identity (0001h:4). -/
def headId : Nat := (dfltNum 1 4).toNat

/-- Sets an element of the segment record 1120h. -/
def Dev.wrSeg (d : Dev) (s e v : Nat) : Dev := d.wr (0x1120 + s) e 0 v

/-- True while a channel of a segment is up (1120h:3). -/
def Dev.chUp (d : Dev) (s : Nat) (c : Chan) : Bool := bit (d.rn (0x1120 + s) 3 0) (chNum c)

/-- The channels in use that are up. -/
def Dev.upChans (d : Dev) (s : Nat) : List Chan := chans.filter fun c => d.inUse s c && d.chUp s c

/-- Changes a channel of a segment. -/
def Dev.modChan (d : Dev) (s : Nat) (c : Chan) (f : SegChan → SegChan) : Dev :=
  d.setSg s ((d.sg s).setChan c (f ((d.sg s).chan c)))

/-- Hands something on inside the command. -/
def Dev.signal (d : Dev) (x : SegSig) : Dev := { d with sig := d.sig ++ [x] }

/-- Positions of a segment. -/
def Dev.positions (d : Dev) (s : Nat) : List Nat := (List.range (d.gateCount s)).map (· + 1)

/-- Marks a gate lost (R207, 1140h:11). -/
def Dev.gateMark (d : Dev) (s p : Nat) : Dev :=
  let x := d.sg s
  (d.setSg s (x.setGate p { x.gate p with lost := true, goodRun := 0, incident := none })).wr (0x1140 + s) 11 p 1

/-- A gate is lost; the loss is handed on when it is new (R207). -/
def Dev.gateGone (d : Dev) (s p : Nat) : Dev :=
  if ((d.sg s).gate p).lost then d.gateMark s p else (d.gateMark s p).signal (.gateLost s p)

/-- A gate is lost with event 47h (R203, R204). -/
def Dev.gateLost (d : Dev) (s p : Nat) : Dev :=
  if ((d.sg s).gate p).lost then d else (d.gateGone s p).raise 0x47 (leBytes s 1 ++ leBytes p 2)

/-- The segment enters Failed with a code, and every gate is lost (R206, R207). The first automatic restart is due 100 ms
after the failure; one that follows an automatic restart keeps the 1 s period (R208). -/
def Dev.segFail (d : Dev) (s code : Nat) : Dev :=
  let x := d.sg s
  let st := d.segState s
  let d := (d.wrSeg s 1 6).wrSeg s 8 code
  let d := d.setSg s { x with
    launched := false, judged := true, round := 0, numStage := 0
    a := { x.a with run := none, queue := [], query := none }
    b := { x.b with run := none, queue := [], query := none }
    failAt := d.now
    autoAt := if 0 < x.autoAt && decide (st < 5) then x.autoAt else d.now + 100 * ms }
  d.each (d.positions s) fun d p => d.gateGone s p

/-- A lasting segment loss (R206): event 46h, a Safe-hold cause of an essential segment in Run and Ride-through. -/
def Dev.segLost (d : Dev) (s code : Nat) : Dev :=
  let d := (d.raise 0x46 (leBytes s 1)).segFail s code
  if d.rb (0x1100 + s) 5 0 && (d.mode == 3 || d.mode == 4) then d.safeHold 0x46 else d

/-- A channel is lost (R182, R189, R190, R204): event 48h, its bit cleared, PortQuery from position 1 (R207). -/
def Dev.chanLost (d : Dev) (s : Nat) (c : Chan) : Dev :=
  let d := d.wrSeg s 3 (setBit (d.rn (0x1120 + s) 3 0) (chNum c) false)
  let ask := decide (0 < d.gateCount s) && d.segState s == 5
  let d := d.modChan s c fun x => { x with
    lost := true, goodRun := 0, incident := false, query := if ask then some 1 else none }
  let d := d.raise 0x48 (leBytes s 1 ++ leBytes (chNum c) 1)
  if ask then d.emit (.link s c 5 1 0) else d

/-! ### Start, claim, numbering (R182 to R189) -/

/-- The head enables the segment's ports and waits for block lock (R182); a disabled segment is in state 0. -/
def Dev.segStart (d : Dev) (s : Nat) : Dev :=
  let x := d.sg s
  if !d.rb (0x1100 + s) 1 0 then (d.setSg s { x with startDue := false, launched := false }).wrSeg s 1 0
  else
    let d := (((d.wrSeg s 1 1).wrSeg s 8 0).wrSeg s 3 0)
    let d := (d.wr (0x1100 + s) 6 0 0).wr (0x1100 + s) 7 0 0
    d.setSg s { ({} : Seg) with
      startAt := d.now, gates := x.gates, asg := x.asg, tag := x.tag, tagsUsed := x.tagsUsed
      lastAsg := x.lastAsg, lastTag := x.lastTag, lastDesc := x.lastDesc, seq := x.seq, autoAt := x.autoAt }

/-- A restart begins (R208): event 4Dh, 1120h:7, every gate counts as lost (R207), no frame is launched. -/
def Dev.segRestart (d : Dev) (s : Nat) : Dev :=
  let d := (d.raise 0x4D (leBytes s 1)).inc (0x1120 + s) 7 0
  let d := d.each (d.positions s) fun d p => d.gateGone s p
  (d.setSg s { d.sg s with startDue := true, launched := false, judged := true }).wrSeg s 1 1

/-- A claim round (R183): one CLAIM on the downstream port of each locked channel. -/
def Dev.claimRound (d : Dev) (s n : Nat) : Dev :=
  (d.setSg s { d.sg s with round := n, roundAt := d.now }).emit (.claim s n headId)

/-- Lock is settled: locked channels are up, the others in use are lost, and claiming begins (R182, R183). -/
def Dev.claimBegin (d : Dev) (s : Nat) : Dev :=
  let up := (chans.filter fun c => d.inUse s c && ((d.sg s).chan c).locked)
  let d := d.wrSeg s 3 ((up.map fun c => 2 ^ (chNum c)).sum)
  let d := d.each (chans.filter fun c => d.inUse s c && !((d.sg s).chan c).locked) fun d c => d.chanLost s c
  d.claimRound s 1

/-- The head concedes (R184): state 7, Failure 09h, event 40h with the other identity. -/
def Dev.concede (d : Dev) (s ident : Nat) : Dev :=
  (((d.setSg s { d.sg s with round := 0, launched := false }).wrSeg s 1 7).wrSeg s 8 9).raise 0x40 (leBytes ident 6)

/-- Sends Number (renumber set, next position 1) on the channel of the numbering (R188). -/
def Dev.sendNumber (d : Dev) (s : Nat) (c : Chan) (try_ : Nat) : Dev :=
  (d.setSg s { d.sg s with numStage := 1, numCh := c, numTry := try_, linkAt := d.now }).emit (.number s false (2 ^ (chNum c)) 1)

/-- Sends Verify with 1. -/
def Dev.sendVerify (d : Dev) (s stage : Nat) (c : Chan) (try_ : Nat) : Dev :=
  (d.setSg s { d.sg s with numStage := stage, numCh := c, numTry := try_, linkAt := d.now }).emit
    (.number s true (2 ^ (chNum c)) 1)

/-- Numbering begins (R188): gate records emptied (R212), breaks cleared (R207). -/
def Dev.numberStart (d : Dev) (s : Nat) : Dev :=
  let again := !(d.sg s).lastDesc.isEmpty || 0 < d.rn (0x1120 + s) 7 0
  let d := { d with ob.od := d.ob.od.filter fun p => p.1 / 16777216 != 0x1140 + s }
  let d := ((d.wrSeg s 1 2).wrSeg s 10 0).wrSeg s 11 0
  let gone := ((d.sg s).gates.filter (·.2.lost)).map fun g => (g.1, ({ lost := true } : GateSt))
  let d := d.setSg s { d.sg s with gates := gone, numValue := if again then 1 else 0 }
  match d.upChans s with
  | c :: _ => d.sendNumber s c 0
  | [] => d.segFail s 3

/-- The numbering failed once or twice on a channel (R188). -/
def Dev.numberAgain (d : Dev) (s : Nat) : Dev :=
  let x := d.sg s
  if x.numTry == 0 then d.sendNumber s x.numCh 1
  else if x.numCh == .a && (d.upChans s).contains .b then d.sendNumber s .b 0
  else d.segFail s 3

/-- Starts an exchange of DELAY requests on a channel. -/
def Dev.delayStart (d : Dev) (s : Nat) (c : Chan) (r : DelayRun) : Dev :=
  (d.modChan s c fun x => { x with run := some r }).emit (.delay s c r.pos)

/-- Measuring begins on every channel that is up (R190, R191). -/
def Dev.measureStart (d : Dev) (s : Nat) : Dev :=
  let d := d.setSg s { d.sg s with numStage := 0 }
  d.each (d.upChans s) fun d c => d.delayStart s c { pos := 1, last := d.gateCount s + 1 }

/-- The gates are numbered: GateCount; from a restart every gate counts as lost (R207, R212); the other channel is
verified (R189), or the measurement begins. -/
def Dev.numbered (d : Dev) (s n : Nat) : Dev :=
  let x := d.sg s
  let d := (d.setSg s { x with gates := x.gates.filter (·.1 ≤ n) }).wrSeg s 2 n
  let d := if d.rn (0x1120 + s) 7 0 == 0 then d else d.each (d.positions s) fun d p => d.gateMark s p
  let o := chOther x.numCh
  if (d.upChans s).contains o then d.sendVerify s 3 o 0 else d.measureStart s

/-- The other channel's Verify failed (R189). -/
def Dev.verifyAgain (d : Dev) (s : Nat) : Dev :=
  let x := d.sg s
  if x.numTry == 0 then d.sendVerify s 3 x.numCh 1 else (d.chanLost s x.numCh).measureStart s

/-! ### Budget in operation (R179, R205, R210) -/

/-- Applies R176 to R179 after a measurement of a cyclic segment; a broken budget loses the segment with code 08h. -/
def Dev.rebudget (d : Dev) (s : Nat) : Dev :=
  let d := d.budgetNote
  if d.frameRule s && d.budgetOk then d else ((d.raise 0x41 (leBytes s 1)).segLost s 8).budgetNote

/-- Records a ring latency, ps (1100h:6 or :7 in ns). -/
def Dev.setLatency (d : Dev) (s : Nat) (c : Chan) (ps : Nat) : Dev :=
  (d.modChan s c fun x => { x with latency := ps }).wr (0x1100 + s) (6 + (chNum c)) 0 ((ps + 500) / 1000 : Nat)

/-! ### Delay measurement (R190, R191, R202) -/

/-- Every exchange of the first measurement has ended: an unreachable gate fails the segment or loses the channel;
enumeration begins (R190, R193). -/
def Dev.measured (d : Dev) (s : Nat) : Dev :=
  let x := d.sg s
  let up := d.upChans s
  if (d.positions s).any fun p => up.all fun c => (x.chan c).deaf.contains p then d.segFail s 4
  else
    let d := d.each (up.filter fun c => !(x.chan c).deaf.isEmpty) fun d c => d.chanLost s c
    if d.upChans s == [] then d.segFail s 4
    else (d.setSg s { d.sg s with first := 1, badOnce := [] }).wrSeg s 1 3

/-- The next gate that waits to be measured again on a channel (R202: one gate per channel at a time). -/
def Dev.driftNext (d : Dev) (s : Nat) (c : Chan) : Dev :=
  match ((d.sg s).chan c).queue with
  | [] => d.modChan s c fun x => { x with run := none }
  | p :: r => (d.modChan s c fun x => { x with queue := r }).delayStart s c { pos := p, last := p, drift := true }

/-- True while gate `p` is being measured or waits for it on some channel. -/
def Seg.measuring (x : Seg) (p : Nat) : Bool :=
  chans.any fun c => (x.chan c).queue.contains p || (match (x.chan c).run with
    | some r => r.drift && r.pos == p
    | none => false)

/-- The exchange of a channel goes on to the next position, or ends. -/
def Dev.delayNext (d : Dev) (s : Nat) (c : Chan) (r : DelayRun) : Dev :=
  if r.drift then
    let d := d.driftNext s c
    if (d.sg s).measuring r.pos then d
    else
      let x := d.sg s
      let g := x.gate r.pos
      d.setSg s (x.setGate r.pos { g with measuring := false })
  else if r.pos < r.last then d.delayStart s c { r with pos := r.pos + 1, n := 0, sumT := 0, sumTa := 0, silent := false }
  else
    let d := d.modChan s c fun x => { x with run := none }
    if (d.sg s).a.run.isNone && (d.sg s).b.run.isNone then d.measured s else d

/-- Sixteen exchanges are done: DelaySet for a gate (R190), the ring latency for the position after the last (R191). -/
def Dev.delayDone (d : Dev) (s : Nat) (c : Chan) (r : DelayRun) : Dev :=
  if !r.drift && r.pos == d.gateCount s + 1 then (d.setLatency s c ((r.sumT + 8) / 16 + 100000)).delayNext s c r
  else
    let v := (r.sumT - r.sumTa + 16) / 32
    let x := d.sg s
    let g := x.gate r.pos
    let d := (d.setSg s (x.setGate r.pos { g with delaySetAt := if r.drift then some d.now else g.delaySetAt }))
    let d := (d.wr (0x1140 + s) (5 + (chNum c)) r.pos v).emit (.link s c 3 r.pos v)
    d.delayNext s c r

/-- A second silence (R190): the gate is unreachable on the channel. -/
def Dev.delaySilent (d : Dev) (s : Nat) (c : Chan) (r : DelayRun) : Dev :=
  let d := d.modChan s c fun x => { x with deaf := if x.deaf.contains r.pos then x.deaf else r.pos :: x.deaf }
  if r.drift then
    let all := (d.upChans s).all fun k => ((d.sg s).chan k).deaf.contains r.pos
    if all then d.segLost s 4 else (d.chanLost s c).delayNext s c r
  else d.delayNext s c r

/-! ### Enumeration and assignment (R193 to R198, R549) -/

/-- True for a valid gate descriptor (R194). -/
def descOk (b : Bytes) : Bool :=
  let sl := gSlots b
  let lenOk := fun n => 4 ≤ n && n ≤ 256 && (n - 4) % (4 * sl) == 0
  leAt b 0 4 != 0 && 1 ≤ sl && sl ≤ 8 && gKind b < 16 && lenOk (gIn b) && lenOk (gOut b)

/-- Last position of the range in progress (R193). -/
def Dev.rangeLast (d : Dev) (s : Nat) : Nat := min (d.gateCount s) ((d.sg s).first + 1007)

/-- Blocks of an enumeration or assignment frame (R193). -/
def Dev.rangeBlocks (d : Dev) (s : Nat) : Nat := 1 + (d.rangeLast s - (d.sg s).first + 1 + 15) / 16

/-- A value not yet used as ConfigTag (R198): the drawn one, or the least unused one. -/
def freshTag (used : List Nat) (q : Nat) : Nat :=
  let t := q % 0xFFFFFFFF + 1
  if used.contains t then (((List.range (used.length + 1)).map (· + 1)).find? fun n => !used.contains n).getD 1 else t

/-- The assignment built from the enumeration (R195). -/
def Dev.buildAsg (d : Dev) (s : Nat) : Tab AsgRec :=
  let pl := d.placement s
  let hold := d.rn (0x1120 + s) 6 0 % 256
  let safe := d.safetyGates s
  (List.zip pl.ins pl.outs).map fun q =>
    (q.1.1, { inOff := q.1.2.1, inLen := q.1.2.2, outOff := q.2.2.1, outLen := q.2.2.2
              safety := (safe.findIdx? (· == q.1.1)).getD 0xFF, hold := hold })

/-- Assignment begins (R195, R198, R209). -/
def Dev.assign (d : Dev) (s : Nat) (same : Bool) : Dev :=
  let x := d.sg s
  let recs := if same then x.lastAsg else d.buildAsg s
  let (tag, d) := if recs == x.lastAsg && x.lastTag != 0 then (x.lastTag, d)
    else
      let (q, d) := d.freeNat
      (freshTag x.tagsUsed q, d)
  let d := d.setSg s { x with
    asg := recs, tag := tag, lastAsg := recs, lastTag := tag
    tagsUsed := if x.tagsUsed.contains tag then x.tagsUsed else tag :: x.tagsUsed
    lastDesc := (d.positions s).map fun p => (p, (x.gate p).desc)
    first := 1, badOnce := [], tagged := false, frames := 0, goodFrames := 0 }
  let fb := (d.placement s).blocks + d.rn (0x1100 + s) 4 0
  ((d.wr (0x1100 + s) 8 0 fb).wr (0x1100 + s) 9 0 (d.inputEnd s / 1000 : Nat)).wrSeg s 1 4

/-- Every descriptor is valid: the records of 1140h, R209, the shape (R194, R549), checks 1 to 3, 5 and 6. -/
def Dev.enumerated (d : Dev) (s : Nat) : Dev :=
  let x := d.sg s
  let d := d.each (d.positions s) fun d p =>
    let b := (x.gate p).desc
    (((d.wr (0x1140 + s) 1 p (leAt b 0 4)).wr (0x1140 + s) 2 p (leAt b 4 2)).wr (0x1140 + s) 3 p (gSlots b)).wr
      (0x1140 + s) 4 p (gKind b)
  let held := !x.lastDesc.isEmpty && (d.mode == 3 || d.mode == 4 || d.mode == 5)
  let n := max (d.gateCount s) x.lastDesc.length
  let diff := ((List.range n).map (· + 1)).find? fun p =>
    ((x.gate p).desc).take 12 != (Tab.get x.lastDesc p []).take 12
  match (if held then diff else none) with
  | some p => (d.raise 0x4E (leBytes s 1 ++ leBytes p 2)).segFail s 5
  | none =>
    if !d.shapeOk s then (d.raise 0x4E (leBytes s 1 ++ leBytes 0 2)).segFail s 5
    else
      let ring := d.rn (0x1100 + s) 2 0 == 1
      let d := d.each ((d.upChans s).filter fun c => ring && (x.chan c).back == some .ds) fun d c =>
        d.raise 0x4C (leBytes s 1 ++ leBytes (chNum c) 1 ++ leBytes (d.gateCount s) 2)
      let d := d.budgetNote
      if d.placeOk s && d.frameRule s && d.budgetOk then d.assign s held
      else
        let d := (d.raise 0x41 (leBytes s 1)).segFail s 8
        (d.setSg s { d.sg s with a := { (d.sg s).a with latency := 0 }, b := { (d.sg s).b with latency := 0 } }).budgetNote

/-- An enumeration frame is judged (R194). -/
def Dev.enumJudge (d : Dev) (s : Nat) : Dev :=
  let x := d.sg s
  let last := d.rangeLast s
  let ps := ((List.range (last + 1 - x.first)).map (· + x.first)).filter fun p => (x.gate p).desc.isEmpty
  let good := ps.filter fun p => descOk (Tab.get x.got p [])
  let bad := ps.filter fun p => !descOk (Tab.get x.got p [])
  let y := good.foldl (fun (y : Seg) p => y.setGate p { y.gate p with desc := Tab.get x.got p [] }) x
  if bad.any x.badOnce.contains then (d.setSg s y).segFail s 5
  else if !bad.isEmpty then d.setSg s { y with badOnce := x.badOnce ++ bad }
  else
    let d := d.setSg s { y with first := last + 1, badOnce := [] }
    if d.gateCount s ≤ last then d.enumerated s else d

/-- An assignment frame is judged (R196). -/
def Dev.assignJudge (d : Dev) (s : Nat) : Dev :=
  let x := d.sg s
  let last := d.rangeLast s
  let bad := ((List.range (last + 1 - x.first)).map (· + x.first)).filter fun p => byteAt (Tab.get x.got p []) 10 != 0xA5
  match bad.find? x.badOnce.contains with
  | some p => (d.raise 0x50 (leBytes s 1 ++ leBytes p 2)).segFail s 6
  | none =>
    if !bad.isEmpty then d.setSg s { x with badOnce := x.badOnce ++ bad }
    else
      let done := decide (d.gateCount s ≤ last)
      d.setSg s { x with first := if done then 1 else last + 1, badOnce := [], tagged := done }

/-! ### Judging a returned frame (R165, R197, R202 to R207) -/

/-- True when block `j` of a copy was good. -/
def Copy.ok (c : Copy) (j : Nat) : Bool := c.good.contains j

/-- Blocks good on no channel in use. -/
def Dev.blockBad (d : Dev) (s j : Nat) : Bool := !(chans.any fun c => d.inUse s c && ((d.sg s).chan c).copy.ok j)

/-- Blocks that failed on one channel only are counted in 1100h:10 and :11 (R165). -/
def Dev.countBlocks (d : Dev) (s : Nat) : Dev :=
  let x := d.sg s
  d.each chans fun d c =>
    let k := (x.chan c).copy
    let n := ((List.range x.blocks).filter fun j =>
      d.inUse s c && k.sof && !k.ok j && (x.chan (chOther c)).copy.ok j).length
    d.add (0x1100 + s) (10 + (chNum c)) 0 n

/-- The frame fault (R204). -/
def Dev.judgeFrame (d : Dev) (s : Nat) : Dev :=
  let x := d.sg s
  if d.blockBad s 0 then
    if x.frameInc then (d.lasting (0x8102 + s)).segLost s 7 else d.setSg s { x with frameInc := true }
  else if x.frameInc then (d.setSg s { x with frameInc := false }).transient (0x8102 + s)
  else d

/-- The channel fault (R204) and the return of a lost channel (R207). -/
def Dev.judgeChan (d : Dev) (s : Nat) (c : Chan) : Dev :=
  let x := d.sg s
  let y := x.chan c
  let bad := !y.copy.sof || !y.copy.ok 0
  if !d.inUse s c || d.segState s != 5 then d
  else if !d.chUp s c then
    let n := if (List.range x.blocks).all y.copy.ok then y.goodRun + 1 else 0
    if n < 16 then d.modChan s c fun y => { y with goodRun := n }
    else
      let d := (d.modChan s c fun y => { y with goodRun := 0, lost := false, query := none }).wrSeg s (10 + (chNum c)) 0
      (d.wrSeg s 3 (setBit (d.rn (0x1120 + s) 3 0) (chNum c) true)).raise 0x49 (leBytes s 1 ++ leBytes (chNum c) 1)
  else if y.incident then
    if bad then d.chanLost s c
    else (d.modChan s c fun y => { y with incident := false }).inc (0x1120 + s) 4 0
  else if bad && d.inUse s (chOther c) && (x.chan (chOther c)).copy.ok 0 then d.modChan s c fun y => { y with incident := true }
  else d

/-- The block fault (R165, R204). -/
def Dev.judgeBlock (d : Dev) (s j : Nat) : Dev :=
  let x := d.sg s
  if d.segState s != 5 then d
  else if j < x.blocks && d.blockBad s j then
    if x.blockLast.contains j then d
    else if x.blockInc.contains j then
      let d := d.setSg s { x with blockInc := x.blockInc.filter (· != j), blockLast := j :: x.blockLast }
      let d := (d.lasting (0x8102 + s)).raise 0x44 (leBytes s 1 ++ leBytes j 1)
      d.each ((x.asg.filter fun r => r.2.inOff / 256 == j).map (·.1)) fun d p => d.gateLost s p
    else d.setSg s { x with blockInc := j :: x.blockInc }
  else
    let d := d.setSg s { x with blockInc := x.blockInc.filter (· != j), blockLast := x.blockLast.filter (· != j) }
    if x.blockInc.contains j then d.transient (0x8102 + s) else d

/-- A drift fault (R202, R203): event 4Bh, counts, Remeasure and the exchanges again; a second one within 10 s of a
DelaySet loses the gate. -/
def Dev.driftFault (d : Dev) (s p : Nat) : Dev :=
  let g := (d.sg s).gate p
  let d := ((d.raise 0x4B (leBytes s 1 ++ leBytes p 2)).inc (0x1140 + s) 8 p).lasting (0x8102 + s)
  let soon := match g.delaySetAt with
    | some t => decide (d.now ≤ t + 10 * sec)
    | none => false
  if soon then d.gateLost s p
  else
    let x := d.sg s
    let d := d.setSg s (x.setGate p { g with incident := none, measuring := true })
    d.each (d.upChans s) fun d c =>
      let d := d.emit (.link s c 4 p 0)
      let d := d.modChan s c fun y => { y with queue := y.queue ++ [p], deaf := y.deaf.filter (· != p) }
      if ((d.sg s).chan c).run.isSome then d else d.driftNext s c

/-- The incident on a gate's window (R202, R204) and the return of a lost gate (R207). -/
def Dev.judgeGate (d : Dev) (s p : Nat) : Dev :=
  let x := d.sg s
  let g := x.gate p
  let valid := g.data.isSome
  let late := g.lateA || g.lateB
  let off := (Tab.get x.asg p ⟨0, 0, 0, 0, 0, 0⟩).inOff
  let put (g : GateSt) (d : Dev) : Dev := d.setSg s (x.setGate p g)
  if d.segState s != 5 then d
  else if d.blockBad s (off / 256) then put { g with incident := none, goodRun := if g.lost then 0 else g.goodRun } d
  else if g.lost then
    if !valid then put { g with goodRun := 0 } d
    else if g.goodRun + 1 < 16 then put { g with goodRun := g.goodRun + 1 } d
    else
      (((put { g with lost := false, goodRun := 0 } d).wr (0x1140 + s) 11 p 0).signal (.gateBack s p)).raise 0x51
        (leBytes s 1 ++ leBytes p 2)
  else
    let d := if valid && late then d.inc (0x1140 + s) 9 p else d
    let put (g : GateSt) (d : Dev) : Dev := d.setSg s ((d.sg s).setGate p g)
    match g.incident with
    | some .late =>
      if valid then
        let due := match g.lateAt with
          | some t => decide (t + sec ≤ d.now)
          | none => true
        let d := put { g with incident := none, lateAt := if due then some d.now else g.lateAt } d
        let d := (d.inc (0x1140 + s) 7 p).transient (0x8102 + s)
        if due then d.raise 0x4A (leBytes s 1 ++ leBytes p 2) else d
      else (put { g with incident := none } d).driftFault s p
    | some .missing =>
      if valid then (put { g with incident := none } d).inc (0x1140 + s) 10 p
      else (put { g with incident := none } d).gateLost s p
    | none =>
      if valid then d
      else if late then (if g.measuring then d else put { g with incident := some .late } d)
      else put { g with incident := some .missing } d

/-- A segment's first cyclic frames (R197): 8 consecutive frames with every window valid enter state 5; every gate counts
as present (R207). -/
def Dev.judgeEntry (d : Dev) (s : Nat) : Dev :=
  let x := d.sg s
  let ok := (d.positions s).all fun p => (x.gate p).data.isSome
  let n := if ok then x.goodFrames + 1 else 0
  let d := d.setSg s { x with frames := x.frames + 1, goodFrames := n }
  if n < 8 then d
  else
    let d := ((d.setSg s { d.sg s with autoAt := 0 }).wrSeg s 1 5).raise 0x42 []
    d.each (d.positions s) fun d p =>
      let y := d.sg s
      let g := y.gate p
      ((d.setSg s (y.setGate p { g with lost := false, goodRun := 0, incident := none })).wr (0x1140 + s) 11 p 0).signal
        (.gateBack s p)

/-- Decides a window (R163): handed on, null when `data` is none. -/
def Dev.decideWin (d : Dev) (s p : Nat) (data : Option Bytes) (flags : Nat) : Dev :=
  let x := d.sg s
  let g := x.gate p
  if g.decided then d
  else (d.setSg s (x.setGate p { g with decided := true, waiting := false, data := data, flags := flags })).signal
    (.window s p data flags)

/-- Replies that did not come in the rotation window of the frame (R170, R171). -/
def Dev.missedReplies (d : Dev) (s : Nat) : Dev :=
  let x := d.sg s
  let n := d.safetyN s
  if n == 0 || x.kind != 1 then d
  else
    d.each (((List.range (replyCount n)).map fun r => (x.replyFirst + r) % n).filter fun i => !x.replied.contains i)
      fun d i => d.signal (.noReply s i)

/-- The frame on its way is judged: windows still open are null; the faults are classified in state 5. -/
def Dev.judge (d : Dev) (s : Nat) : Dev :=
  let x := d.sg s
  if !x.launched || x.judged then d
  else
    let d := d.setSg s { x with judged := true }
    let d := d.countBlocks s
    if x.kind == 2 then d.enumJudge s
    else if x.kind == 3 then d.assignJudge s
    else
      let d := d.each (d.positions s) fun d p => d.decideWin s p none (((d.sg s).gate p).flags)
      let d := d.missedReplies s
      if d.segState s == 4 then d.judgeEntry s
      else if d.segState s != 5 then d
      else
        let d := d.judgeFrame s
        let d := d.each chans fun d c => d.judgeChan s c
        let d := d.each (List.range 64) fun d j => d.judgeBlock s j
        d.each (d.positions s) fun d p => d.judgeGate s p

/-- Judges the frame once every copy in use has ended or timed out. -/
def Dev.judgeIfDone (d : Dev) (s : Nat) : Dev :=
  let x := d.sg s
  if (chans.filter fun c => d.inUse s c).all fun c => (x.chan c).copy.done || (x.chan c).copy.timedOut then d.judge s else d

/-! ### Taking the frame back (R150, R163, R164, R168 to R174) -/

/-- True for a good block (R150): `j` its place, `n` the blocks of the frame. -/
def blockGood (b : Bytes) (j n : Nat) (corrupted : Bool) : Bool :=
  !corrupted && b.length == 264 && byteAt b 256 == j && byteAt b 257 == (if j + 1 == n then 1 else 0) &&
    crc16 (b.take 262) == leAt b 262 2

/-- The virtual prefix (R169). -/
def virtualPrefix (s : Nat) : Bytes := leBytes headId 6 ++ leBytes s 2

/-- A LoopBack that newly appears (R205): event 4Ch, the latency raised to the arrival, the budget applied. -/
def Dev.loopSeen (d : Dev) (s p : Nat) (c : Chan) : Dev :=
  let y := (d.sg s).chan c
  let d := d.raise 0x4C (leBytes s 1 ++ leBytes (chNum c) 1 ++ leBytes p 2)
  (d.setLatency s c (max y.latency (y.copy.sofAt - (d.sg s).launchAt))).rebudget s

/-- One input window of a good block on channel `c` (R152, R163, R164). -/
def Dev.windowAt (d : Dev) (s p : Nat) (c : Chan) (w : Bytes) : Dev :=
  let x := d.sg s
  let g := x.gate p
  let valid := byteAt w 0 == 0xA5
  let fits := leAt w 2 2 == x.cycle % 65536
  let fl := byteAt w 1
  let due := match g.mismatchAt with
    | some t => decide (t + sec ≤ d.now)
    | none => true
  let wrong := valid && !fits && due
  let loop := bit fl 3
  let before := match c with
    | .a => g.loopA
    | .b => g.loopB
  let late := bit fl 0 && !(valid && fits)
  let g := { g with
    mismatchAt := if wrong then some d.now else g.mismatchAt
    lateA := g.lateA || (late && c == .a), lateB := g.lateB || (late && c == .b)
    loopA := if c == .a && valid && fits then loop else g.loopA
    loopB := if c == .b && valid && fits then loop else g.loopB }
  let d := d.setSg s (x.setGate p g)
  let d := if wrong then d.raise 0x45 (leBytes s 1 ++ leBytes p 2) else d
  let d := if valid && fits && loop && !before && d.segState s == 5 then d.loopSeen s p c else d
  if valid && fits then d.decideWin s p (some (w.drop 4)) fl
  else
    let o := chOther c
    let y := (d.sg s).chan o
    let j := (Tab.get x.asg p ⟨0, 0, 0, 0, 0, 0⟩).inOff / 256
    if !d.inUse s o || !d.chUp s o || y.copy.timedOut || y.copy.done || y.copy.good.contains j || y.copy.bad.contains j then
      d.decideWin s p none fl
    else d.setSg s ((d.sg s).setGate p { (d.sg s).gate p with waiting := true, flags := fl })

/-- The windows of block `j` on channel `c` when the block failed (R163): a waiting window is decided null, and so is one
whose other copy is not to come. -/
def Dev.windowBad (d : Dev) (s p : Nat) (c : Chan) (j : Nat) : Dev :=
  let g := (d.sg s).gate p
  let o := chOther c
  let y := ((d.sg s).chan o).copy
  if g.waiting || !d.inUse s o || !d.chUp s o || y.bad.contains j || y.done || y.timedOut then d.decideWin s p none g.flags
  else d

/-- Safety replies of a good first acyclic block (R168, R171). -/
def Dev.takeReplies (d : Dev) (s : Nat) (b : Bytes) : Dev :=
  let n := d.safetyN s
  let base := 16 + roundUp n 4
  d.each (List.range (replyCount n)) fun d r =>
    let x := d.sg s
    let w := slice b (base + 8 * r) 8
    let i := (x.replyFirst + r) % n
    if x.replied.contains i || byteAt w 1 != i || crc32 (virtualPrefix s ++ w.take 4) != leAt w 4 4 then d
    else (d.setSg s { x with replied := i :: x.replied }).signal (.reply s i (byteAt w 0) (leAt w 2 2))

/-- The upstream object slot (R172 to R174), once every block it touches is good on channel `c`. -/
def Dev.takeUp (d : Dev) (s : Nat) (c : Chan) : Dev :=
  let x := d.sg s
  let acyc := d.rn (0x1100 + s) 4 0
  let n := d.safetyN s
  let so := slotLen acyc n
  let off := containerLen n + so
  let k := (x.chan c).copy
  let j0 := x.blocks - acyc
  let need := (List.range acyc).filter fun j => j * 256 < off + so && off < (j + 1) * 256
  if x.upDone || so < 20 || !need.all (fun j => k.ok (j0 + j)) then d
  else
    let area := (List.range acyc).flatMap fun j => fit (Tab.get k.acyclic (j0 + j) []) 256
    let w := slice area off so
    let x := { x with upDone := true }
    if byteAt w 0 != 2 then d.setSg s x
    else
      let p := leAt w 2 2 % 4096
      let f := byteAt w 1 % 128
      let body := w.drop 4
      let done := bit (byteAt w 1) 7
      let asm : Option Bytes := if f == 0 then some body else match x.up with
        | some (q, m) => if q == p && m.next == f then some (m.data ++ body) else none
        | none => none
      match asm with
      | none => d.setSg s { x with up := none }
      | some m =>
        if done then (d.setSg s { x with up := none }).signal (.response s p (m.take (16 + leAt m 14 2)))
        else d.setSg s { x with up := some (p, { next := f + 1, data := m }) }

/-- A returning frame block (R150, R163). -/
def Dev.frameBlock (d : Dev) (s : Nat) (c : Chan) (b : Bytes) (corrupted : Bool) : Dev :=
  let x := d.sg s
  let y := x.chan c
  let k := y.copy
  if d.md.fieldReset || !x.launched || !k.sof || k.done || x.blocks ≤ k.idx || !d.inUse s c then d
  else
    let j := k.idx
    let good := blockGood b j x.blocks corrupted
    let acyc := d.rn (0x1100 + s) 4 0
    let isAcy := x.kind == 1 && x.blocks ≤ j + acyc
    let k := { k with
      idx := j + 1, good := if good then j :: k.good else k.good, bad := if good then k.bad else j :: k.bad
      crc := (fit b 264).foldl crc32Byte k.crc
      acyclic := if good && isAcy then Tab.put k.acyclic j (b.take 256) else k.acyclic }
    let d := d.modChan s c fun y => { y with copy := k }
    if x.judged then d
    else if x.kind != 1 then
      if !good || j == 0 then d
      else
        let last := d.rangeLast s
        let ps := ((List.range 16).map fun n => (x.first + 16 * (j - 1) + n, n)).filter fun q => q.1 ≤ last
        d.each ps fun d q =>
          let z := d.sg s
          if (Tab.find z.got q.1).isSome then d
          else d.setSg s { z with got := Tab.put z.got q.1 (slice b (16 * q.2) 16) }
    else
      let d := if good && j == 0 && bit (byteAt b 15) 0 && !x.trigSent && !x.trigSeen then
          (d.setSg s { d.sg s with trigSeen := true }).signal (.trigger s x.cycle) else d
      let d := d.each (x.asg.filter fun r => r.2.inOff / 256 == j) fun d r =>
        if good then d.windowAt s r.1 c (slice b (r.2.inOff % 256) r.2.inLen) else d.windowBad s r.1 c j
      if good && isAcy then
        let d := if j + acyc == x.blocks && 0 < d.safetyN s then d.takeReplies s b else d
        d.takeUp s c
      else d

/-- EOF of a returning copy (R144, R166). -/
def Dev.frameEof (d : Dev) (s : Nat) (c : Chan) (crc : Nat) : Dev :=
  let x := d.sg s
  let k := (x.chan c).copy
  if d.md.fieldReset || !x.launched || !k.sof || k.done then d
  else
    let miss := (List.range x.blocks).filter fun j => k.idx ≤ j
    let k := { k with done := true, bad := k.bad ++ miss }
    let d := d.modChan s c fun y => { y with copy := k }
    let d := if k.bad.isEmpty && Nat.xor k.crc 0xFFFFFFFF != crc then
        (d.raise 0x43 (leBytes s 1 ++ leBytes (chNum c) 1)).inc (0x1100 + s) 12 0 else d
    let d := if x.judged || x.kind != 1 then d
      else d.each (x.asg.filter fun r => miss.contains (r.2.inOff / 256)) fun d r => d.windowBad s r.1 c (r.2.inOff / 256)
    d.judgeIfDone s

/-- An SOF at the head (R184, R205). -/
def Dev.sofAt (d : Dev) (s : Nat) (c : Chan) (ident : Nat) : Dev :=
  let x := d.sg s
  let y := x.chan c
  if d.md.fieldReset then d
  else if d.segState s == 1 then (if ident != headId then d.concede s ident else d)
  else if ident != headId || !x.launched || y.copy.sof || y.copy.timedOut || !d.inUse s c then d
  else
    let arr := d.now - x.launchAt
    let d := d.modChan s c fun y => { y with copy := { y.copy with sof := true, sofAt := d.now } }
    if d.segState s != 5 || y.latency == 0 then d
    else if y.latency + 50000 < arr then
      if y.lateRun == 0 then d.modChan s c fun y => { y with lateRun := 1, lateMax := arr }
      else
        let d := d.modChan s c fun y => { y with lateRun := 0 }
        let d := (d.setLatency s c (max arr y.lateMax)).raise 0x4F (leBytes s 1 ++ leBytes (chNum c) 1)
        d.rebudget s
    else d.modChan s c fun y => { y with lateRun := 0 }

/-! ### What each command does -/

/-- SEGMENT_START (R182). -/
def segmentStartAt (s : Nat) (d : Dev) : Dev :=
  if d.md.fieldReset || !(d.sg s).startDue then d else d.segStart s

/-- BLOCK_LOCK_ACQUIRED (R182). -/
def blockLockAt (s : Nat) (c : Chan) (d : Dev) : Dev :=
  if d.md.fieldReset || d.segState s == 0 then d
  else
    let d := d.modChan s c fun y => { y with locked := true }
    if d.segState s == 1 && (d.sg s).round == 0 && !(d.sg s).startDue &&
        (chans.all fun k => !d.inUse s k || ((d.sg s).chan k).locked) then d.claimBegin s
    else d

/-- BLOCK_LOCK_TIMEOUT (R182). -/
def blockLockLost (s : Nat) (d : Dev) : Dev :=
  let x := d.sg s
  if d.md.fieldReset || d.segState s != 1 || x.round != 0 || x.startDue || d.now < x.startAt + 100 * ms then d
  else if chans.any fun c => d.inUse s c && (x.chan c).locked then d.claimBegin s
  else d.segFail s 1

/-- CLAIM_ROUND (R183). -/
def claimRoundAt (s : Nat) (d : Dev) : Dev :=
  let x := d.sg s
  if d.md.fieldReset || d.segState s != 1 || x.round == 0 || 3 ≤ x.round || d.now < x.roundAt + ms then d
  else d.claimRound s (x.round + 1)

/-- RECEIVE_CLAIM (R184, R185). -/
def claimAt (s : Nat) (c : Chan) (p : Port) (ident : Nat) (d : Dev) : Dev :=
  let st := d.segState s
  if d.md.fieldReset || st == 0 || 6 ≤ st then d
  else if ident == headId then d.modChan s c fun y => { y with back := some p }
  else if st == 1 && ident < headId then d.concede s ident
  else d.inc (0x1120 + s) 9 0

/-- CLAIM_WON (R185). -/
def claimWonAt (s : Nat) (d : Dev) : Dev :=
  let x := d.sg s
  if d.md.fieldReset || d.segState s != 1 || x.round != 3 || d.now < x.roundAt + ms then d
  else (d.setSg s { x with round := 0 }).numberStart s

/-- RECEIVE_LINK_NUMBER (R188). -/
def linkNumberAt (s : Nat) (c : Chan) (v : Nat) (d : Dev) : Dev :=
  let x := d.sg s
  if d.md.fieldReset || d.segState s != 2 || x.numStage != 1 || c != x.numCh then d
  else if v == 1 then d.segFail s 2
  else if 2 ≤ v && v ≤ 4096 then (d.setSg s { x with numValue := v }).sendVerify s 2 c x.numTry
  else d.numberAgain s

/-- RECEIVE_LINK_VERIFY (R188, R189). -/
def linkVerifyAt (s : Nat) (c : Chan) (v : Nat) (d : Dev) : Dev :=
  let x := d.sg s
  if d.md.fieldReset || d.segState s != 2 || c != x.numCh then d
  else if x.numStage == 2 then (if v == x.numValue then d.numbered s (v - 1) else d.numberAgain s)
  else if x.numStage == 3 then (if v == d.gateCount s + 1 then d.measureStart s else d.verifyAgain s)
  else d

/-- LINK_RETURN_TIMEOUT (R188). -/
def linkTimeoutAt (s : Nat) (d : Dev) : Dev :=
  let x := d.sg s
  if d.md.fieldReset || d.segState s != 2 || x.numStage == 0 || d.now < x.linkAt + ms then d
  else if x.numStage == 3 then d.verifyAgain s else d.numberAgain s

/-- RECEIVE_DELAY_RESPONSE (R190, R191). -/
def delayRespAtSeg (s : Nat) (c : Chan) (pos : Nat) (isResp : Bool) (trt ta : Nat) (d : Dev) : Dev :=
  match ((d.sg s).chan c).run with
  | none => d
  | some r =>
    let last := !r.drift && r.pos == d.gateCount s + 1
    if d.md.fieldReset || r.pos != pos || isResp == last then d
    else
      let r := { r with n := r.n + 1, sumT := r.sumT + trt, sumTa := r.sumTa + ta, silent := false }
      if r.n < 16 then d.delayStart s c r else d.delayDone s c r

/-- DELAY_TIMEOUT (R190). -/
def delayTimeoutAt (s : Nat) (c : Chan) (d : Dev) : Dev :=
  match ((d.sg s).chan c).run with
  | none => d
  | some r =>
    if d.md.fieldReset then d
    else if r.silent then d.delaySilent s c r else d.delayStart s c { r with silent := true }

/-- CYCLIC_WAIT_EXPIRY (R197). -/
def cyclicWaitAt (s : Nat) (d : Dev) : Dev :=
  let x := d.sg s
  if d.md.fieldReset || d.segState s != 4 || !x.tagged || x.frames < 64 then d else d.segFail s 7

/-- RECEIVE_PORT_REPORT (R207). -/
def portReportAt (s : Nat) (c : Chan) (pos lockBits : Nat) (d : Dev) : Dev :=
  if d.md.fieldReset || ((d.sg s).chan c).query != some pos then d
  else if !bit lockBits 1 then
    (d.modChan s c fun y => { y with query := none }).wrSeg s (10 + (chNum c)) pos
  else if pos < d.gateCount s then
    (d.modChan s c fun y => { y with query := some (pos + 1) }).emit (.link s c 5 (pos + 1) 0)
  else d.modChan s c fun y => { y with query := none }

/-- PORT_QUERY_TIMEOUT (R207). -/
def portQueryLost (s : Nat) (c : Chan) (d : Dev) : Dev :=
  match ((d.sg s).chan c).query with
  | some pos => if d.md.fieldReset then d
    else (d.modChan s c fun y => { y with query := none }).wrSeg s (10 + (chNum c)) pos
  | none => d

/-- AUTO_RESTART_TIMER (R208). -/
def autoRestartAt (s : Nat) (d : Dev) : Dev :=
  let x := d.sg s
  if d.md.fieldReset || d.segState s != 6 || !bit (d.rn (0x1120 + s) 6 0) 8 || d.now < x.autoAt || d.mode < 2 then d
  else (d.setSg s { x with autoAt := d.now + sec }).segRestart s

/-- SOF_RETURN_TIMEOUT (R204). -/
def sofTimeoutAt (s : Nat) (c : Chan) (d : Dev) : Dev :=
  let x := d.sg s
  let y := x.chan c
  if d.md.fieldReset || !x.launched || y.copy.sof || d.now < x.launchAt + y.latency + us then d
  else (d.modChan s c fun y => { y with copy := { y.copy with timedOut := true } }).judgeIfDone s

/-- WINDOW_WAIT_EXPIRY (R163): 200 ns after the block of the window was due on the channel that did not bring it. -/
def windowWaitAt (s p : Nat) (d : Dev) : Dev :=
  let x := d.sg s
  let g := x.gate p
  let j := (Tab.get x.asg p ⟨0, 0, 0, 0, 0, 0⟩).inOff / 256
  let other := chans.find? fun c => d.inUse s c && !(x.chan c).copy.ok j
  let due := x.launchAt + ((other.map fun c => (x.chan c).latency).getD 0) + d.ser (1 + 33 * (j + 1)) + 200000
  if d.md.fieldReset || !x.launched || !g.waiting || d.now < due then d else d.decideWin s p none g.flags

/-- A change of Enabled by a commit of the cycle group (R182). -/
def Dev.segEnabledChange (d : Dev) (s : Nat) : Dev :=
  if d.rb (0x1100 + s) 1 0 then
    if d.segState s == 0 && d.tm.running then d.setSg s { d.sg s with startDue := true } else d
  else (d.setSg s { d.sg s with launched := false, startDue := false }).wrSeg s 1 0

/-- Judgement of a write to Restart and to element 6 (R208, R211): its status. -/
def segCheck (d : Dev) (s e v : Nat) : Nat :=
  let st := d.segState s
  if e == 5 && v == 1 then
    if st == 0 then 5
    else if d.rb (0x1100 + s) 5 0 && (d.mode == 3 || d.mode == 4) then 5
    else if 1 ≤ st && st ≤ 4 then 9 else 0
  else if e == 6 && (v % 256 == 0 || v ≥ 512) then 6
  else 0

end Sys2Proof.Machine
end

