-- ==== Sys2Proof/Machine/Groups.lean ====
section
/-! DEFINITION. The linked groups: the cross-member checks of each commit record, in the order of the owning chapter, and
what an applied commit sets going (R103, R120, R122, R176, R228 to R230, R241, R242, R258, R271, R324 to R326, R330, R348,
R361, R373, R392, R433, R446, R465, R479). -/

namespace Sys2Proof.Machine

/-- The first failing member: object, element, instance (FFFFh for an object without instances). -/
abbrev Fail := Option (Nat × Nat × Nat)

/-- The first failing check of a list, with its member. -/
def firstFail (cs : List (Bool × (Nat × Nat))) : Option (Nat × Nat) := (cs.find? fun c => !c.1).map (·.2)

/-- True when every member of the group of a commit record is RWP; the groups of the spec are so throughout or not at all. -/
def groupRwp (g : Nat) : Bool :=
  [0x1020, 0x1021, 0x1022, 0x1027, 0x1028, 0x102A, 0x1030, 0x1031, 0x1032, 0x1033, 0x1034].contains g

/-! ### Law structure (R241) -/

/-- Slots of line units: segment, position, slot. -/
def Dev.unitSlots (d : Dev) : List (Nat × Nat × Nat) :=
  d.units.flatMap fun u => (d.convs u).map fun c => c.2

/-- The binding of axis `a`. -/
def Dev.axBind (d : Dev) (a : Nat) : Nat × Nat × Nat := (d.axSeg a, d.axPos a, d.axSlot a)

/-- The descriptor of the gate at a position, empty where none is enumerated. -/
def Dev.gateDesc (d : Dev) (s p : Nat) : Bytes :=
  if 1 ≤ p && p ≤ d.gateCount s then ((d.sg s).gate p).desc else []

/-- Check 1 of R241, with R296. -/
def Dev.bindFail (load : Bool) (d : Dev) (a : Nat) : Option (Nat × Nat) :=
  if !d.rb 0x2000 1 a then none
  else
    let g := d.gateDesc (d.axSeg a) (d.axPos a)
    let held := (d.enabledAxes.any fun b => b != a && d.axBind b == d.axBind a) || d.unitSlots.contains (d.axBind a)
    firstFail [(load || !g.isEmpty, (0x2000, 3)), (load || decide (d.axSlot a < gSlots g), (0x2000, 4)), (!held, (0x2000, 4))]

/-- Check 2 of R241, with the last paragraph of R392: the fields of the slot and of bound channels. -/
def Dev.fieldFail (load : Bool) (d : Dev) (a : Nat) : Option (Nat × Nat) :=
  let g := d.gateDesc (d.axSeg a) (d.axPos a)
  let one (i : Nat) : Bool :=
    let x := d.rn 0x2020 (1 + i) a
    let f := bits x 11 8
    f == 0 || (f ≤ 6 && x < 4096 && bits x 7 0 % fmtSize f == 0 &&
      (load || !d.rb 0x2000 1 a || g.isEmpty || bits x 7 0 + fmtSize f ≤ gLi g))
  let bound (i : Nat) : Bool :=
    (List.range 8).all fun c =>
      if d.rn 0x2700 13 c != a then true
      else
        (d.rn 0x2700 14 c != i || (d.rb 0x2000 1 a && bits (d.rn 0x2020 (1 + i) a) 11 8 == 3)) &&
        (d.rn 0x2700 15 c != i || (d.rb 0x2000 1 a && bits (d.rn 0x2020 (1 + i) a) 11 8 == 6))
  firstFail ((List.range 8).map fun i => (one i && bound i, (0x2020, 1 + i)))

/-- A selector that stage `s` may name (R223). -/
def selOk (s v : Nat) : Bool := v < s || (16 ≤ v && v ≤ 23) || (32 ≤ v && v ≤ 36) || v == 47

/-- A wrap32 operand: the position set-point or an input field of format I32 or U32. -/
def Dev.wrapOk (d : Dev) (a v : Nat) : Bool :=
  v == 32 || (16 ≤ v && v ≤ 23 && (let f := bits (d.rn 0x2020 (v - 15) a) 11 8; f == 3 || f == 4))

/-- Kinds that may be scheduled. -/
def schedulable (k : Nat) : Bool := [kPi, kPid, kLead, kBiquad, kGain, kLimit, kRate, kFf].contains k

/-- Check 3 of R241 for stage `s`. -/
def Dev.stageOk (d : Dev) (a s : Nat) : Bool :=
  let x := d.stage a s
  let k := stKind x
  let before := List.range s
  if d.stageCount a ≤ s then x == 0
  else
    1 ≤ k && k ≤ kOut && bits x 7 5 == 0 && bits x 31 28 == 0 && selOk s (stA x) &&
    (if k == kSum then
      stMode x ≤ 1 && selOk s (stB x) && (stMode x == 0 || (d.wrapOk a (stA x) && d.wrapOk a (stB x)))
    else if k == kLimit then
      stMode x == 0 && (stB x == 255 || (stB x < s && (let t := stKind (d.stage a (stB x)); t == kPi || t == kPid)))
    else if k == kOut then true
    else stB x == 255 && stMode x ≤ (if k == kNotch then 3 else 0)) &&
    (k != kSched || before.all fun i => stKind (d.stage a i) != kSched) &&
    (!stSched x || (schedulable k && before.any fun i => stKind (d.stage a i) == kSched))

/-- Check 4 of R241 for stage `s` (R226, R368): an OUT stage. -/
def Dev.outOk (load : Bool) (d : Dev) (a s : Nat) : Bool :=
  let x := d.stage a s
  let g := d.gateDesc (d.axSeg a) (d.axPos a)
  if d.stageCount a ≤ s || stKind x != kOut then true
  else
    let f := stMode x
    let o := stB x
    let outs := (List.range (d.stageCount a)).filter fun i => stKind (d.stage a i) == kOut
    1 ≤ f && f ≤ 7 && (load || !d.rb 0x2000 1 a || g.isEmpty || o + fmtSize f ≤ gLo g) &&
    ((outs.filter fun i => i < s).all fun i =>
      let y := d.stage a i
      o + fmtSize f ≤ stB y || stB y + fmtSize (stMode y) ≤ o) &&
    (f != 7 || (stA x == 32 && outs.length == 1))

/-- R233 for a term of axis `b`. -/
def Dev.termOk (d : Dev) (b : Nat) (t : Term) : Bool :=
  t.src != b && t.src < 512 && d.rb 0x2000 1 t.src && t.srcStage < d.stageCount t.src &&
    stKind (d.stage t.src t.srcStage) != kOut && t.target < d.stageCount b && stKind (d.stage b t.target) == kSum

/-- R122 for a source and a target axis: the dividers, then the phases. -/
def Dev.divOk (d : Dev) (src tgt : Nat) : Bool := d.divider tgt % d.divider src == 0
def Dev.phaseOk (d : Dev) (src tgt : Nat) : Bool := d.phase tgt % d.divider src == d.phase src

/-- R234 for a term. -/
def Dev.levelOk (d : Dev) (b : Nat) (t : Term) : Bool := d.level t.src ≤ 6 && d.divOk t.src b && d.phaseOk t.src b

/-- Checks 6 and 7 of R241. -/
def Dev.couplingFail (d : Dev) (a : Nat) : Option (Nat × Nat) :=
  let en := d.rb 0x2000 1 a
  let own := if !en then [] else (d.terms a).map fun t =>
    (bits (d.rn 0x2120 (1 + t.j) a) 30 20 == 0 && bits (d.rn 0x2120 (1 + t.j) a) 11 10 == 0 && d.termOk a t && d.levelOk a t,
      (0x2120, 1 + t.j))
  let others := d.enabledAxes.filter (· != a)
  let good := others.all fun b => (d.terms b).all fun t =>
    if t.src == a then d.termOk b t && d.levelOk b t else d.level t.src ≤ 6
  firstFail (own ++ [(good, if en then (0x2100, 1) else (0x2000, 1))])

/-- `d` with the stage parameters of stage `s` of axis `a` at the kind's defaults. -/
def Dev.dropParams (d : Dev) (a s : Nat) : Dev :=
  { d with ob.od := d.ob.od.filter fun p => !(p.1 / 16777216 == 0x2140 + s && p.1 % 65536 == a) }

/-- Stages whose kind differs between `old` and `d`. -/
def kindChanged (old d : Dev) (a : Nat) : List Nat :=
  (List.range 16).filter fun s => stKind (old.stage a s) != stKind (d.stage a s)

/-- Check 8 of R241, with R242: parameters of stages of a new kind are the defaults. -/
def newKindFail (old d : Dev) (a : Nat) : Option (Nat × Nat) :=
  let d' := (kindChanged old d a).foldl (fun x s => x.dropParams a s) d
  firstFail ((List.range (d.stageCount a)).map fun s =>
    (((if stKind (d.stage a s) == kNotch then (d'.notchFail a (d'.axisT a)) else
      d'.stageParFail a s (stKind (d.stage a s)) (d'.parV a s)).isNone), (0x2100, 2 + s)))

/-- R258: the budget with the ComputeTail of the values in `d`. -/
def Dev.tailFail (d : Dev) (m : Nat × Nat) : Option (Nat × Nat) :=
  if d.budgetSegs.isEmpty || d.budgetOk then none else some m

/-- The checks of the law-structure group. -/
def lawFail (load : Bool) (old d : Dev) (a : Nat) : Option (Nat × Nat) :=
  (d.bindFail load a).or <| (d.fieldFail load a).or <|
  (firstFail ((List.range 16).map fun s => (d.stageOk a s, (0x2100, 2 + s)))).or <|
  (firstFail ((List.range 16).map fun s => (d.outOk load a s, (0x2100, 2 + s)))).or <|
  (firstFail [(d.lawSteps a ≤ 256, (0x2100, 1))]).or <|
  (d.couplingFail a).or <|
  if load then none else (newKindFail old d a).or (d.tailFail (0x2100, 1))

/-- The checks of the rate group (R120, R122, R258). -/
def Dev.rateFail (load : Bool) (d : Dev) (a : Nat) : Option (Nat × Nat) :=
  let pairs := ((d.terms a).map fun t => (t.src, a)) ++
    (d.enabledAxes.filter fun b => b != a && (d.terms b).any fun t => t.src == a).map fun b => (a, b)
  (firstFail [(d.phase a < d.divider a, (0x2010, 2)), (pairs.all fun p => d.divOk p.1 p.2, (0x2010, 1)),
    (pairs.all fun p => d.phaseOk p.1 p.2, (0x2010, 2))]).or (if load then none else d.tailFail (0x2100, 1))

/-! ### Governor, Line, Glide -/

/-- R271. -/
def Dev.govFailMember (d : Dev) : Option (Nat × Nat) :=
  firstFail [(d.gv 5 + 5 ≤ d.gv 4, (0x9010, 4)),
    (600 ≤ d.gv 7 && d.gv 7 ≤ d.gv 9, (0x9010, 7)), (d.gv 9 ≤ d.gv 8 && d.gv 8 ≤ 850, (0x9010, 8))]

/-- R326: the first failing element. -/
def sigmaFail (old d : Dev) : Option (Nat × Nat) :=
  let role (x : Dev) (n : Nat) : Nat := x.rn 0x3080 (3 + n) 0
  let used := (List.range 16).any fun n => role d n != 0
  let lost (n : Nat) : Bool := d.units.any fun u =>
    let r := role old n
    let base := 16 * (d.luPcc u + 1)
    base ≤ r && r ≤ base + 2 && (d.roleInput r).isNone
  firstFail ((d.rb 0x3080 2 0 || !used, (0x3080, 2)) :: (List.range 16).map fun n =>
    (role d n == 0 || ((List.range n).all fun m => role d m != role d n), (0x3080, 3 + n)) |> fun c =>
      (c.1 && !lost n, c.2))

/-- A converter descriptor meets R296; `load`: the gates found are not checked (R420). -/
def Dev.convOk (load : Bool) (d : Dev) (u : Nat) (c : Nat × Nat × Nat × Nat) : Bool :=
  let g := d.gateDesc c.2.1 c.2.2.1
  bits (d.rn 0x3000 (7 + c.1) u) 30 17 == 0 &&
    (load || (d.slotFits c.2.1 c.2.2.1 c.2.2.2 && bit (gKind g) 2 && 12 ≤ gLo g && 12 ≤ gLi g)) &&
    (d.enabledAxes.all fun a => d.axBind a != c.2) &&
    (d.units.all fun v => (d.convs v).all fun x => x.2 != c.2 || (v == u && decide (c.1 ≤ x.1)))

/-- R324. -/
def Dev.lineFail (load : Bool) (d : Dev) (u : Nat) : Option (Nat × Nat) :=
  let en := d.rb 0x3000 1 u
  let cs := d.convs u
  let pos (e : Nat) : Bool := Dy.zero.lt (d.rf 0x3000 e u)
  let f := d.rf 0x3000 6 u
  (firstFail ((!en || !cs.isEmpty, (0x3000, 7)) :: (if en then cs else []).map fun c => (d.convOk load u c, (0x3000, 7 + c.1)))).or <|
  (firstFail (cs.map fun c => (pos (11 + c.1), (0x3000, 11 + c.1)))).or <|
  (firstFail [(pos 4, (0x3000, 4)), (pos 5, (0x3000, 5)), (f.eqv (Dy.ofInt 50) || f.eqv (Dy.ofInt 60), (0x3000, 6)),
    (!en || (d.pccInputs (d.luPcc u)).all Option.isSome, (0x3000, 2)), (!en || d.period ≤ 250000, (0x3000, 1))]).or <|
  if load then none else d.tailFail (0x3000, 1)

/-- R325. -/
def Dev.lineParFail (d : Dev) (u : Nat) : Option (Nat × Nat) :=
  let p (e : Nat) : Dy := d.rf 0x3010 e u
  let q (e : Nat) : Dy := d.rf 0x3020 e u
  let one := Dy.ofInt 1
  firstFail [((q 9).lt (q 10), (0x3020, 9)), ((q 10).lt one, (0x3020, 10)), (one.lt (q 12), (0x3020, 12)),
    ((q 12).lt (q 11), (0x3020, 12)), ((q 3).lt (q 4), (0x3020, 3)), ((p 11).lt (q 13), (0x3020, 13)),
    (!Dy.zero.lt (p 4) || (Dy.ofInt d.period).le (((p 1).mul (p 4)).mul (Dy.ofInt 2000000)), (0x3010, 1))]

/-- R330: the failing member with its instance. -/
def Dev.glideFail (d : Dev) : Fail :=
  let gs := (List.range 8).filter fun g => d.rb (0x3100 + g) 1 0
  let grp (a : Nat) : Nat := d.rn 0x3120 1 a
  let on (a : Nat) : Bool := gs.contains (grp a)
  let members := (List.range 512).filter on
  let c1 := (gs.find? fun g => !d.rb 0x3000 1 (d.rn (0x3100 + g) 2 0)).map fun g => (0x3100 + g, 2, 0xFFFF)
  let c2 := members.findSome? fun a =>
    (firstFail [(d.rb 0x2000 1 a, (0x3120, 1)), (Dy.zero.lt (d.rf 0x3120 2 a), (0x3120, 2)),
      (!(d.rf 0x3120 3 a).isZero, (0x3120, 3))]).map fun m => (m.1, m.2, a)
  let c3 := (members.find? fun a =>
    let m := (d.apf a).mot
    (m.kind == 3 || m.kind == 4) && m.mKind != 2 && grp m.master != grp a).map fun a => (0x3120, 1, a)
  let eff (a : Nat) : Nat := if on a then grp a else 0xFF
  let c4 := (d.enabledAxes.find? fun b => (d.terms b).any fun t => eff t.src != eff b).map fun b => (0x3120, 1, b)
  c1.or (c2.or (c3.or c4))

/-! ### Profiles, steppers, channels, persistence, safety, CAN -/

/-- R348 and R446. -/
def Dev.profileFail (d : Dev) (a : Nat) : Option (Nat × Nat) :=
  let step := (List.range (d.stageCount a)).any fun s => stKind (d.stage a s) == kOut && stMode (d.stage a s) == 7
  firstFail [(!step || ((d.rf 0x2200 1 a).mul (Dy.ofInt (d.period * d.divider a : Nat))).le (Dy.ofInt 256000000000), (0x2200, 1)),
    ((d.rf 0x4030 12 a).le (d.rf 0x2200 4 a), (0x2200, 4))]

/-- R361. -/
def Dev.camFail (d : Dev) (t : Nat) : Option (Nat × Nat) :=
  let n := d.rn 0x2500 1 t
  let used := d.enabledAxes.any fun a => let m := (d.apf a).mot; m.kind == 4 && m.table == t
  firstFail [((d.rblob 0x2500 4 t).length == 4 * n, (0x2500, 4)), (n ≤ d.rn 0x2500 2 t, (0x2500, 2)), (!used, (0x2500, 1))]

/-- R373. -/
def Dev.stepperFail (d : Dev) (a : Nat) : Option (Nat × Nat) :=
  firstFail [(d.rn 0x2250 1 a ≤ d.rn 0x2250 3 a, (0x2250, 1)), (d.rn 0x2250 2 a ≤ d.rn 0x2250 3 a, (0x2250, 2)),
    ((d.rf 0x2250 5 a).lt ((d.rf 0x2250 4 a).scale 1), (0x2250, 5))]

/-- R392. -/
def Dev.chanFail (d : Dev) (c : Nat) : Option (Nat × Nat) :=
  let v (e : Nat) : Nat := d.rn 0x2700 e c
  let a := v 13
  let fmtOk (e f : Nat) : Bool := v e == 255 || bits (d.rn 0x2020 (1 + v e) a) 11 8 == f
  let free (e : Nat) : Bool := v e == 255 || (List.range 8).all fun b =>
    b == c || d.rn 0x2700 13 b != a || (d.rn 0x2700 14 b != v e && d.rn 0x2700 15 b != v e)
  firstFail [(v 6 == 0 || v 2 != 0, (0x2700, 6)), (v 7 < v 8, (0x2700, 7)), (v 12 < v 8, (0x2700, 12)),
    (a == 0xFFFF || d.rb 0x2000 1 a, (0x2700, 13)), (a == 0xFFFF || v 14 != v 15, (0x2700, 14)),
    (a == 0xFFFF || (fmtOk 14 3 && free 14), (0x2700, 14)), (a == 0xFFFF || (fmtOk 15 6 && free 15), (0x2700, 15))]

/-- R433. -/
def Dev.persistFail (d : Dev) (a : Nat) : Option (Nat × Nat) :=
  firstFail [(d.rn 0x5010 4 a < d.rn 0x5010 5 a, (0x5010, 4)),
    ((d.boundChan a).isNone || d.rn 0x5010 1 a == 2, (0x5010, 1))]

/-- R465: the failing member with its instance. -/
def Dev.safetyFail (d : Dev) : Fail :=
  let ins := List.range 16
  let code (e a : Nat) : Bool :=
    let c := d.rn 0x4030 e a
    !(16 ≤ c && c ≤ 47) || d.rn 0x4010 1 ((c - 16) % 16) == 3
  let inst (o : Nat) (f : Nat → Option Nat) (xs : List Nat) : Fail := xs.findSome? fun a => (f a).map fun e => (o, e, a)
  let chk (e : Nat) (b : Bool) : Option Nat := if b then none else some e
  let par (e a : Nat) : Dy := d.rf 0x4030 e a
  (inst 0x4010 (fun i => chk 2 (d.rn 0x4010 1 i != 2 || d.rn 0x4010 2 i != 0)) ins).or <|
  (inst 0x4030 (fun a => (chk 4 (code 4 a)).or ((chk 7 (code 7 a)).or (chk 10 (code 10 a)))) axes).or <|
  (inst 0x4030 (fun a => let g := d.rn 0x4030 1 a; chk 1 (g == 255 || d.rb 0x4020 1 g)) axes).or <|
  (inst 0x4030 (fun a => chk 6 (decide (d.rd 0x4030 5 a < d.rd 0x4030 6 a))) axes).or <|
  (inst 0x4030 (fun a => (chk 15 ((par 15 a).lt (par 3 a))).or (chk 8 ((par 8 a).le (par 3 a)))) axes).or <|
  inst 0x4030 (fun a => chk 12 ((par 12 a).le (d.rf 0x2200 4 a))) axes

/-- R479 and R468 for port object `o`. -/
def Dev.canFail (d : Dev) (o : Nat) : Option (Nat × Nat) :=
  let n := d.rn o 2 0
  let b := d.rn o 3 0
  let m := d.rn o 4 0
  let seg (x hi lo : Nat) : Nat := bits x hi lo + 1
  let nom := (1 + seg n 12 5 + seg n 19 13) * seg n 4 0
  let dat := (1 + seg b 9 5 + seg b 13 10) * seg b 4 0
  firstFail [(2 ≤ seg n 12 5 && n < 2 ^ 27 && seg n 26 20 ≤ seg n 19 13 && 80 ≤ nom, (o, 2)),
    (b < 2 ^ 25 && seg b 17 14 ≤ seg b 13 10 && 10 ≤ dat && dat ≤ nom, (o, 3)),
    ((!bit m 2 || 640 ≤ nom) && (!bit m 1 || bit m 0), (o, 4))]

/-! ### All groups -/

/-- The first failing member of the group with commit record `g`, instance `i`, under the values in `d`; `old` holds the
values in force before. `load`: as a parameter set is checked (R420). -/
def groupFail (load : Bool) (old d : Dev) (g i : Nat) : Fail :=
  let at_ (n : Nat) (m : Option (Nat × Nat)) : Fail := m.map fun x => (x.1, x.2, n)
  let none_ := 0xFFFF
  if g == 0x1020 then
    at_ none_ (if load then (d.budgetSegs.findSome? fun s =>
      ([1, 2, 3].find? fun n => !d.placeCheck s n).map fun _ => (0x1100 + s, 4)) else d.cycleCheck)
  else if g == 0x1021 then at_ i (d.rateFail load i)
  else if g == 0x1022 then at_ i (lawFail load old d i)
  else if g == 0x1024 then at_ i ((d.notchFail i (d.axisT i)).map fun e => (0x2130, e))
  else if g == 0x1025 then at_ i (d.parGroupFail i)
  else if g == 0x1026 then at_ none_ d.govFailMember
  else if g == 0x1027 then at_ none_ (sigmaFail old d)
  else if g == 0x1028 then at_ i (d.lineFail load i)
  else if g == 0x1029 then at_ i (d.lineParFail i)
  else if g == 0x102A then d.glideFail
  else if g == 0x102B then at_ i (d.profileFail i)
  else if g == 0x102D then at_ i (d.camFail i)
  else if g == 0x102F then at_ i (d.stepperFail i)
  else if g == 0x1030 then at_ i (d.chanFail i)
  else if g == 0x1031 then at_ i (d.persistFail i)
  else if g == 0x1032 then d.safetyFail
  else if g == 0x1033 then at_ none_ (d.canFail 0x1200)
  else if g == 0x1034 then at_ none_ (d.canFail 0x1201)
  else none

/-! ### What an applied commit sets going -/

/-- Levels and step counts of the enabled axes and of `a` (2150h:1-2). -/
def Dev.lawStatus (d : Dev) (a : Nat) : Dev :=
  d.each (d.enabledAxes ++ [a]) fun d x =>
    if d.rb 0x2000 1 x then (d.wr 0x2150 1 x (d.level x : Nat)).wr 0x2150 2 x (d.lawSteps x : Nat)
    else (d.wr 0x2150 1 x 0).wr 0x2150 2 x 0

/-- The law of a disabled axis leaves both blades; its state is 0. -/
def Dev.axisOff (d : Dev) (a : Nat) : Dev :=
  let d := d.each blades fun d b => d.modBl b fun x => { x with
    laws := Tab.del x.laws a
    jobs := x.jobs.filter fun j => j.axis != a
    lanes := x.lanes.filter fun p => p.2 != .axis a }
  { d with
    eng.nulls := Tab.del d.eng.nulls a, eng.held := Tab.del d.eng.held a, eng.setps := Tab.del d.eng.setps a
    eng.outs := Tab.del d.eng.outs a, eng.closed := Tab.del d.eng.closed a
    prof.axes := Tab.del d.prof.axes a }.wr 0x2160 3 a 0 |>.safetySync.driveOutputs

/-- An enabled axis whose structure came into force waits for its first run; where its segment is cyclic and the binding
does not fit it is treated as an axis of a lost gate (R220, R242, R253). -/
def Dev.axisOn (d : Dev) (a : Nat) : Dev :=
  let d := d.awaitFirst a
  if d.segState (d.axSeg a) == 5 && !d.slotFits (d.axSeg a) (d.axPos a) (d.axSlot a) then d.axisFault a 4 else d

/-- Shadows of an edit of 1025h whose stage is in `ks` take the defaults of the new kind (R242). -/
def Dev.dropShadows (d : Dev) (a : Nat) (ks : List Nat) (x : Edit) : Edit :=
  let one (sh : (Nat × Nat × Nat) × Val) : (Nat × Nat × Nat) × Val :=
    let s := sh.1.1 - 0x2140
    if ks.contains s && decide (0x2140 ≤ sh.1.1) then (sh.1, Val.num (parDefault (stKind (d.stage a s)) ((sh.1.2.1 - 1) % 8) : Nat))
    else sh
  { x with shadows := x.shadows.map one }

/-- A ForceRegion that the thresholds in force no longer reach reads FFh (R263). -/
def Dev.forceCheck (d : Dev) (a : Nat) : Dev :=
  if d.rn 0x2170 2 a != 0xFF && d.regions a ≤ d.rn 0x2170 2 a then d.wr 0x2170 2 a 0xFF else d

/-- A committed change of the law structure of axis `a` (R242, R418). -/
def structApplied (old : Dev) (a : Nat) (d : Dev) : Dev :=
  let ks := kindChanged old d a
  let d := d.each ks fun d s => d.dropParams a s
  let k := okey 0x1025 0 a
  let es : Tab Edit := d.ob.edits.map fun (p : Nat × Edit) => if p.1 == k then (p.1, d.dropShadows a ks p.2) else p
  let d := { d with ob.edits := es }
  let d := (if d.rb 0x2000 1 a then d.axisOn a else if old.rb 0x2000 1 a then d.axisOff a else d)
  let d := ((d.lawStatus a).forceCheck a).budgetNote
  if old.axBind a != d.axBind a then d.setProof a 0 4 else d

/-- A committed change of divider or phase (R256): the DELAY histories are refilled. -/
def rateApplied (old : Dev) (a : Nat) (d : Dev) : Dev :=
  let d := if (old.divider a, old.phase a) == (d.divider a, d.phase a) then d
    else d.each blades fun d b => d.setAxLaw b a { d.axLaw b a with refill := true }
  d.budgetNote

/-- What follows when the commit of record `g`, instance `i`, is in force; `old`: the values before. -/
def groupApplied (old : Dev) (g i : Nat) (d : Dev) : Dev :=
  if g == 0x1020 then
    (d.each (List.range 4) fun d s => if old.rb (0x1100 + s) 1 0 == d.rb (0x1100 + s) 1 0 then d else d.segEnabledChange s).budgetNote
  else if g == 0x1021 then rateApplied old i d
  else if g == 0x1022 then structApplied old i d
  else if g == 0x1025 then d.forceCheck i
  else if g == 0x1026 then
    if (old.gv 1, old.gv 2, old.gv 3) == (d.gv 1, d.gv 2, d.gv 3) then d else d.govStart
  else if g == 0x1028 then d.budgetNote
  else if g == 0x1030 then d.fbArm i
  else if g == 0x1031 then
    if [1, 2, 3, 4, 5].any (fun e => old.rd 0x5010 e i != d.rd 0x5010 e i) then d.setProof i 0 4 else d
  else if g == 0x1032 then d.safetyCommitted
  else if g == 0x1034 then d.canCommit .field
  else d

end Sys2Proof.Machine
end

