-- ==== Sys2Proof/Machine/Operands.lean ====
section
/-! DEFINITION. The operand form of object commands: the 16-byte header of a message and its fields (R86), responses, and
the message that a write with a row of its own carries. -/

namespace Sys2Proof.Machine

/-! ### The header (R86) -/

/-- Fields of the header of a message. -/
def mOp (m : Bytes) : Nat := byteAt m 0
def mFlags (m : Bytes) : Nat := byteAt m 1
def mTag (m : Bytes) : Nat := leAt m 2 2
def mObj (m : Bytes) : Nat := leAt m 4 2
def mEl (m : Bytes) : Nat := byteAt m 6
def mType (m : Bytes) : Nat := byteAt m 7
def mInst (m : Bytes) : Nat := leAt m 8 2
def mGate (m : Bytes) : Nat := leAt m 10 2
def mOff (m : Bytes) : Nat := leAt m 12 2
def mLen (m : Bytes) : Nat := leAt m 14 2
def mVal (m : Bytes) : Bytes := m.drop 16
/-- The flag End. -/
def mEnd (m : Bytes) : Bool := bit (mFlags m) 0

/-- A response to a request with header `h`: status, value field, flag End. -/
def respMsg (h : Bytes) (st : Nat) (v : Bytes) (fin : Bool) : Bytes :=
  leBytes (byteAt h 0 % 128 + 128) 1 ++ leBytes (if fin then 1 else 0) 1 ++ slice (fit h 16) 2 5 ++ leBytes st 1 ++
    slice (fit h 16) 8 6 ++ leBytes v.length 2 ++ v

/-- Codes of the types (R83). -/
def tyCode : Ty → Nat
  | .bool => 1 | .u8 => 2 | .i8 => 3 | .u16 => 4 | .i16 => 5 | .u32 => 6 | .i32 => 7 | .u64 => 8 | .i64 => 9 | .bf24 => 10
  | .f32 => 11 | .f64 => 12 | .time => 13 | .str => 14 | .blob => 15

/-- Largest size of an element in bytes: the fixed size, 255 for STR, for a BLOB what its table gives. -/
def maxLen (o e : Nat) : Nat :=
  match tyOf o e with
  | .str => 255
  | .blob =>
    if o == 0x40 then 32 else if o == 0x2500 then 65535 else if 0x2600 ≤ o && o ≤ 0x2603 then 1024
    else if o == 0x5060 then 1024 else if 0x6000 ≤ o && o ≤ 0x6003 && e == 2 then 180
    else if 0x6000 ≤ o && o ≤ 0x6003 then 1024 else if o == 0x7010 then 18 else 65535
  | t => tySize t

/-- The request header of a write that a command of its own stands for. -/
def writeMsg (req : Req) (o e i : Nat) (v : Bytes) : Bytes :=
  [2, if tyBytes (tyOf o e) then 1 else 0] ++ leBytes req.tag 2 ++ leBytes o 2 ++ leBytes e 1 ++ leBytes (tyCode (tyOf o e)) 1 ++
    leBytes i 2 ++ zeros 4 ++ leBytes v.length 2 ++ v

end Sys2Proof.Machine
end

