-- ==== Sys2Proof/Machine/Store.lean ====
section
/-! DEFINITION. The Saffron store (R395 to R415, R424 to R431): lines and their relocation, the fixed region, journal records,
the event ring, the last breath, scrubbing, wear. -/

namespace Sys2Proof.Machine

/-! ### Lines (R395 to R400) -/

/-- A line of the array written: its number before relocation, its 64 bytes. -/
abbrev LineWrite := Nat × Bytes

/-- The commit marker. -/
def stMarker : Nat := 0x96C35A3C

/-- First 56 bytes closed with CRC-32 and marker (R398, R401). -/
def sealLine (bs : Bytes) : Bytes := fit bs 56 ++ leBytes (crc32 (fit bs 56)) 4 ++ leBytes stMarker 4
/-- True when a line's CRC and marker hold. -/
def lineValid (bs : Bytes) : Bool := leAt bs 60 4 == stMarker && leAt bs 56 4 == crc32 (bs.take 56)

/-- The line at which a line is read and written: its spare when it is retired (R400). -/
def StoreSt.phys (x : StoreSt) (line : Nat) : Nat :=
  match x.reloc.find? fun p => p.2 == line with
  | some p => 1024 + p.1
  | none => line

/-- The byte writes of line writes. -/
def StoreSt.bytesOf (x : StoreSt) (ws : List LineWrite) : List (Bool × Nat × Bytes) :=
  ws.map fun w => (true, 64 * x.phys w.1, w.2)

/-- A line as it is read. -/
def StoreSt.readLine (x : StoreSt) (nv : Mem) (line : Nat) : Bytes := memSlice nv (64 * x.phys line) 64

/-- The lines of an array that hold a byte other than 00h, by address. -/
def nvLines : Mem → Tab Bytes
  | [] => []
  | (a, b) :: m =>
    let t := nvLines m
    Tab.put t (a / 64) (splice (Tab.get t (a / 64) (zeros 64)) (a % 64) [b])

/-- The two lines of line `n` of the counter: copies A and B. -/
def fixedCopies (n : Nat) : List Nat := [n, n + 512]

/-- The anti-rollback counter lines of value `v` (R398, R399): copy A first. -/
def counterLines (v : Nat) : List LineWrite :=
  (List.range 8).map fun i => ((if i < 4 then 1 + i else 509 + i), sealLine (ascii "ARBK" ++ leBytes v 4))

/-- The counter lines of an array that pass. -/
def counterValues (nv : Mem) : List Nat :=
  (List.range 8).filterMap fun i =>
    let bs := memSlice nv (64 * (if i < 4 then 1 + i else 509 + i)) 64
    if lineValid bs && bs.take 4 == ascii "ARBK" then some (leAt bs 4 4) else none

/-- The anti-rollback counter of an array (R399). -/
def rollbackOf (nv : Mem) : Nat := (counterValues nv).foldl max 0

/-- A map line. -/
def StoreSt.mapLine (x : StoreSt) (i : Nat) : Bytes :=
  sealLine ((List.range 14).flatMap fun j => leBytes (Tab.get x.reloc (14 * i + j) 0xFFFFFFFF) 4)

/-- The relocation map of an array's lines (R400). -/
def mapOf (t : Tab Bytes) : Tab Nat :=
  (List.range 293).flatMap fun i =>
    let a := Tab.get t (64 + i) (zeros 64)
    let b := Tab.get t (576 + i) (zeros 64)
    let l := if lineValid a then a else if lineValid b then b else List.replicate 64 0xFF#8
    (List.range 14).filterMap fun j =>
      let v := leAt l (4 * j) 4
      if v < 524288 then some (14 * i + j, v) else none

/-- Counting a read incident of the store (R427). -/
def Dev.storeRead (d : Dev) (lastingOne : Bool) : Dev := if lastingOne then d.lasting 0x8108 else d.transient 0x8108

/-! ### Objects of the store -/

/-- Store state (5000h:1). -/
def Dev.stState (d : Dev) : Nat := d.rn 0x5000 1 0
/-- True while the store writes. -/
def Dev.stReady (d : Dev) : Bool := d.stState == 1 || d.stState == 2

/-- Key of a record in the tables of versions. -/
def recKey (kind key : Nat) : Nat := kind * 65536 + key
/-- Seq of a record. -/
def recSeq (bs : Bytes) : Nat := leAt bs 8 4
/-- Version order (R402): `a` is newer than `b`. -/
def seqNewer (a b : Nat) : Bool := let m := (a + 2 ^ 32 - b % 2 ^ 32) % 2 ^ 32; 1 ≤ m && m < 2 ^ 31

/-- A record kind with a key in its range (R405). -/
def kindKnown (kind key : Nat) : Bool :=
  ((kind == 0x10 || kind == 0x12) && key < 512) || ((kind == 0x11 || kind == 0x13) && key < 8) ||
  (kind == 0x15 && key < 10) || ((kind == 0x14 || kind == 0x16 || kind == 0x20 || kind == 0x21 || kind == 0x30) && key == 0)

/-- A record of one line (R401). -/
def recordBytes (kind flags key seq : Nat) (payload : Bytes) : Bytes :=
  sealLine (leBytes kind 1 ++ leBytes flags 1 ++ [1, 0] ++ leBytes key 2 ++ zeros 2 ++ leBytes seq 4 ++ fit payload 44)
/-- Payload of a record. -/
def recPayload (bs : Bytes) : Bytes := slice bs 12 44

/-! ### The head of the journal (R402 to R404) -/

/-- The journal segment after `s`, skipped ones left out. -/
def nextSegN (x : StoreSt) : Nat → Nat → Nat
  | 0, s => s
  | k + 1, s =>
    let n := if s == 8191 then 4688 else s + 1
    if x.skip.contains n then nextSegN x k n else n
/-- The segment before `s`. -/
def prevSegN (x : StoreSt) : Nat → Nat → Nat
  | 0, s => s
  | k + 1, s =>
    let n := if s == 4688 then 8191 else s - 1
    if x.skip.contains n then prevSegN x k n else n
/-- The tail segment. -/
def StoreSt.tail (x : StoreSt) : Nat := (List.range (x.live - 1)).foldl (fun s _ => prevSegN x 3504 s) x.head

/-- Segment of a line. -/
def segOf (line : Nat) : Nat := line / 64

/-- The head has no line left, or its header is not yet written. -/
def StoreSt.needsHeader (x : StoreSt) : Bool := x.used == 0 || 64 ≤ x.used

/-- The head opens its segment: its header line. -/
def Dev.openSegment (d : Dev) : Dev × LineWrite :=
  let x := d.st
  let s := if x.used == 0 then x.head else nextSegN x 3504 x.head
  let pass := if x.used != 0 && s ≤ x.head then x.pass + 1 else x.pass
  let live := if x.used == 0 && x.live != 0 then x.live else x.live + 1
  let d := { d with st := { x with
    head := s, used := 1, segSeq := (x.segSeq + 1) % 2 ^ 32, pass := pass, live := live, w := x.w + 1 } }
  ((d.wr 0x5002 3 0 pass).wr 0x5000 10 0 live,
   (64 * s, sealLine (ascii "SJNL" ++ leBytes (x.segSeq + 1) 4 ++ leBytes pass 4)))

/-- A line of the head is taken. -/
def Dev.takeLine (d : Dev) : Dev × Nat :=
  let x := d.st
  ({ d with st := { x with used := x.used + 1, w := x.w + 1 } }, 64 * x.head + x.used)

/-- A record is written at the head, which has room: the new current version. -/
def Dev.writeRecord (d : Dev) (kind key flags : Nat) (payload : Bytes) : Dev × LineWrite :=
  let k := recKey kind key
  let seq := match Tab.find d.st.cur k with
    | some r => (recSeq r.bytes + 1) % 2 ^ 32
    | none => 1
  let bs := recordBytes kind flags key seq payload
  let (d, line) := d.takeLine
  let prev := match Tab.find d.st.cur k with
    | some r => Tab.put d.st.prev k r
    | none => d.st.prev
  ({ d with st.prev := prev, st.cur := Tab.put d.st.cur k { line := line, bytes := bs } }, (line, bs))

/-- A record is written now, opening a segment where the head has no room. -/
def Dev.appendRecord (d : Dev) (kind key flags : Nat) (payload : Bytes) : Dev × List LineWrite :=
  if d.st.needsHeader then
    let r := d.openSegment
    let q := r.1.writeRecord kind key flags payload
    (q.1, [r.2, q.2])
  else
    let q := d.writeRecord kind key flags payload
    (q.1, [q.2])

/-- The live versions that lie in the tail segment: key and whether it is the previous version. -/
def StoreSt.inTail (x : StoreSt) : List (Nat × Bool) :=
  let t := x.tail
  ((x.cur.filter fun p => segOf p.2.line == t).map fun p => (p.1, false)) ++
    ((x.prev.filter fun p => segOf p.2.line == t).map fun p => (p.1, true))

/-- True for the copy of a record under compaction. -/
def StJob.isCopy : StJob → Bool
  | .copy _ _ => true
  | .record _ _ _ _ => false
  | .fixed _ _ => false
  | .refresh _ => false

/-- Compaction (R404): the window keeps room for the 9 segments of a last breath; the live versions of the tail segment
are copied to the head, then the tail advances. -/
def compactN : Nat → Dev → Dev
  | 0, d => d
  | k + 1, d =>
    let x := d.st
    if x.live ≤ 503 || (x.jobs.any StJob.isCopy) then d
    else
      match x.inTail with
      | [] => compactN k ({ d with st.live := x.live - 1 }.wr 0x5000 10 0 (x.live - 1 : Nat))
      | l => { d with st.jobs := (l.map fun p => StJob.copy p.1 p.2) ++ x.jobs }
/-- Compaction as far as it goes. -/
def Dev.compact (d : Dev) : Dev := compactN 520 d

/-! ### The event ring (R424, R425) -/

/-- Events taken from the queue until one is to be written (R425); `none` when the queue is empty. -/
def takeEvents : Nat → Dev → Dev × Option (EvEntry × Nat)
  | 0, d => (d, none)
  | k + 1, d =>
    let r := d.ring
    match r.queue with
    | [] => (d, none)
    | e :: rest =>
      let budget := d.rn 0x5001 4 0
      let key := (e.num, e.data)
      let fresh := r.recent.filter fun q => d.now < q.2.2 + sec
      let same := fresh.any fun q => q.1 == e.num && q.2.1 == e.data
      if budget ≤ r.taken then
        let first := if r.leftOut == 0 then e.num else r.leftFirst
        takeEvents k { d with ring := { r with
          queue := rest, recent := fresh, leftOut := sat32 (r.leftOut + 1), leftFirst := first, leftLast := e.num
          leftNums := if r.leftNums.contains e.num then r.leftNums else e.num :: r.leftNums } }
      else if 9 * budget ≤ 10 * r.taken && same then
        let old := match r.repeats.find? fun q => q.1 == key.1 && q.2.1 == key.2 with
          | some q => q.2.2
          | none => 0
        let others := r.repeats.filter fun q => !(q.1 == key.1 && q.2.1 == key.2)
        takeEvents k { d with ring := { r with
          queue := rest, recent := fresh, repeats := (key.1, key.2, min 255 (old + 1)) :: others } }
      else
        let rep := match r.repeats.find? fun q => q.1 == key.1 && q.2.1 == key.2 with
          | some q => q.2.2
          | none => 0
        ({ d with ring := { r with
            queue := rest, taken := r.taken + 1
            recent := (e.num, e.data, d.now) :: fresh.filter (fun q => !(q.1 == key.1 && q.2.1 == key.2))
            repeats := r.repeats.filter fun q => !(q.1 == key.1 && q.2.1 == key.2) } }, some (e, rep))

/-- Line of ring entry `i`. -/
def ringLine (i : Nat) : Nat := 5120 + i / 2

/-- An entry is written to the ring: its line with its other half kept (R424). -/
def Dev.writeEntry (d : Dev) (nv : Mem) (e : EvEntry) (rep : Nat) : Dev × LineWrite :=
  let i := d.st.ringIdx
  let seq := d.ring.nextSeq
  let old := d.st.readLine nv (ringLine i)
  let d := { d with
    ring.nextSeq := (seq + 1) % 2 ^ 32, st.ringIdx := (i + 1) % 65536, st.hourR := d.st.hourR + 1 }
  let d := if i == 65535 then d.inc 0x5002 4 0 else d
  let oldest := d.rn 0x5060 1 0
  let oldest := if oldest == 0 then seq else if oldest + 65536 ≤ seq then seq - 65535 else oldest
  ((d.wr 0x5060 2 0 seq).wr 0x5060 1 0 oldest, (ringLine i, splice old (32 * (i % 2)) (entryBytes seq rep e)))

/-! ### Retiring a line (R429) -/

/-- The lowest unused spare. -/
def StoreSt.freeSpare (x : StoreSt) : Option Nat := (List.range 4096).find? fun j => (Tab.find x.reloc j).isNone

/-- A line is retired: the lowest spare takes its place and its map line is written in both copies; with none left the
store is degraded and a journal segment is skipped from then on. `data`: what the spare is to hold at once. -/
def Dev.retire (d : Dev) (line : Nat) (data : Option Bytes) : Dev :=
  match d.st.freeSpare with
  | some j =>
    let d := { d with st.reloc := Tab.put (d.st.reloc.filter fun p => p.2 != line) j line }
    let i := j / 14
    let m := d.st.mapLine i
    let put := match data with
      | some bs => [StJob.fixed line bs]
      | none => []
    { d with st.jobs := put ++ [StJob.fixed (64 + i) m, StJob.fixed (576 + i) m] ++ d.st.jobs }.wr 0x5000 6 0 (d.rn 0x5000 6 0 + 1 : Nat)
  | none =>
    let d := if d.stState == 1 then (d.wr 0x5000 1 0 2).raise 0xC8 [] else d
    if 4688 * 64 ≤ line then { d with st.skip := segOf line :: d.st.skip } else d

/-! ### Line writes (R396, R410) -/

/-- Payload of a BreathMark. -/
def markPayload (cycle n trigger : Nat) : Bytes := leBytes cycle 8 ++ leBytes n 2 ++ leBytes trigger 1

/-- Record `i` of a last breath: kind, key, flags, payload (R409, R410). -/
def Dev.breathRecord (d : Dev) (i cycle trigger : Nat) : Nat × Nat × Nat × Bytes :=
  if i < 512 then
    let r := match Tab.find d.st.buf i with
      | some bs => (byteAt bs 0, bs.drop 1)
      | none => d.axisRecord i
    (0x10, i, r.1 + 1, r.2)
  else if i < 520 then
    let r := match Tab.find d.st.buf i with
      | some bs => (byteAt bs 0, bs.drop 1)
      | none => d.chanRecord (i - 512)
    (0x11, i - 512, r.1 + 1, r.2)
  else (0x16, 0, 1, markPayload cycle 520 trigger)

/-- The breath buffer takes the values of this latch instant (R409), unless it is frozen. -/
def Dev.breathe (d : Dev) : Dev :=
  match d.st.breath with
  | some _ => d
  | none =>
    let put (t : Tab Bytes) (k : Nat) (r : Nat × Bytes) : Tab Bytes := Tab.put t k (leBytes r.1 1 ++ r.2)
    let t := d.enabledAxes.foldl (fun t a => put t a (d.axisRecord a)) ([] : Tab Bytes)
    let t := (List.range 8).foldl (fun t c => put t (512 + c) (d.chanRecord c)) t
    { d with st.buf := t, st.bufCycle := d.tm.cycle }

/-- The next line of a last breath is written (R410). -/
def Dev.breathLine (d : Dev) (b : Nat × Nat × Nat × Nat) : Dev × List LineWrite :=
  if d.st.needsHeader then
    let r := d.openSegment
    (r.1, [r.2])
  else
    let x := d.breathRecord b.2.2.2 b.2.2.1 b.1
    let q := d.writeRecord x.1 x.2.1 x.2.2.1 x.2.2.2
    let d := q.1
    if b.2.2.2 < 520 then ({ d with st.breath := some (b.1, b.2.1, b.2.2.1, b.2.2.2 + 1) }, [q.2])
    else
      let dur := (d.now - b.2.1) / us
      (({ d with st.breath := none, st.result := 1, st.duration := dur, st.logDue := true }.wr 0x5000 7 0 1).wr 0x5000 9 0 dur, [q.2])

/-- The line write in progress completes. -/
def Dev.finishLine (d : Dev) (nv : Mem) : Dev × List LineWrite :=
  let d := { d with st.again := false }
  match d.st.breath with
  | some b => d.breathLine b
  | none =>
    match d.st.jobs with
    | [] =>
      match takeEvents (d.ring.queue.length + 1) d with
      | (d, some (e, rep)) =>
        let r := d.writeEntry nv e rep
        (r.1, [r.2])
      | (d, none) => (d, [])
    | j :: rest =>
      match j with
      | .fixed line bs => ({ d with st.jobs := rest }, [(line, bs)])
      | .refresh line => ({ d with st.jobs := rest }, [(line, d.st.readLine nv line)])
      | .record kind key flags payload =>
        if d.st.needsHeader then
          let r := d.openSegment
          (r.1.compact, [r.2])
        else
          let r := { d with st.jobs := rest }.writeRecord kind key flags payload
          (r.1.compact, [r.2])
      | .copy key isPrev =>
        let t := if isPrev then d.st.prev else d.st.cur
        match Tab.find t key with
        | none => ({ d with st.jobs := rest }.compact, [])
        | some r =>
          if segOf r.line != d.st.tail then ({ d with st.jobs := rest }.compact, [])
          else if d.st.needsHeader then
            let o := d.openSegment
            (o.1, [o.2])
          else
            let (d, line) := { d with st.jobs := rest }.takeLine
            let y := { r with line := line }
            let d := if isPrev then { d with st.prev := Tab.put d.st.prev key y } else { d with st.cur := Tab.put d.st.cur key y }
            (d.compact, [(line, r.bytes)])

/-- The line that the controller is writing. -/
def Dev.lineInProgress (d : Dev) : Option Nat :=
  let x := d.st
  let head := if x.used == 0 then 64 * x.head else if 64 ≤ x.used then 64 * nextSegN x 3504 x.head else 64 * x.head + x.used
  if x.breath.isSome then some head
  else
    match x.jobs with
    | [] => if d.ring.queue.isEmpty then none else some (ringLine x.ringIdx)
    | .fixed line _ :: _ => some line
    | .refresh line :: _ => some line
    | .record _ _ _ _ :: _ => some head
    | .copy _ _ :: _ => some head

/-- LINE_WRITE_COMPLETE (R396, R31, R429): a failed verify repeats the write once, then retires the line. -/
def lineDone (ok : Bool) (nv : Mem) (d : Dev) : Dev × List LineWrite :=
  if (d.md.fieldReset || !d.stReady) && d.st.breath.isNone then (d, [])
  else
    match d.lineInProgress with
    | none => (d, [])
    | some line =>
      if ok then
        let d := if d.st.again then d.storeRead false else d
        d.finishLine nv
      else if !d.st.again then ({ d with st.again := true }, [])
      else ((((d.storeRead true).retire line none).raise 0xC6 (leBytes line 4)), [])

/-! ### Last breath (R409 to R411) -/

/-- The answer of a set command that is abandoned or fails. -/
def Dev.dropSet (d : Dev) : Dev × Option (Req × Bytes) :=
  match d.st.cmd with
  | none => (d, none)
  | some c => ({ d with st.cmd := none }.wr 0x5070 2 0 0, some (c.req, c.hdr))

/-- A last-breath commit starts (R410): the line in progress completes, all other writes are abandoned. -/
def breathStart (trigger : Nat) (nv : Mem) (d : Dev) : Dev × List LineWrite :=
  if d.md.fieldReset || !d.stReady || d.st.breath.isSome then (d, [])
  else
    let r := if d.lineInProgress.isSome then d.finishLine nv else (d, [])
    let d := r.1
    ({ d with
      st.jobs := [], st.again := false, ring.queue := []
      st.breath := some (trigger, d.now, d.st.bufCycle, 0) }, r.2)

/-- A commit ends early with a result (R411): FRST_N or the write limit. -/
def Dev.breathStop (d : Dev) (result : Nat) (nv : Mem) : Dev × List LineWrite :=
  match d.st.breath with
  | none => (d, [])
  | some b =>
    let r := d.finishLine nv
    let d := r.1
    if d.st.breath.isNone then (d, r.2)
    else
      let dur := (d.now - b.2.1) / us
      (({ d with st.breath := none, st.result := result, st.duration := dur, st.logDue := true }.wr 0x5000 7 0 result).wr 0x5000 9 0 dur, r.2)

/-! ### Checkpoints and life records (R407, R408) -/

/-- The throttle exponent (5002h:6). -/
def Dev.throttle (d : Dev) : Nat := d.rn 0x5002 6 0

/-- Seconds of operating time (5050h:2). -/
def Dev.opTime (d : Dev) : Nat := d.st.opBase + (if d.st.startAt == 0 then 0 else (d.now - d.st.startAt) / sec)
/-- Seconds in Run or Ride-through (5050h:3), from the record and since. -/
def Dev.runTime (d : Dev) : Nat :=
  d.rn 0x5050 3 0 + (d.st.runPs + (match d.st.runAt with
    | some t => d.now - t
    | none => 0)) / sec

/-- The throttle is judged against the budget line (R408). -/
def Dev.judgeThrottle (d : Dev) : Dev :=
  let s := d.throttle
  let line := d.rn 0x5001 3 0 * (d.opTime - d.st.hourStart)
  let w := d.st.w * 3600
  if line < w then
    if 6 ≤ s then d
    else
      let d := d.wr 0x5002 6 0 (s + 1 : Nat)
      if s == 0 then d.raise 0xC9 [] else d
  else if 10 * w < 8 * line then d.wr 0x5002 6 0 (s - 1 : Nat)
  else d

/-- A payload without its Cycle. -/
def sansCycle (off : Nat) (bs : Bytes) : Bytes := splice bs off (zeros 8)

/-- The position records of a checkpoint: those whose payload changed (R407). -/
def Dev.checkpointJobs (d : Dev) : List StJob :=
  let changed (kind key off : Nat) (bs : Bytes) : Bool :=
    match Tab.find d.st.cur (recKey kind key) with
    | some r => sansCycle off (recPayload r.bytes) != sansCycle off (fit bs 44)
    | none => true
  ((d.enabledAxes.filter fun a => changed 0x10 a 16 (d.axisRecord a).2).map d.posJob) ++
    ((((List.range 8).filter fun c => d.rb 0x2700 1 c).filter fun c => changed 0x11 c 8 (d.chanRecord c).2).map
      fun c => d.posJob (512 + c))

/-- CHECKPOINT_TIMER (R407, R408). -/
def checkpointAt (d : Dev) : Dev :=
  if d.md.fieldReset || !d.stReady || d.now < d.st.ckAt + d.rn 0x5001 1 0 * 2 ^ d.throttle * ms then d
  else
    let d := d.judgeThrottle
    { d with st.ckAt := d.now, st.jobs := d.st.jobs ++ d.checkpointJobs }

/-- Payload of the DeviceLife record. -/
def Dev.devicePayload (d : Dev) : Bytes :=
  leBytes (d.rn 0x5050 1 0) 4 ++ leBytes (sat32 d.opTime) 4 ++ leBytes (sat32 d.runTime) 4 ++
    leBytes (d.rn 0x5050 4 0) 4 ++ leBytes (d.rn 0x5050 5 0) 4
/-- Payload of a WearSummary. -/
def Dev.wearPayload (d : Dev) : Bytes :=
  leBytes d.st.pass 4 ++ leBytes (d.rn 0x5002 4 0) 4 ++ ((List.range 4).flatMap fun n => leBytes (Tab.get d.st.areaWrites n 0) 4) ++
    leBytes (d.rn 0x5000 6 0) 2 ++ leBytes d.st.w 4 ++ leBytes d.st.hourStart 4
/-- Payload of an AxisLife. -/
def Dev.axisLifePayload (d : Dev) (a : Nat) : Bytes :=
  leBytes (d.rn 0x5040 1 a) 8 ++ (List.range 8).flatMap fun n => leBytes (d.rn 0x5040 (2 + n) a) 4
/-- Payload of a LineEnergy: the forming time in seconds. -/
def Dev.energyPayload (d : Dev) (u : Nat) : Bytes :=
  leBytes (d.rn 0x3050 1 u) 8 ++ leBytes (d.rn 0x3050 2 u) 8 ++
    leBytes (sat32 (d.rn 0x3050 3 u * 3600 + (d.lu u).formPs / 1000000000)) 4 ++ leBytes (d.rn 0x3050 4 u) 4

/-- LIFE_INTERVAL_TIMER (R407). -/
def lifeAt (d : Dev) : Dev :=
  if d.md.fieldReset || !d.stReady || d.now < d.st.lifeAt + d.rn 0x5001 2 0 * 2 ^ d.throttle * sec then d
  else
    let js := ((List.range 512).map fun a => StJob.record 0x12 a 0 (d.axisLifePayload a)) ++
      ((List.range 8).map fun u => StJob.record 0x13 u 0 (d.energyPayload u)) ++
      [.record 0x14 0 0 d.devicePayload] ++
      ((List.range 10).map fun i => StJob.record 0x15 i 0 (leBytes (d.rn (0x8100 + i) 3 0) 4 ++ leBytes (d.rn (0x8100 + i) 4 0) 4)) ++
      [.record 0x30 0 0 d.wearPayload]
    { d with st.lifeAt := d.now, st.jobs := d.st.jobs ++ js }

/-- PROOF_RECORD_SECOND_END (R407): a change within the second is written with the values in force. -/
def proofSecondEnd (k : PosKey) (d : Dev) : Dev :=
  let n := posNum k
  match Tab.find d.st.proofAt n with
  | none => d
  | some t =>
    if d.md.fieldReset || d.now < t + sec then d
    else if d.st.proofDue.contains n then
      { d with st.proofDue := d.st.proofDue.filter (· != n), st.proofAt := Tab.put d.st.proofAt n d.now
               st.jobs := d.st.jobs ++ [d.posJob n] }
    else { d with st.proofAt := Tab.del d.st.proofAt n }

/-! ### The accounting hour and wear (R425, R431) -/

/-- Mean lines per hour of the last 720 hours, of one of the three regions. -/
def meanLines (h : List (Nat × Nat × Nat)) (f : Nat × Nat × Nat → Nat) : Dy :=
  if h.isEmpty then Dy.zero else fratio ((h.map f).sum : Nat) h.length

/-- Years of one region: `none` when it is not written. -/
def regionLife (used lines : Nat) (rate : Dy) : Option Dy :=
  if rate.isZero then none
  else some (fdiv (fdiv (fmul (Dy.ofInt ((10000000 : Int) - used)) (Dy.ofInt lines)) rate) (Dy.ofInt 8766))

/-- The wear gauge and the projected life; event CEh once per start. -/
def Dev.judgeWear (d : Dev) : Dev :=
  let x := d.st
  let area := (x.areaWrites.map fun p => p.2).foldl max 0
  let ring := 2 * d.rn 0x5002 4 0
  let gauge := 100 * max x.pass (max ring area) / 10000000
  let ls := [regionLife x.pass 224256 (meanLines x.hist (·.1)), regionLife ring 32768 (meanLines x.hist (·.2.1)),
    regionLife area 262144 (meanLines x.hist (·.2.2))].filterMap id
  let d := d.wr 0x5002 1 0 (min 255 gauge : Nat)
  let d := d.wf 0x5002 7 0 (meanLines x.hist fun h => h.1 + h.2.1 + h.2.2)
  let p : Bool × Dev := match ls with
    | [] =>
      let (v, d) := d.freeNat
      (false, d.wr 0x5002 2 0 (v % 2 ^ 32 : Nat))
    | l :: r =>
      let y := r.foldl Dy.min l
      (y.lt (Dy.ofInt 5), d.wf 0x5002 2 0 y)
  if (p.1 || 90 < gauge) && !x.warned then { p.2 with st.warned := true }.raise 0xCE (leBytes (min 255 gauge) 1) else p.2

/-- ACCOUNTING_HOUR (R408, R425, R431). -/
def accountingHourAt (d : Dev) : Dev :=
  if d.md.fieldReset || !d.stReady || d.opTime < d.st.hourStart + 3600 then d
  else
    let x := d.st
    let r := d.ring
    let d := { d with
      st.hist := ((x.w, x.hourR, x.hourA) :: x.hist).take 720, st.w := 0, st.hourR := 0, st.hourA := 0, st.hourStart := d.opTime
      ring := { r with taken := 0, leftOut := 0, leftNums := [], leftFirst := 0, leftLast := 0 } }
    let d := (d.wr 0x5002 5 0 0).wr 0x5070 8 0 0
    let d := d.judgeWear
    if r.leftOut == 0 then d
    else d.raise 0xCD (leBytes r.leftOut 4 ++ leBytes (min 255 r.leftNums.length) 1 ++ leBytes r.leftFirst 1 ++ leBytes r.leftLast 1)

/-! ### Scrubbing (R427, R428) -/

/-- The role that an area loses is taken from the directory (R423). -/
def Dev.loseArea (d : Dev) (n : Nat) : Dev :=
  let x := d.st
  if x.active != n && x.previous != n && x.factory != n then d
  else
    let role := if x.factory == n && x.active != n && x.previous != n then 1 else 0
    let d := { d with st := { x with
      active := if x.active == n then 0xFF else x.active
      previous := if x.previous == n then 0xFF else x.previous
      factory := if x.factory == n then 0xFF else x.factory
      factoryDue := x.factoryDue || x.factory == n
      activeDue := x.activeDue || (x.active == n && !d.rb 0x5070 3 0) } }
    let d := if x.active == n then (d.wr 0x5070 4 0 0).wr 0x5070 7 0 0 else d
    let d := if x.previous == n then d.wr 0x5070 5 0 0 else d
    let d := if x.factory == n then d.wr 0x5070 6 0 0 else d
    d.raise 0xCC (leBytes n 1 ++ leBytes role 1)

/-- The content of a line is lost (R427): a record's previous version stands; an area loses its role. -/
def Dev.loseLine (d : Dev) (line : Nat) : Dev :=
  if 592 * 64 ≤ line && line < 4688 * 64 then d.loseArea ((line / 64 - 592) / 1024)
  else
    let cur := d.st.cur.filter fun p => p.2.line == line
    let d := d.each cur fun d p =>
      let d := d.inc 0x5000 5 0
      match Tab.find d.st.prev p.1 with
      | some r => { d with st.cur := Tab.put d.st.cur p.1 r, st.prev := Tab.del d.st.prev p.1 }
      | none =>
        let d := { d with st.cur := Tab.del d.st.cur p.1 }
        let kind := p.1 / 65536
        let key := p.1 % 65536
        if kind == 0x10 then d.setProof key 0 8 else if kind == 0x11 then d.setProof (512 + key) 0 8 else d
    { d with st.prev := d.st.prev.filter fun p => p.2.line != line }

/-- SCRUB_LINE (R428). -/
def scrubAt (line : Nat) (marginClean : Bool) (nominal again : ReadResult) (nv : Mem) (d : Dev) : Dev :=
  if d.md.fieldReset || !d.stReady || d.st.breath.isSome || 524288 ≤ line || marginClean then d
  else
    match nominal with
    | .clean => { d.storeRead false with st.jobs := d.st.jobs ++ [.refresh line] }
    | .corrected => (((d.storeRead true).retire line (some (d.st.readLine nv line))).raise 0xC6 (leBytes line 4))
    | .uncorrectable =>
      match again with
      | .clean => d.storeRead false
      | .corrected => d.storeRead false
      | .uncorrectable => ((((d.storeRead true).loseLine line).retire line none).raise 0xC7 (leBytes line 4))

/-! ### Commands -/

/-- A meaning that writes lines of the array. -/
def onLines (t : Nat) (f : Mem → Dev → Dev × List LineWrite) (s : State) : Host.Outcome State Fault Refusal :=
  onMem t (fun _ nv d => let r := f nv d; (r.1, r.1.st.bytesOf r.2)) s

/-- CHECKPOINT_TIMER. -/
def execCheckpointTimer (t : Nat) : State → Host.Outcome State Fault Refusal := onDev t checkpointAt
/-- LIFE_INTERVAL_TIMER. -/
def execLifeIntervalTimer (t : Nat) : State → Host.Outcome State Fault Refusal := onDev t lifeAt
/-- PROOF_RECORD_SECOND_END. -/
def execProofRecordSecondEnd (t : Nat) (key : PosKey) : State → Host.Outcome State Fault Refusal := onDev t (proofSecondEnd key)
/-- LINE_WRITE_COMPLETE. -/
def execLineWriteComplete (t : Nat) (ok : Bool) : State → Host.Outcome State Fault Refusal := onLines t (lineDone ok)
/-- ACCOUNTING_HOUR. -/
def execAccountingHour (t : Nat) : State → Host.Outcome State Fault Refusal := onDev t accountingHourAt
/-- SCRUB_LINE. -/
def execScrubLine (t : Nat) (line : Nat) (marginClean : Bool) (nominal again : ReadResult) :
    State → Host.Outcome State Fault Refusal :=
  onMem t (fun _ nv d => (scrubAt line marginClean nominal again nv d, []))

end Sys2Proof.Machine
end

