-- ==== Sys2Proof/Machine/Time.lean ====
section
/-! DEFINITION. Device time, steering and plant time (05): the time base's writes, steps, time messages, and the host
die's PTP slave. -/

namespace Sys2Proof.Machine

/-! ### The time base -/

/-- Device time steps to `new` ns at a latch instant (R129): event F4h, 7000h:8 and 7000h:9. -/
def Dev.stepTime (d : Dev) (new : Nat) : Dev :=
  let old := d.devNs
  let d := { d with tm.dev := new * 2 ^ 32 }
  ((d.inc 0x7000 8 0).wr 0x7000 9 0 (wrapI64 ((new : Int) - old))).raise 0xF4 (leBytes (timeOf old) 10)

/-- Judgement of a write to Increment, SetTime, Steering, StepThreshold, MaxSlew (R130, R131): its status. -/
def timeCheck (d : Dev) (e : Nat) (v : Nat) : Nat :=
  if e == 2 then
    if d.rn 0x7000 4 0 == 1 then 5
    else if v * 1000 < 3998 * 2 ^ 32 || 4002 * 2 ^ 32 < v * 1000 then 6 else 0
  else if e == 3 then (if d.rn 0x7000 4 0 == 1 then 5 else 0)
  else if e == 6 then (if 1 ≤ v && v ≤ 1000000000 then 0 else 6)
  else if e == 7 then (if 1000 ≤ v && v ≤ 500000 then 0 else 6)
  else if e == 4 then (if v ≤ 1 then 0 else 6)
  else 0

/-- A written value of 7000h comes into force at a latch instant (R130, R131). -/
def timeApply (d : Dev) (e : Nat) (v : Nat) : Dev :=
  if e == 2 then { d with tm.inc := v }.wr 0x7000 2 0 v
  else if e == 3 then ((d.wr 0x7000 3 0 v).stepTime (nsOf v)).wr 0x7000 5 0 1
  else if e == 4 then
    let was := d.rn 0x7000 4 0
    let d := d.wr 0x7000 4 0 v
    if was == 1 && v == 0 then d.wr 0x7000 5 0 3 else d
  else d.wr 0x7000 e 0 v

/-! ### Steering (R138, R139) -/

/-- Device time free-runs: quality 3; from steering, event F6h once. -/
def Dev.freeRun (d : Dev) : Dev :=
  let was := d.rn 0x7000 5 0
  let d := d.wr 0x7000 5 0 3
  if was == 2 then d.raise 0xF6 [] else d

/-- Steering by one time message in port state slave from the known grandmaster, settled (R138). `o`: device minus plant;
`dt`: plant ns since the last message. Every quantity is evaluated operation by operation in binary64. -/
def Dev.steer (d : Dev) (o : Int) (dt : Int) : Dev :=
  let d := d.wr 0x7020 5 0 (wrapI64 o)
  let d :=
    if (d.rn 0x7000 6 0 * 1000000 : Nat) < o.natAbs then { d with tm.stepBy := some (-o), tm.oPrev := 0 }
    else
      let (q, d) := if dt == 0 then d.freeNat else (0, d)
      let step := if dt == 0 then Dy.ofInt q else fdiv (Dy.ofInt (o - d.tm.oPrev)) (Dy.ofInt (4 * dt))
      let r := fadd d.tm.r step
      let lim := fratio (d.rn 0x7000 7 0) 1000000000
      let c := ((fadd r (fratio o 8000000000)).min lim).max lim.neg
      let inc := (Dy.ofInt (4 * 2 ^ 32)).mul ((Dy.ofInt 1).sub c)
      { d with tm.r := r, tm.oPrev := o, tm.incNext := some inc.round.toNat }
  let was := d.rn 0x7000 5 0
  let d := d.wr 0x7000 5 0 2
  if was == 2 then d else d.raise 0xF7 []

/-- The field die takes a time message (R138). -/
def timeMessageMsg (msg : Bytes) (d : Dev) : Dev :=
  if d.md.fieldReset then d
  else
    let d := d.takeMail .field 3
    let plant := nsOf (leAt msg 4 10)
    let gm := leAt msg 14 8
    let dt : Int := (plant : Int) - d.tm.lastPlant
    let arrival := d.devNs
    let d := { d with tm.lastMsg := d.now, tm.lastPlant := plant }
    if d.rn 0x7000 4 0 != 1 then d
    else if byteAt msg 1 != 3 then d.freeRun
    else if gm != d.tm.lastGm then
      ({ d with tm.lastGm := gm, tm.settle := 8 }.freeRun.inc 0x7020 8 0).raise 0xF5 []
    else if d.tm.settle > 0 then { d with tm.settle := d.tm.settle - 1 }
    else d.steer ((arrival : Int) - 2000 - plant) dt

/-- 3 s without a time message (R139). -/
def plantTimeout (d : Dev) : Dev :=
  if !d.md.fieldReset && d.rn 0x7000 4 0 == 1 && decide (d.tm.lastMsg + 3 * sec ≤ d.now) then d.freeRun else d

/-- The field die's device time report (R137). -/
def deviceTimeReportSend (d : Dev) : Dev :=
  if d.md.fieldReset || !d.md.fieldFw then d
  else d.sendMsg .field 3 ([0x81] ++ leBytes (d.rn 0x7000 5 0) 1 ++ [0, 0] ++ leBytes d.devTime 10 ++ leBytes d.tm.cycle 8)

/-- The host die takes a device time report (R137). -/
def deviceTimeReportAt (msg : Bytes) (d : Dev) : Dev :=
  if d.md.hostReset then d
  else { d.takeMail .host 3 with tm.hostBase := some (nsOf (leAt msg 4 10), byteAt msg 1, d.now) }

/-! ### Plant time at the host die (R135, R136); the PTP algorithms are those of IEEE 1588-2008 -/

/-- The host die's own clock, ns. -/
def Dev.hostNs (d : Dev) : Nat := d.now / 1000

/-- The port state follows the port setting (7020h:1): disabled at 0, listening once a port is set. -/
def Dev.ptpPort (d : Dev) : Dev :=
  if d.hrn 0x7020 1 0 == 0 then { d with tm.best := none, tm.syncOpen := false, tm.delayOpen := false }.hwr 0x7020 3 0 0
  else if d.hrn 0x7020 3 0 == 0 then d.hwr 0x7020 3 0 1
  else d

/-- True when the PTP slave runs on `port`: host firmware runs and the port is the one set. -/
def Dev.ptpOn (d : Dev) (port : Nat) : Bool := !d.md.hostReset && d.md.hostFw && d.hrn 0x7020 1 0 == port + 1

/-- Order of two announced masters by the default best-master algorithm: true when `x` is better than `y`. -/
def betterMaster (x y : Announce) : Bool :=
  if x.grandmaster == y.grandmaster then
    if x.steps != y.steps then x.steps < y.steps else x.sender < y.sender
  else
    let k := fun (a : Announce) => [a.priority1, a.clockClass, a.accuracy, a.variance, a.priority2, a.grandmaster]
    match ((k x).zip (k y)).find? fun p => p.1 != p.2 with
    | some (p, q) => p < q
    | none => false

/-- A message outside the subset, or of another domain (R135). -/
def Dev.ptpDiscard (d : Dev) : Dev := d.hinc 0x7020 9 0

/-- An Announce (R135). -/
def announceAt (port : Nat) (a : Announce) (d : Dev) : Dev :=
  if !d.ptpOn port then d
  else
    let d := d.ptpPort
    if a.domain != d.hrn 0x7020 2 0 then d.ptpDiscard
    else
      let take := match d.tm.best with
        | none => true
        | some b => b.sender == a.sender || betterMaster a b
      let fresh := match d.tm.best with
        | none => true
        | some b => b.sender != a.sender
      if !take then d
      else
        let d := { d with tm.best := some a, tm.bestAt := d.now }.hwr 0x7020 4 0 a.grandmaster
        if fresh then { d with tm.syncOpen := false, tm.delayOpen := false, tm.offset := none, tm.prevPair := none }.hwr 0x7020 3 0 2
        else d

/-- True when a message comes from the selected master. -/
def Dev.fromMaster (d : Dev) (m : PtpMsg) : Bool :=
  match d.tm.best with
  | some b => b.sender == m.sender
  | none => false

/-- A Sync (R135): two-step only. -/
def syncAt (port : Nat) (m : PtpMsg) (d : Dev) : Dev :=
  if !d.ptpOn port then d
  else
    let d := d.ptpPort
    if m.domain != d.hrn 0x7020 2 0 || m.unsupported || !m.twoStep then d.ptpDiscard
    else if !d.fromMaster m then d
    else { d with tm.syncSeq := m.seq, tm.syncRx := d.hostNs, tm.syncCorr := m.correction, tm.syncOpen := true }

/-- The host's estimate of plant time now (R136): its clock less the last offset; open before an offset is known. -/
def Dev.plantEstimate (d : Dev) : Nat × Dev :=
  match d.tm.offset with
  | some (_, o) => (((d.hostNs : Int) - o).toNat, d)
  | none => d.freeNat

/-- A time message (R136). -/
def Dev.sendTimeMessage (d : Dev) : Dev :=
  let (p, d) := d.plantEstimate
  d.sendMsg .host 3 ([1] ++ leBytes (d.hrn 0x7020 3 0) 1 ++ [0, 0] ++ leBytes (timeOf p) 10 ++ leBytes (d.hrn 0x7020 4 0) 8 ++
    leBytes (ofSigned 32 (d.hrd 0x7020 7 0)) 4 ++ leBytes (d.hrn 0x7020 6 0) 4)

/-- A Follow_Up (R135, R136): completes an offset measurement in port state slave. -/
def followUpAt (port : Nat) (m : PtpMsg) (d : Dev) : Dev :=
  if !d.ptpOn port then d
  else
    let d := d.ptpPort
    if m.domain != d.hrn 0x7020 2 0 || m.unsupported then d.ptpDiscard
    else if !d.fromMaster m || !d.tm.syncOpen || m.seq != d.tm.syncSeq then d
    else
      let x : Int := (d.tm.syncRx : Int) - ((m.stamp : Int) + m.correction + d.tm.syncCorr)
      let d := { d with tm.syncOpen := false, tm.t2mt1 := x }
      if d.hrn 0x7020 3 0 == 3 then
        let o := x - d.hrn 0x7020 6 0
        let d := match d.tm.offset with
          | some (l0, o0) =>
            let dl : Int := (d.tm.syncRx : Int) - l0
            if dl > 0 then d.hwr 0x7020 7 0 (toSigned 32 (ofSigned 32 ((o0 - o) * 1000000000 / dl))) else d
          | none => d
        { d with tm.prevPair := d.tm.offset, tm.offset := some (d.tm.syncRx, o) }.sendTimeMessage
      else d

/-- The Delay_Req interval ends (R135). -/
def delayReqSend (d : Dev) : Dev :=
  let port := d.hrn 0x7020 1 0 - 1
  if !d.ptpOn port then d
  else
    let d := d.ptpPort
    if d.hrn 0x7020 3 0 == 2 || d.hrn 0x7020 3 0 == 3 then
      let q := (d.tm.delaySeq + 1) % 65536
      { d with tm.delaySeq := q, tm.delayTx := d.hostNs, tm.delayOpen := true }.emit (.delayReq port q)
    else d

/-- A Delay_Resp (R135): mean path delay; the port becomes slave. -/
def delayRespAt (port : Nat) (m : PtpMsg) (d : Dev) : Dev :=
  if !d.ptpOn port then d
  else
    let d := d.ptpPort
    if m.domain != d.hrn 0x7020 2 0 || m.unsupported then d.ptpDiscard
    else if !d.fromMaster m || !d.tm.delayOpen || m.seq != d.tm.delaySeq then d
    else
      let mpd := (d.tm.t2mt1 + ((m.stamp : Int) - m.correction - d.tm.delayTx)) / 2
      let d := { d with tm.delayOpen := false, tm.delayInt := m.interval }
      let d := d.hwr 0x7020 6 0 (min mpd.toNat 0xFFFFFFFF : Nat)
      if d.hrn 0x7020 3 0 == 2 then d.hwr 0x7020 3 0 3 else d

/-- 3 announce intervals without Announce (R135). -/
def announceLost (d : Dev) : Dev :=
  if d.tm.best.isSome && !d.md.hostReset && d.md.hostFw then
    ({ d with tm.best := none, tm.syncOpen := false, tm.delayOpen := false, tm.offset := none }.hwr 0x7020 3 0 1).hinc 0x7020 10 0
  else d

/-- 1 s outside port state slave (R136). -/
def timeMessageTick (d : Dev) : Dev :=
  if d.md.hostReset || !d.md.hostFw then d
  else
    let d := d.ptpPort
    if d.hrn 0x7020 3 0 == 3 then d else d.sendTimeMessage

/-! ### The commands -/

/-- PTP_ANNOUNCE. -/
def execPtpAnnounce (t : Nat) (port : Nat) (a : Announce) : State → Host.Outcome State Fault Refusal :=
  onDev t (announceAt port a)
/-- PTP_SYNC. -/
def execPtpSync (t : Nat) (port : Nat) (m : PtpMsg) : State → Host.Outcome State Fault Refusal := onDev t (syncAt port m)
/-- PTP_FOLLOW_UP. -/
def execPtpFollowUp (t : Nat) (port : Nat) (m : PtpMsg) : State → Host.Outcome State Fault Refusal :=
  onDev t (followUpAt port m)
/-- PTP_DELAY_RESP. -/
def execPtpDelayResp (t : Nat) (port : Nat) (m : PtpMsg) : State → Host.Outcome State Fault Refusal :=
  onDev t (delayRespAt port m)
/-- PTP_DELAY_REQ_TIMER. -/
def execPtpDelayReqTimer (t : Nat) : State → Host.Outcome State Fault Refusal := onDev t delayReqSend
/-- ANNOUNCE_TIMEOUT. -/
def execAnnounceTimeout (t : Nat) : State → Host.Outcome State Fault Refusal := onDev t announceLost
/-- TIME_MESSAGE_TIMER. -/
def execTimeMessageTimer (t : Nat) : State → Host.Outcome State Fault Refusal := onDev t timeMessageTick
/-- TIME_MESSAGE. -/
def execTimeMessage (t : Nat) (msg : Bytes) : State → Host.Outcome State Fault Refusal := onDev t (timeMessageMsg msg)
/-- DEVICE_TIME_REPORT_TIMER. -/
def execDeviceTimeReportTimer (t : Nat) : State → Host.Outcome State Fault Refusal := onDev t deviceTimeReportSend
/-- DEVICE_TIME_REPORT. -/
def execDeviceTimeReport (t : Nat) (msg : Bytes) : State → Host.Outcome State Fault Refusal :=
  onDev t (deviceTimeReportAt msg)
/-- PLANT_TIME_TIMEOUT. -/
def execPlantTimeTimeout (t : Nat) : State → Host.Outcome State Fault Refusal := onDev t plantTimeout

end Sys2Proof.Machine
end

