-- ==== Sys2Proof/Machine/Message.lean ====
section
/-! DEFINITION. Object messages (R83 to R91, R106, R119): the checks of a value alone, what a read returns, and how
the field die answers a request. -/

namespace Sys2Proof.Machine

/-! ### A value alone -/

/-- R84 and R85 for the bytes of a value. -/
def valueOk (t : Ty) (bs : Bytes) : Bool :=
  match t with
  | .bool => ofLe bs ≤ 1
  | .f32 => !f32Special (ofLe bs)
  | .f64 => !f64Special (ofLe bs)
  | .time => ofLe bs / 2 ^ 48 < 1000000000
  | .str => bs.all fun b => decide (0x20 ≤ b.toNat) && decide (b.toNat ≤ 0x7E)
  | .bf24 => (Bf.unpack (ofLe bs)).normWritten.isSome
  | .u8 => true | .i8 => true | .u16 => true | .i16 => true | .u32 => true | .i32 => true | .u64 => true | .i64 => true
  | .blob => true

/-- The value that the bytes of a write stand for; BF24 normalised (R85). -/
def valueOf (t : Ty) (bs : Bytes) : Val :=
  if tyBytes t then .blob bs
  else if t == .bf24 then .num ((((Bf.unpack (ofLe bs)).normWritten).getD Bf.zero).pack : Nat)
  else .num (decodeNum t bs)

/-- The single-write range. -/
def rangeOk (r : Rng) (v : Val) : Bool :=
  match v with
  | .blob _ => true
  | .num n =>
    match r with
    | .any => true
    | .int lo hi => decide (lo ≤ n) && decide (n ≤ hi)
    | .oneOf vs => vs.contains n
    | .orNone lo hi x => (decide (lo ≤ n) && decide (n ≤ hi)) || n == x
    | .step lo hi k => decide (lo ≤ n) && decide (n ≤ hi) && n % k == 0
    | .channelOrField => n < 8 || (16 ≤ n && n ≤ 23) || n == 255
    | .flt lo hi => (f32Val lo).le (f32Val n.toNat) && (f32Val n.toNat).le (f32Val hi)
    | .pos => Dy.zero.lt (f32Val n.toNat)
    | .nonneg => Dy.zero.le (f32Val n.toNat)
    | .act => n == 0 || n == 1 || (decide (16 ≤ n) && decide (n ≤ 47))

/-- A byte string of the one length that its element allows. -/
def lengthOk (o e : Nat) (v : Val) : Bool :=
  match v with
  | .num _ => true
  | .blob b =>
    if (0x2600 ≤ o && o ≤ 0x2603) || (0x6000 ≤ o && o ≤ 0x6003) then b.length == maxLen o e else true

/-- The bytes of a value. -/
def valBytes (o e : Nat) : Val → Bytes
  | .num n => encodeNum (tyOf o e) n
  | .blob b => b

/-- A value as a natural number. -/
def Val.nat : Val → Nat
  | .num n => n.toNat
  | .blob _ => 0

/-- Sets the value in force. -/
def Dev.setVal (d : Dev) (o e i : Nat) : Val → Dev
  | .num n => d.wr o e i n
  | .blob b => d.wblob o e i b

/-- A value of class P came into force otherwise than by a load (R422). -/
def Dev.noteP (d : Dev) (o e : Nat) : Dev :=
  if ((desc? o e).map Desc.pers) == some .p then { d with st.changed := true }.wr 0x5070 3 0 1 else d

/-! ### Reading (R89, R119, R140, R426) -/

/-- The ring entries from ReadFrom to Newest, at most 32 (R426). -/
def Dev.readEntries (d : Dev) (nv : Mem) : Bytes :=
  let newest := d.rn 0x5060 2 0
  let oldest := d.rn 0x5060 1 0
  let start := max (d.rn 0x5060 3 0) oldest
  if newest == 0 || newest < start then []
  else
    (List.range (min 32 (newest + 1 - start))).flatMap fun j =>
      let back := newest - (start + j) + 1
      let i := (d.st.ringIdx + 65536 - back % 65536) % 65536
      slice (d.st.readLine nv (ringLine i)) (32 * (i % 2)) 32

/-- The notch coefficients of axis `a` have been derived (R231): its law is in force, or a member of its notch group differs
from the Default. -/
def Dev.notchDerived (d : Dev) (a : Nat) : Bool :=
  d.rb 0x2000 1 a || (List.range 12).any fun k => d.rd 0x2130 (k + 1) a != dfltNum 0x2130 (k + 1)

/-- A value that the field die forms when it is read. -/
def Dev.liveEl (sram nv : Mem) (d : Dev) (o e i : Nat) : Option Bytes :=
  let num (n : Nat) : Option Bytes := some (encodeNum (tyOf o e) n)
  if o == 0x7000 && e == 1 then num d.devTime
  else if o == 0x7010 && e == 2 then num d.tm.cycle
  else if o == 0x7010 && e == 3 then some (leBytes d.tm.cycle 8 ++ leBytes (timeOf d.tm.latchDev) 10)
  else if o == 0x1000 && (e == 9 || e == 10) then num (sat32 (d.rn o e i + (Tab.get d.ob.hostRep (okey o e i) 0).toNat))
  else if o == 0x8050 && e == 2 then num (d.clk.locked % 8 + (Tab.get d.ob.hostRep (okey o e i) 0).toNat)
  else if o == 0x8050 && (e == 3 || e == 4) then num (sat32 (d.rn o e i + (Tab.get d.ob.hostRep (okey o e i) 0).toNat))
  else if o == 0x8050 && e == 6 then num (d.clk.rails % 65536)
  else if o == 0x20 && e == 7 then num d.ld.rollback
  else if o == 0x20 && e == 9 then num d.ld.fIdentity
  else if o == 0x20 && e == 6 then num d.ld.fSecurity
  else if o == 0x9020 && e == 10 then num d.redundancy
  else if o == 0x9000 && e == 6 then num (d.enabledAxes.filter fun a => d.axState a == 3).length
  else if o == 0x5050 && e == 2 then num (sat32 d.opTime)
  else if o == 0x5050 && e == 3 then num (sat32 d.runTime)
  else if o == 0x5002 && e == 5 then num (sat32 d.st.w)
  else if o == 0x5060 && e == 4 then some (d.readEntries nv)
  else if 0x6000 ≤ o && o ≤ 0x6003 && e == 9 then some (d.capData sram (o - 0x6000))
  else if 0x2140 ≤ o && o ≤ 0x214F && 1 ≤ e && e ≤ 64 then num (d.par i (o - 0x2140) ((e - 1) / 8) ((e - 1) % 8))
  else if 0x2140 ≤ o && o ≤ 0x214F && 65 ≤ e then num (d.coef i (o - 0x2140) ((e - 65) / 8) ((e - 65) % 8)).pack
  else if o == 0x2130 && 13 ≤ e && d.notchDerived i then num (bfOf ((d.notch i ((e - 13) / 5)).getD ((e - 13) % 5) Dy.zero)).pack
  else none

/-- The bytes of element `e` of object `o` on the field die. -/
def Dev.readEl (sram nv : Mem) (d : Dev) (o e i : Nat) : Bytes := (d.liveEl sram nv o e i).getD (d.encodeEl o e i)

/-- The value in the response to a Read, with End (R89); `none`: the Offset lies beyond the value. -/
def readSegment (t : Ty) (bs : Bytes) (off len : Nat) : Option (Bytes × Bool) :=
  if !tyBytes t then some (bs, false)
  else if bs.length < off then none
  else
    let n := min (if len == 0 then 1024 else min len 1024) (bs.length - off)
    some (slice bs off n, decide (off + n = bs.length))

/-- Describe (R91). -/
def describe (o e : Nat) : Bytes :=
  match desc? o e with
  | none => zeros 10
  | some r =>
    let acc := match r.acc with
      | .r => 0 | .rw => 1 | .rwp => 2
    let pers := match r.pers with
      | .v => 0 | .p => 1 | .l => 2
    let g := groupRec o e
    leBytes (tyCode r.ty) 1 ++ leBytes acc 1 ++ leBytes pers 1 ++
      leBytes ((if g == 0 then 0 else 1) + (if o < 0x1000 then 2 else 0)) 1 ++ leBytes (maxLen o e) 2 ++ leBytes g 2 ++
      leBytes r.insts 2

/-- Candidates for Next: the bounds of every row. -/
def objRanges : List (Nat × Nat) :=
  ((List.range 10).flatMap fun k => (dictOf (0x1000 * k)).filterMap fun r => if r.e0 == 0 then some (r.lo, r.hi) else none) ++
    [(0xF000, 0xF000)]

/-- Next (R91): the lowest object above `o`, boot objects alone when `boot`; FFFFh none. -/
def nextObj (o : Nat) (boot : Bool) : Nat :=
  objRanges.foldl (fun best r =>
    let c := max r.1 (o + 1)
    if c ≤ r.2 && c < best && (!boot || c < 0x1000) then c else best) 0xFFFF

/-! ### Answers of the field die (R82, R106, R107) -/

/-- A response of the field die leaves toward its source: in the mailbox of the route, or on FCAN. -/
def Dev.fieldSend (d : Dev) (src : Source) (resp : Bytes) : Dev :=
  let modeWrite := byteAt resp 0 == 0x82 && mObj resp == 0x30 && (mEl resp == 3 || mEl resp == 7)
  let ackWrite := byteAt resp 0 == 0x82 && mObj resp == 0x30 && mEl resp == 6
  let codes := resp.map BitVec.toNat
  let d := if modeWrite || ackWrite then
      let req : Req := ⟨src, leAt resp 2 2⟩
      { d with ob.bootVals := (d.ob.bootVals.filter fun q => q.1 != req) ++
          [(req, (List.range 9).map fun e => d.rd 0x30 (e + 1) 0)] }
    else d
  match src with
  | .port n ip udp =>
    if modeWrite then { d with ob.resp6 := d.ob.resp6 ++ [Config.mailBytes 6 ([n, ip, udp] ++ codes)] }.flushResponses
    else if ackWrite then { d with ob.resp7 := d.ob.resp7 ++ [Config.mailBytes 7 ([n, ip, udp] ++ codes)] }.flushResponses
    else { d with ob.resp4 := d.ob.resp4 ++ [leBytes ip 4 ++ leBytes udp 2 ++ leBytes (n + 1) 1 ++ [0] ++ resp] }.flushResponses
  | .hcan base =>
    if modeWrite then { d with ob.resp6 := d.ob.resp6 ++ [Config.mailBytes 6 ([2, base] ++ codes)] }.flushResponses
    else if ackWrite then { d with ob.resp7 := d.ob.resp7 ++ [Config.mailBytes 7 ([2, base] ++ codes)] }.flushResponses
    else { d with ob.resp5 := d.ob.resp5 ++ [resp] }.flushResponses
  | .fcan base =>
    { d with ob.fcanOpen := d.ob.fcanOpen.filter fun q => q.src != src }.emit (.response .field (.fcan base) resp)

/-- The field die takes a request: its response keeps its place in the order of its source. -/
def Dev.fieldTake (d : Dev) (req : Req) : Dev := { d with ob.order := d.ob.order ++ [(req, none)] }

/-- The response to the oldest unanswered request `req` is ready. -/
def setReady (req : Req) (resp : Bytes) : List (Req × Option Bytes) → List (Req × Option Bytes) × Bool
  | [] => ([], false)
  | (q, r) :: t =>
    if q == req && r.isNone then ((q, some resp) :: t, true)
    else
      let x := setReady req resp t
      ((q, r) :: x.1, x.2)

/-- The responses of a source that may leave, and the list without them. -/
def releaseReady (src : Source) : List (Req × Option Bytes) → Bool → List Bytes × List (Req × Option Bytes)
  | [], _ => ([], [])
  | (q, r) :: t, open_ =>
    if q.src != src || !open_ then
      let x := releaseReady src t open_
      (x.1, (q, r) :: x.2)
    else
      match r with
      | some bs =>
        let x := releaseReady src t true
        (bs :: x.1, x.2)
      | none =>
        let x := releaseReady src t false
        (x.1, (q, none) :: x.2)

/-- The field die answers a request that it has taken. -/
def Dev.fieldAnswer (d : Dev) (req : Req) (resp : Bytes) : Dev :=
  let x := setReady req resp d.ob.order
  if !x.2 then d
  else
    let y := releaseReady req.src x.1 true
    { d with ob.order := y.2 }.each y.1 fun d r => d.fieldSend req.src r

/-- The same by the header of the request, a status alone. -/
def Dev.reply (d : Dev) (req : Req) (hdr : Bytes) (st : Nat) : Dev := d.fieldAnswer req (respMsg hdr st [] false)

end Sys2Proof.Machine
end

