-- ==== Sys2Proof/Machine/Start.lean ====
section
/-! DEFINITION. What the start phase of Load sets going on the field die (R75, R117, R413, R58). -/

namespace Sys2Proof.Machine

/-- Phase start (R75): the field firmware starts, its cores run, the latch generator starts (R117), the store recovers
(R413), every enabled segment is to start (R182), the governor starts (R269), FCAN takes its settings (R479), a
supply reset is reported (R521), a load status reports the phase; a host part started by this load will be accepted (R58). -/
def Dev.startPhase (d : Dev) : Dev :=
  let d := d.wr 0x30 2 0 3
  let d := { d with
    md.fieldFw := true, md.fieldBeat := false, md.hostAccepted := true, md.recovered := false
    ld.phaseAt := d.now
    st.recovering := true, st.startAt := d.now
    tm.running := true, tm.started := false }
  let d := d.each (List.range 8) fun d c => d.setCore c 2
  let d := d.each ((List.range 4).filter fun s => d.rb (0x1100 + s) 1 0) fun d s => d.setSg s { d.sg s with startDue := true }
  let d := ((d.wr 0x5000 1 0 0).govStart).canApply .field
  let d := if d.clk.railsDue then { d with clk.railsDue := false }.raise 0x2A (leBytes d.clk.rails 2) else d
  d.sendMsg .field 2 [0x81, 1, 3, 0]

end Sys2Proof.Machine
end

