-- ==== Sys2Proof/Machine/Sets.lean ====
section
/-! DEFINITION. Formatting and recovery of the Saffron store (R413 to R417, R432) and parameter sets (R419 to R423). -/

namespace Sys2Proof.Machine

/-- A byte write to the array. -/
abbrev NvWrite := Bool × Nat × Bytes

/-! ### Set images (R419) -/

/-- First line of parameter area `n` (R397). -/
def areaLine (n : Nat) : Nat := 64 * (592 + 1024 * n)

/-- Instance field of an entry: FFFFh for an object without instances. -/
def entryInst (k : Nat) : Nat :=
  if ((desc? (k / 16777216) (k / 65536 % 256)).map Desc.insts) == some 0 then 0xFFFF else k % 65536

/-- An entry of one element. -/
def setEntry (k : Nat) (v : Bytes) : Bytes :=
  let o := k / 16777216
  let e := k / 65536 % 256
  let vals := if tyBytes (tyOf o e) then leBytes v.length 2 ++ v else v
  leBytes o 2 ++ leBytes (entryInst k) 2 ++ leBytes e 1 ++ [1, 0, 0] ++ leBytes vals.length 4 ++
    fit vals (roundUp vals.length 4)

/-- Class P. -/
def classP (k : Nat) : Bool := ((desc? (k / 16777216) (k / 65536 % 256)).map Desc.pers) == some .p

/-- The Default of a number of key `k` under the structure in force: a stage parameter takes the Default of its kind (R228). -/
def Dev.dfltKey (d : Dev) (k : Nat) : Int :=
  let o := k / 16777216
  let e := k / 65536 % 256
  if 0x2140 ≤ o && o ≤ 0x214F && 1 ≤ e && e ≤ 64
    then ((parDefault (stKind (d.stage (k % 65536) (o - 0x2140))) ((e - 1) % 8) : Nat) : Int)
  else dfltNum o e

/-- The values of class P that differ from their Default: numbers and byte strings. -/
def Dev.classPValues (d : Dev) : Tab Int × Tab Bytes :=
  (d.ob.od.filter fun p => classP p.1 && p.2 != d.dfltKey p.1,
   d.ob.obl.filter fun p => classP p.1 && p.2 != dfltBlob (p.1 / 16777216) (p.1 / 65536 % 256))

/-- The body of an image. -/
def setBody (v : Tab Int × Tab Bytes) : Bytes :=
  (v.1.flatMap fun p => setEntry p.1 (encodeNum (tyOf (p.1 / 16777216) (p.1 / 65536 % 256)) p.2)) ++
    v.2.flatMap fun p => setEntry p.1 p.2

/-- The header line of an image. -/
def setHeader (role seq ident time code : Nat) (body : Bytes) : Bytes :=
  sealLine (ascii "PSET" ++ [1, 0] ++ leBytes role 1 ++ [0] ++ leBytes seq 4 ++ leBytes body.length 4 ++ leBytes ident 8 ++
    leBytes time 10 ++ leBytes code 2 ++ leBytes (crc32 body) 4)

/-- Bytes cut into lines. -/
def linesOf (bs : Bytes) : Nat → List Bytes
  | 0 => []
  | n + 1 => fit (bs.take 64) 64 :: linesOf (bs.drop 64) n

/-- Line writes of an image: the body, then the header. -/
def imageLines (n : Nat) (header body : Bytes) : List LineWrite :=
  let ls := linesOf body (roundUp body.length 64 / 64)
  ((List.range ls.length).map fun j => (areaLine n + 1 + j, ls.getD j [])) ++ [(areaLine n, header)]

/-- The valid image in an area: header and body. `bad`: lines that cannot be read. -/
def StoreSt.image (x : StoreSt) (nv : Mem) (bad : List Nat) (n : Nat) : Option (Bytes × Bytes) :=
  let h := x.readLine nv (areaLine n)
  let len := leAt h 12 4
  if 4 ≤ n || !lineValid h || h.take 4 != ascii "PSET" || leAt h 4 2 != 1 || 4194240 < len then none
  else
    let k := roundUp len 64 / 64
    if (List.range (k + 1)).any (fun j => bad.contains (areaLine n + j)) then none
    else
      let body := ((List.range k).flatMap fun j => x.readLine nv (areaLine n + 1 + j)).take len
      if crc32 body == leAt h 36 4 then some (h, body) else none

/-! ### Checking a set (R420) -/

/-- The values of an entry: consecutive elements from `e`; answers the values read and whether the bytes end too soon. -/
def entryValues (o i : Nat) : Nat → Nat → Bytes → List ((Nat × Nat × Nat) × Bytes) × Bool
  | 0, _, _ => ([], true)
  | n + 1, e, bs =>
    let t := tyOf o e
    let len := if tyBytes t then leAt bs 0 2 else tySize t
    let bs := if tyBytes t then bs.drop 2 else bs
    if bs.length < len then ([], false)
    else
      let r := entryValues o i n (e + 1) (bs.drop len)
      (((o, e, i), bs.take len) :: r.1, r.2)

/-- True when all elements of an entry are elements of class P of the running firmware with such an instance. -/
def entryKnown (o inst e n : Nat) : Bool :=
  (List.range n).all fun j =>
    match desc? o (e + j) with
    | some r => r.pers == .p && (if r.insts == 0 then inst == 0xFFFF else decide (inst < r.insts))
    | none => false

/-- A body read entry by entry: values, entries skipped, form kept. -/
def parseBody : Nat → Bytes → List ((Nat × Nat × Nat) × Bytes) × Nat × Bool
  | 0, _ => ([], 0, true)
  | k + 1, bs =>
    if bs.isEmpty then ([], 0, true)
    else if bs.length < 12 then ([], 0, false)
    else
      let o := leAt bs 0 2
      let inst := leAt bs 2 2
      let e := byteAt bs 4
      let n := byteAt bs 5
      let len := leAt bs 8 4
      let rest := parseBody k (bs.drop (12 + roundUp len 4))
      if bs.length < 12 + len then ([], 0, false)
      else if !entryKnown o inst e n then (rest.1, rest.2.1 + 1, rest.2.2)
      else
        let vs := entryValues o (if inst == 0xFFFF then 0 else inst) n e (slice bs 12 len)
        (vs.1 ++ rest.1, rest.2.1, vs.2 && rest.2.2)

/-- The device with every element of class P at its Default. -/
def Dev.classPDefaults (d : Dev) : Dev :=
  { d with ob.od := d.ob.od.filter (fun p => !classP p.1), ob.obl := d.ob.obl.filter (fun p => !classP p.1) }

/-- The device with the values of a set in place of those of class P. -/
def Dev.withValues (d : Dev) (vs : List ((Nat × Nat × Nat) × Val)) : Dev :=
  d.classPDefaults.each vs fun d v => d.setVal v.1.1 v.1.2.1 v.1.2.2 v.2

/-- Commit records without instances. -/
def soloGroups : List Nat := [0x1020, 0x1026, 0x1027, 0x102A, 0x1032, 0x1033, 0x1034]

/-- The groups that a set touches: commit record and instance. -/
def touchedGroups (vs : List ((Nat × Nat × Nat) × Val)) : List (Nat × Nat) :=
  ((vs.map fun v => (groupRec v.1.1 v.1.2.1, v.1.2.2)).filter fun g => g.1 != 0 && !soloGroups.contains g.1).eraseDups ++
    soloGroups.map fun g => (g, 0)

/-- A checked set: its values, entries skipped; `none` when any check fails. -/
def Dev.checkSet (d : Dev) (img : Bytes × Bytes) : Option (List ((Nat × Nat × Nat) × Val) × Nat) :=
  let p := parseBody (img.2.length + 1) img.2
  let vs := p.1.map fun v => (v.1, valueOf (tyOf v.1.1 v.1.2.1) v.2)
  let ok := p.2.2 &&
    (p.1.all fun v => valueOk (tyOf v.1.1 v.1.2.1) v.2 && decide (v.2.length ≤ maxLen v.1.1 v.1.2.1)) &&
    vs.all fun v => rangeOk (((desc? v.1.1 v.1.2.1).map Desc.rng).getD .any) v.2 && lengthOk v.1.1 v.1.2.1 v.2
  if !ok then none
  else
    let d' := d.withValues vs
    if (touchedGroups vs).all (fun g => (groupFail true d d' g.1 g.2).isNone) && d'.checkCode == leAt img.1 34 2
    then some (vs, p.2.1) else none

/-! ### A set comes into force (R420) -/

/-- Microstep tables are to be written to the gates again (R370). -/
def Dev.tablesAgain (d : Dev) : Dev :=
  { d with prof.tableGen := d.prof.tableGen + 1, prof.tablesDue := true }.each d.enabledAxes fun d a =>
    (d.setApf a { d.apf a with tables := [] }).wr 0x2251 5 a 0

/-- What follows for axis `a` when a set is in force. -/
def Dev.loadAxis (old : Dev) (first : Bool) (d : Dev) (a : Nat) : Dev :=
  let structKeys (x : Dev) : List (Nat × Int) := x.ob.od.filter fun p =>
    p.1 % 65536 == a && groupRec (p.1 / 16777216) (p.1 / 65536 % 256) == 0x1022
  let d := if structKeys old == structKeys d then d
    else if d.rb 0x2000 1 a then d.axisOn a else if old.rb 0x2000 1 a then d.axisOff a else d
  let d := rateApplied old a (d.forceCheck a)
  if !first && (old.axBind a != d.axBind a || [1, 2, 3, 4, 5].any fun e => old.rd 0x5010 e a != d.rd 0x5010 e a)
  then d.setProof a 0 4 else d

/-- A set comes into force: Defaults for what it lacks, shadows and staging copies discarded; then what the changed
settings set going. `first`: at recovery. -/
def Dev.loadSet (d : Dev) (vs : List ((Nat × Nat × Nat) × Val)) (first : Bool) : Dev :=
  let old := d
  let d := d.withValues vs
  let d := { d with
    ob.edits := [], ob.staging := []
    ob.od := d.ob.od.filter fun p => !(0x1020 ≤ p.1 / 16777216 && p.1 / 16777216 ≤ 0x105F &&
      (p.1 / 65536 % 256 == 2 || p.1 / 65536 % 256 == 3)) }
  let d := d.each (List.range 4) fun d s =>
    if old.rb (0x1100 + s) 1 0 == d.rb (0x1100 + s) 1 0 then d else d.segEnabledChange s
  let d := d.each ((old.enabledAxes ++ d.enabledAxes).eraseDups) fun d a => Dev.loadAxis old first d a
  let d := d.each d.enabledAxes.head?.toList fun d a => d.lawStatus a
  let d := if (old.gv 1, old.gv 2, old.gv 3) == (d.gv 1, d.gv 2, d.gv 3) then d else d.govStart
  let d := d.each (List.range 8) fun d c =>
    if (List.range 15).any fun e => old.rd 0x2700 (e + 1) c != d.rd 0x2700 (e + 1) c then d.fbArm c else d
  let d := (if first then d.recheck else d.recheck.driveOutputs)
  let d := (if (List.range 3).any fun e => old.rd 0x1201 (e + 2) 0 != d.rd 0x1201 (e + 2) 0 then d.canCommit .field else d)
  let d := d.each (List.range 4) fun d u => d.capConfig u (d.rblob (0x6000 + u) 2 0)
  let d := d.each [4, 6, 7] fun d e => timeApply d e (d.rn 0x7000 e 0)
  (if [0x2600, 0x2601, 0x2602, 0x2603].any fun o => old.rblob o 1 0 != d.rblob o 1 0 then d.tablesAgain else d).budgetNote

/-! ### The set directory (R405, R421) -/

/-- Payloads of SetDirectory and CheckCode. -/
def StoreSt.directory (x : StoreSt) (sa sp sf : Nat) : Bytes :=
  leBytes x.active 1 ++ leBytes x.previous 1 ++ leBytes x.factory 1 ++ [0] ++ leBytes sa 4 ++ leBytes sp 4 ++ leBytes sf 4

/-- The directory and the check code of the active set are written. -/
def Dev.writeDirectory (d : Dev) : Dev × List LineWrite :=
  let a := d.appendRecord 0x20 0 0 (d.st.directory (d.rn 0x5070 4 0) (d.rn 0x5070 5 0) (d.rn 0x5070 6 0))
  let b := a.1.appendRecord 0x21 0 0 (leBytes (d.rn 0x5070 7 0) 2 ++ leBytes d.st.active 1 ++ [0] ++ leBytes (d.rn 0x5070 4 0) 4)
  (b.1, a.2 ++ b.2)

/-- The area that the directory names in no role. -/
def StoreSt.freeArea (x : StoreSt) : Nat :=
  ((List.range 4).find? fun n => n != x.active && n != x.previous && n != x.factory).getD 0

/-- SetSeq of the next set. -/
def Dev.nextSetSeq (d : Dev) : Nat := (max (d.rn 0x5070 4 0) (max (d.rn 0x5070 5 0) (d.rn 0x5070 6 0)) + 1) % 2 ^ 32

/-- A lost set is rewritten in the background (R423): code 10h the factory set, 11h the active set. -/
def Dev.background (d : Dev) : Dev :=
  let x := d.st
  if x.cmd.isSome || !d.stReady then d
  else if x.factoryDue then
    { d with st.cmd := some { code := 0x10, req := ⟨.fcan 0, 0⟩, hdr := [], area := x.freeArea, seq := d.nextSetSeq
                              snap := some ([], []), stamp := d.devTime } }
  else if x.activeDue && !d.rb 0x5070 3 0 then
    { d with st.cmd := some { code := 0x11, req := ⟨.fcan 0, 0⟩, hdr := [], area := x.freeArea, seq := d.nextSetSeq } }
  else d

/-- Role of an area in events CBh and CCh: 1 factory, 0 user. -/
def StoreSt.roleOf (x : StoreSt) (n : Nat) : Nat := if x.factory == n && x.active != n && x.previous != n then 1 else 0

/-! ### Parameter-set commands (R421) -/

/-- Judgement of 5070h:1 (R421): status, and the command that it starts. -/
def Dev.setJudge (d : Dev) (nv : Mem) (req : Req) (hdr : Bytes) (code : Nat) : Nat × Dev :=
  let x := d.st
  let busy := x.cmd.isSome || (code != 2 && 60 ≤ d.rn 0x5070 8 0) || x.breath.isSome
  let start (c : SetCmd) : Dev := { d with st.cmd := some c }.wr 0x5070 2 0 1
  let load (area : Nat) : Nat × Dev :=
    match x.image nv [] area with
    | none => (0x0B, d)
    | some img =>
      match d.checkSet img with
      | none => (7, d.raise 0xCC (leBytes area 1 ++ leBytes (x.roleOf area) 1))
      | some r => (0, start { code := code, req := req, hdr := hdr, area := if code == 2 then area else x.freeArea
                              seq := d.nextSetSeq, load := some r.1, skipped := r.2 })
  if code == 1 then
    if busy then (9, d)
    else if !d.stReady then (0x0B, d)
    else (0, start { code := 1, req := req, hdr := hdr, area := x.freeArea, seq := d.nextSetSeq })
  else if code == 2 then
    if d.mode != 2 then (5, d) else if busy then (9, d) else if !d.stReady then (0x0B, d) else load x.previous
  else if code == 3 then
    if d.mode != 2 then (5, d) else if busy then (9, d) else if !d.stReady then (0x0B, d) else load x.factory
  else (6, d)

/-- A parameter-set command at a cycle boundary, after the writes and commits due there (R420, R421): a checked set comes
into force, a snapshot is taken. -/
def Dev.setBoundary (d : Dev) : Dev :=
  match d.st.cmd with
  | none => d.background
  | some c =>
    if c.inForce || c.snap.isSome then d
    else
      let take (d : Dev) (c : SetCmd) : Dev :=
        { d with st.changed := false, st.cmd := some { c with snap := some d.classPValues, stamp := d.devTime } }
      match c.load with
      | some vs =>
        let from_ := if c.code == 2 then c.area else d.st.factory
        let d := (d.loadSet vs false).raise 0xCB (leBytes from_ 1 ++ leBytes (if c.code == 3 then 1 else 0) 1)
        let d := d.wr 0x5070 9 0 (min 65535 c.skipped : Nat)
        let c := { c with inForce := true }
        if c.code == 3 then take d c else { d with st.cmd := some c }
      | none => take d c

/-- The command ends: the request is answered, Busy is clear. -/
def Dev.setEnd (d : Dev) (c : SetCmd) (status : Nat) : Dev :=
  let d := { d with st.cmd := none }.wr 0x5070 2 0 0
  if c.hdr.isEmpty then d else d.reply c.req c.hdr status

/-- The area of a written set takes its role. -/
def Dev.setRole (d : Dev) (c : SetCmd) (code : Nat) : Dev :=
  let x := d.st
  if c.code == 0x10 then { d with st := { x with factory := c.area, factoryDue := false } }.wr 0x5070 6 0 c.seq
  else
    let prev := if c.code == 0x11 then x.previous else x.active
    let prevSeq := if c.code == 0x11 then d.rn 0x5070 5 0 else d.rn 0x5070 4 0
    (({ d with st := { x with active := c.area, previous := prev, activeDue := false } }.wr 0x5070 4 0 c.seq).wr 0x5070 5 0 prevSeq).wr
      0x5070 7 0 code

/-- SET_WRITE_COMPLETE (R421 to R423): the write or the load of a set has ended. -/
def setWriteDone (ok : Bool) (d : Dev) : Dev × List LineWrite :=
  if d.md.fieldReset || !d.stReady then (d, [])
  else
    match d.st.cmd with
    | none => (d, [])
    | some c =>
      match c.snap with
      | some v =>
        if !ok then (d.setEnd c 0x0B, [])
        else
          let body := setBody v
          let code := (d.withValues ((v.1.map fun p =>
            ((p.1 / 16777216, p.1 / 65536 % 256, p.1 % 65536), Val.num p.2)))).checkCode
          let ls := imageLines c.area (setHeader (if c.code == 0x10 then 1 else 0) c.seq d.ld.fIdentity c.stamp code body) body
          let x := d.st
          let d := { d with st := { x with
            areaWrites := Tab.put x.areaWrites c.area (Tab.get x.areaWrites c.area 0 + 1), hourA := x.hourA + ls.length } }
          let d := (d.setRole c code)
          let d := if c.code == 0x10 then d else d.inc 0x5070 8 0
          let d := if c.code != 0x10 && !d.st.changed then d.wr 0x5070 3 0 0 else d
          let r := d.writeDirectory
          (((r.1.raise 0xCA (leBytes c.area 1)).setEnd c 0).background, ls ++ r.2)
      | none =>
        if c.code != 2 || !c.inForce then (d, [])
        else
          let x := d.st
          let sa := d.rn 0x5070 4 0
          let d := { d with st := { x with active := x.previous, previous := x.active } }
          let d := ((d.wr 0x5070 4 0 (d.rn 0x5070 5 0)).wr 0x5070 5 0 sa).wr 0x5070 7 0 d.checkCode
          let r := d.writeDirectory
          (r.1.setEnd c 0, r.2)

/-! ### Formatting (R414, R432) -/

/-- The format record. -/
def formatRecord (time : Nat) : Bytes :=
  sealLine (ascii "SAFR" ++ [1, 0, 0, 0] ++ leBytes (Config.serial % 2 ^ 64) 8 ++ leBytes time 10)

/-- The store is formatted: every cell cleared, the fixed region, the factory set in area 0, journal segment 4,688. The
counter keeps its value (R76). -/
def Dev.format (d : Dev) (nv : Mem) : Dev × List NvWrite :=
  let x : StoreSt := {}
  let old := d.st
  let d := { d with
    ring := {}
    st := { x with
      startAt := old.startAt, opBase := d.opTime, hourStart := d.opTime, runAt := old.runAt, ckAt := d.now, lifeAt := d.now
      buf := old.buf, bufCycle := old.bufCycle, result := old.result, duration := old.duration, pfail := old.pfail
      head := 4688, used := 1, segSeq := 1, pass := 1, live := 1, factory := 0, changed := old.changed
      areaWrites := [(0, 1)] } }
  let d := { d with st.startAt := d.now }
  let d := ((d.wr 0x5070 4 0 0).wr 0x5070 5 0 0).wr 0x5070 6 0 1
  let d := ((d.wr 0x5070 7 0 0).wr 0x5070 2 0 0).wr 0x5070 8 0 0
  let d := ((d.wr 0x5060 1 0 0).wr 0x5060 2 0 0).wr 0x5060 3 0 0
  let d := ((d.wr 0x5000 1 0 1).wr 0x5000 2 0 0).wr 0x5000 6 0 0
  let d := ((d.wr 0x5000 8 0 0).wr 0x5000 10 0 1).wr 0x5002 3 0 1
  let d := (d.wr 0x5002 4 0 0).wr 0x5002 6 0 0
  let code := (d.classPDefaults).checkCode
  let r := d.writeRecord 0x20 0 0 (d.st.directory 0 0 1)
  let d := r.1
  let d := d.each (List.range 520) fun d k => (d.wr (posObj k) 1 (posInst k) 0).wr (posObj k) 2 (posInst k) 1
  let map := sealLine (List.replicate 56 0xFF)
  let lines : List LineWrite :=
    [(0, formatRecord d.devTime), (512, formatRecord d.devTime)] ++ counterLines d.ld.rollback ++
      ((List.range 293).flatMap fun i => [(64 + i, map), (576 + i, map)]) ++
      imageLines 0 (setHeader 1 1 d.ld.fIdentity d.devTime code []) [] ++
      [(64 * 4688, sealLine (ascii "SJNL" ++ leBytes 1 4 ++ leBytes 1 4)), r.2]
  (d.raise 0xC0 [],
   ((nvLines nv).map fun p => (true, 64 * p.1, zeros 64)) ++ lines.map fun l => (true, 64 * l.1, l.2))

/-! ### Recovery (R413 to R415) -/

/-- What the scan of the live window gathers. `marks`: BreathMarks after the newest DeviceLife; `bare`: a record without
LastBreath after the newest BreathMark. -/
structure Scan where
  cur : Tab RecAt := []
  prev : Tab RecAt := []
  torn : Nat := 0
  fell : Nat := 0
  marks : Nat := 0
  bare : Bool := false
deriving DecidableEq, Repr

/-- A valid record joins the versions of its kind and key (R402): a copy found later stands for the earlier one. -/
def Scan.join (s : Scan) (r : RecAt) : Scan :=
  let k := recKey (byteAt r.bytes 0) (leAt r.bytes 4 2)
  let n := recSeq r.bytes
  let s := match Tab.find s.cur k with
    | none => { s with cur := Tab.put s.cur k r }
    | some c =>
      if recSeq c.bytes == n then { s with cur := Tab.put s.cur k r }
      else if seqNewer n (recSeq c.bytes) then { s with cur := Tab.put s.cur k r, prev := Tab.put s.prev k c }
      else
        match Tab.find s.prev k with
        | none => { s with prev := Tab.put s.prev k r }
        | some p => if recSeq p.bytes == n || seqNewer n (recSeq p.bytes) then { s with prev := Tab.put s.prev k r } else s
  let kind := byteAt r.bytes 0
  if kind == 0x16 then { s with marks := s.marks + 1, bare := false }
  else
    let s := if bit (byteAt r.bytes 1) 0 then s else { s with bare := true }
    if kind == 0x14 then { s with marks := 0 } else s

/-- One line of the live window. -/
def Scan.line (bad : List Nat) (t : Tab Bytes) (x : StoreSt) (s : Scan) (line : Nat) : Scan :=
  let bs := Tab.get t (x.phys line) (zeros 64)
  if bad.contains line then { s with fell := s.fell + 1 }
  else if allZero bs then s
  else if lineValid bs && byteAt bs 2 == 1 && kindKnown (byteAt bs 0) (leAt bs 4 2) then s.join ⟨line, bs⟩
  else { s with torn := s.torn + 1 }

/-- The valid segment headers: segment, SegSeq, Pass. -/
def segHeaders (bad : List Nat) (t : Tab Bytes) (x : StoreSt) : List (Nat × Nat × Nat) :=
  (List.range 3504).filterMap fun j =>
    let s := 4688 + j
    let bs := Tab.get t (x.phys (64 * s)) (zeros 64)
    if !bad.contains (64 * s) && lineValid bs && bs.take 4 == ascii "SJNL" then some (s, leAt bs 4 4, leAt bs 8 4) else none

/-- The newest header. -/
def newestHeader : List (Nat × Nat × Nat) → Option (Nat × Nat × Nat)
  | [] => none
  | h :: t =>
    match newestHeader t with
    | some g => if seqNewer h.2.1 g.2.1 then some h else some g
    | none => some h

/-- The segments of the live window, oldest first. -/
def liveSegments (hs : List (Nat × Nat × Nat)) (head : Nat × Nat × Nat) : List Nat :=
  let age (h : Nat × Nat × Nat) : Nat := (head.2.1 + 2 ^ 32 - h.2.1 % 2 ^ 32) % 2 ^ 32
  (List.range 512).reverse.flatMap fun n => (hs.filter fun h => age h == n).map (·.1)

/-- The valid entries of the event ring: index and Seq. -/
def ringEntries (t : Tab Bytes) (x : StoreSt) : List (Nat × Nat) :=
  (List.range 32768).flatMap fun j =>
    match Tab.find t (x.phys (5120 + j)) with
    | none => []
    | some l => [0, 1].filterMap fun h =>
      let e := slice l (32 * h) 32
      if !allZero e && leAt e 28 4 == crc32 (e.take 28) then some (2 * j + h, leAt e 0 4) else none

/-- The newest entry of the ring. -/
def newestEntry : List (Nat × Nat) → Option (Nat × Nat)
  | [] => none
  | e :: t =>
    match newestEntry t with
    | some g => if seqNewer e.2 g.2 then some e else some g
    | none => some e

/-- The event ring as recovery finds it. -/
def Dev.recoverRing (d : Dev) (t : Tab Bytes) : Dev :=
  let es := ringEntries t d.st
  match newestEntry es with
  | none => d
  | some n =>
    let oldest := es.foldl (fun o e => if seqNewer o e.2 then e.2 else o) n.2
    ({ d with ring.nextSeq := (n.2 + 1) % 2 ^ 32, st.ringIdx := (n.1 + 1) % 65536 }.wr 0x5060 1 0 oldest).wr 0x5060 2 0 n.2

/-- The life records come back (R405, R407). -/
def Dev.recoverLife (d : Dev) (s : Scan) : Dev :=
  let pay (kind key : Nat) : Option Bytes := (Tab.find s.cur (recKey kind key)).map fun r => recPayload r.bytes
  let d := d.each (List.range 512) fun d a =>
    match pay 0x12 a with
    | some p => (d.wr 0x5040 1 a (leAt p 0 8)).each (List.range 8) fun d n => d.wr 0x5040 (2 + n) a (leAt p (8 + 4 * n) 4)
    | none => d
  let d := d.each (List.range 8) fun d u =>
    match pay 0x13 u with
    | some p =>
      let d := ((d.wr 0x3050 1 u (leAt p 0 8)).wr 0x3050 2 u (leAt p 8 8)).wr 0x3050 3 u (leAt p 16 4 / 3600 : Nat)
      (d.modLu u fun x => { x with formPs := leAt p 16 4 % 3600 * 1000000000 }).wr 0x3050 4 u (leAt p 20 4)
    | none => d
  let d := d.each (List.range 10) fun d i =>
    match pay 0x15 i with
    | some p => (d.add (0x8100 + i) 3 0 (leAt p 0 4)).add (0x8100 + i) 4 0 (leAt p 4 4)
    | none => d
  let d := match pay 0x14 0 with
    | some p =>
      let d := ((d.wr 0x5050 1 0 (leAt p 0 4)).wr 0x5050 3 0 (leAt p 8 4)).wr 0x5050 4 0 (leAt p 12 4)
      { d with st.opBase := leAt p 4 4 }.wr 0x5050 5 0 (leAt p 16 4)
    | none => d
  let d := { d with st.hourStart := d.st.opBase }
  match pay 0x30 0 with
  | some p =>
    let w := (List.range 4).map fun n => (n, leAt p (8 + 4 * n) 4)
    { d with st.areaWrites := w, st.w := leAt p 26 4, st.hourStart := leAt p 30 4 }.wr 0x5002 4 0 (leAt p 4 4)
  | none => d

/-- R417 for a local channel, from its record. -/
def Dev.judgeChannel (d : Dev) (c : Nat) (rc : Nat × Bytes) : Dev :=
  let p := recPayload rc.2
  let pos := (d.fbc c).pos + toSigned 64 (leAt p 0 8)
  let d := d.modFbc c fun x => { x with pos := wrapI64 pos }
  let hall := d.rn 0x2700 2 c != 2 && d.rn 0x2700 11 c != 0
  let live := d.liveSector c
  let d := d.wr 0x5021 3 c rc.1
  if byteAt p 17 == 0 then
    let (n, d) := d.freeNat
    d.setProof (512 + c) 0 (n % 9)
  else if bit (byteAt rc.2 1) 1 then d.setProof (512 + c) 0 3
  else if hall then
    if 6 ≤ live || 2 ≤ sectorDiff (expectedSector (d.rn 0x2700 11 c) (d.rn 0x2700 12 c) (d.rn 0x2700 8 c) pos) live
    then d.setProof (512 + c) 0 2 else d.setProof (512 + c) 1 0
  else d.setProof (512 + c) 2 0

/-- The position records found wait for the first valid windows of their axes; the channels are judged at once (R382, R416,
R417). -/
def Dev.recoverPositions (d : Dev) (s : Scan) : Dev :=
  let get (kind key : Nat) : Option (Nat × Bytes) := (Tab.find s.cur (recKey kind key)).map fun r => (1, r.bytes)
  let d := { d with st.rest := (List.range 512).filterMap fun a => (get 0x10 a).map fun r => (a, r) }
  d.each (List.range 8) fun d c =>
    if !d.rb 0x2700 1 c then d
    else
      match get 0x11 c with
      | some r => d.judgeChannel c r
      | none => d.setProof (512 + c) 0 1

/-- The active set, else the previous, else the factory set is loaded (R420). -/
def loadFirst (nv : Mem) (bad : List Nat) : List Nat → Dev → Dev
  | [], d => d
  | n :: ns, d =>
    if 4 ≤ n then loadFirst nv bad ns d
    else
      match d.st.image nv bad n with
      | none => loadFirst nv bad ns (d.loseArea n)
      | some img =>
        match d.checkSet img with
        | none => loadFirst nv bad ns (d.raise 0xCC (leBytes n 1 ++ leBytes (d.st.roleOf n) 1))
        | some r =>
          ((d.loadSet r.1 true).raise 0xCB (leBytes n 1 ++ leBytes (d.st.roleOf n) 1)).wr 0x5070 9 0 (min 65535 r.2 : Nat)

/-- The directory and the sets it names. -/
def Dev.recoverSets (d : Dev) (nv : Mem) (bad : List Nat) (s : Scan) : Dev :=
  match (Tab.find s.cur (recKey 0x20 0)).map fun r => recPayload r.bytes with
  | none => { d.recheck with st.factoryDue := true }
  | some p =>
    let d := { d with st.active := byteAt p 0, st.previous := byteAt p 1, st.factory := byteAt p 2 }
    let d := ((d.wr 0x5070 4 0 (leAt p 4 4)).wr 0x5070 5 0 (leAt p 8 4)).wr 0x5070 6 0 (leAt p 12 4)
    let d := match Tab.find s.cur (recKey 0x21 0) with
      | some r => d.wr 0x5070 7 0 (leAt (recPayload r.bytes) 0 2)
      | none => d
    let d := loadFirst nv bad [d.st.active, d.st.previous, d.st.factory] d
    let ident := (d.st.image nv bad d.st.factory).map fun i => leAt i.1 16 8
    let d := (if ident == some d.ld.fIdentity then d else { d with st.factoryDue := true })
    d.recheck

/-- Recovery ends without a store (R414). -/
def Dev.storeFailed (d : Dev) (cause : Nat) : Dev :=
  let d := ((d.wr 0x5000 1 0 3).wr 0x5000 2 0 cause).raise 0xC1 (leBytes cause 1)
  (d.each (List.range 520) fun d k => (d.wr (posObj k) 1 (posInst k) 0).wr (posObj k) 2 (posInst k) 1).recheck

/-- The journal of a formatted array is read, its records placed (R413, R415). -/
def Dev.recoverJournal (d : Dev) (nv : Mem) (t : Tab Bytes) (bad : List Nat) (hs : List (Nat × Nat × Nat)) : Dev :=
  let segs := match newestHeader hs with
    | some h => liveSegments hs h
    | none => []
  let s := segs.foldl (fun s g => (List.range 63).foldl (fun s j => s.line bad t d.st (64 * g + 1 + j)) s) ({} : Scan)
  let x := d.st
  let d := match newestHeader hs with
    | some h => { d with st := { x with
        head := h.1, used := 64, segSeq := h.2.1, pass := h.2.2, live := segs.length, cur := s.cur, prev := s.prev } }
    | none => d
  let d := ((d.wr 0x5000 4 0 s.torn).wr 0x5000 5 0 s.fell).wr 0x5000 10 0 d.st.live
  let d := ((d.wr 0x5000 6 0 d.st.reloc.length).wr 0x5002 3 0 d.st.pass).recoverRing t
  let d := d.recoverLife s
  let d := (d.add 0x5050 4 0 s.marks).add 0x5050 1 0 1
  let d := if s.bare then d.inc 0x5050 5 0 else d
  let d := (d.recoverSets nv bad s).recoverPositions s
  let d := { d with st.jobs := [.record 0x14 0 0 d.devicePayload] }
  let d := d.each bad fun d l => ((d.storeRead true).retire l none).raise 0xC7 (leBytes l 4)
  (if d.stState == 0 then d.wr 0x5000 1 0 1 else d).background

/-- RECOVERY_COMPLETE (R413 to R417): `bad` lines could not be read. -/
def recoveryDone (bad : List Nat) (nv : Mem) (d : Dev) : Dev × List NvWrite :=
  if d.md.fieldReset || !d.md.fieldFw || !d.st.recovering then (d, [])
  else
    let took := (d.now - d.st.startAt) / us
    let t := nvLines nv
    let x := d.st
    let d := { d with
      md.recovered := true
      st := { x with recovering := false, startAt := d.now, ckAt := d.now, lifeAt := d.now, reloc := mapOf t } }
    let d := ((d.wr 0x5000 3 0 took).wr 0x5000 7 0 x.result).wr 0x5000 9 0 x.duration
    let fixedOk (n : Nat) : Bool :=
      let l := Tab.get t n (zeros 64)
      !bad.contains n && lineValid l && l.take 4 == ascii "SAFR" && leAt l 4 2 == 1
    let hs := segHeaders bad t d.st
    let blank := t.all fun p => decide (1024 ≤ p.1)
    let r : Dev × List NvWrite :=
      if blank then
        let r := d.format nv
        (((r.1.wr 0x5050 1 0 1).raise 0xCB [0, 1]).recheck, r.2)
      else if !fixedOk 0 && !fixedOk 512 then (d.storeFailed 1, [])
      else if hs.isEmpty && t.any (fun p => decide (64 * 4688 ≤ p.1) && decide (p.1 < 524288)) then (d.storeFailed 2, [])
      else (d.recoverJournal nv t bad hs, [])
    let d := r.1
    let d := if !blank && (counterValues nv).isEmpty && d.stState != 3 then d.raise 0xC1 [3] else d
    let d := if d.st.logDue then { d with st.logDue := false }.raise 0xC3 (leBytes d.st.result 1) else d
    (d.raise 0xC2 (leBytes took 4 ++ leBytes (d.rn 0x5000 4 0) 4), r.2)

/-! ### The first valid window (R416, R417) -/

/-- R416 and R417 for an axis whose proof is pending, at its first valid window. -/
def Dev.restoreAxis (d : Dev) (a : Nat) : Dev :=
  if d.rn 0x5020 1 a != 3 || !d.md.recovered then d
  else
    let mode := d.rn 0x5010 1 a
    let ff := d.rn 0x2200 8 a
    let r0 : Int := if ff == 0xFF then 0 else (d.apf a).ext.getD 0
    let found := Tab.find d.st.rest a
    let d := { d with st.rest := Tab.del d.st.rest a }
    match found with
    | none => (d.setOrigin a 0).setProof a 0 1
    | some rc =>
      let p := recPayload rc.2
      let pos := toSigned 64 (leAt p 0 8)
      let org := toSigned 64 (leAt p 8 8)
      let d := d.wr 0x5020 3 a (if mode == 0 then 0 else rc.1)
      if mode == 0 then (d.setOrigin a org).setProof a 0 1
      else
        let q : Int := if mode == 1 then pos else r0 - 4294967296 * ((r0 - pos + 2147483648) / 4294967296)
        let d := if ff == 0xFF && mode == 1 then (d.setApf a { d.apf a with p := pos }).setOrigin a org
          else (d.setOrigin a (org + (r0 - q))).wr 0x5020 5 a (r0 - q)
        let src := d.rn 0x5010 2 a
        let live := d.axisSector a
        let exp := if src < 8 then expectedSector (d.rn 0x2700 11 src) (d.rn 0x2700 12 src) (d.rn 0x2700 8 src) q
          else expectedSector (d.rn 0x5010 3 a) (d.rn 0x5010 4 a) (d.rn 0x5010 5 a) q
        if byteAt p 25 == 0 then
          if leAt p 28 4 != d.binding a then d.setProof a 0 4
          else
            let (n, d) := d.freeNat
            d.setProof a 0 (n % 9)
        else if leAt p 28 4 != d.binding a then d.setProof a 0 4
        else if mode == 1 && bit (byteAt rc.2 1) 1 then d.setProof a 0 3
        else if src != 0xFF && (6 ≤ live || 2 ≤ sectorDiff exp live) then d.setProof a 0 2
        else
          match d.boundChan a with
          | some c => if d.rn 0x5021 1 c == 0 then d.setProof a 0 (d.rn 0x5021 2 c)
            else d.setProof a (if src == 0xFF then 2 else 1) 0
          | none => d.setProof a (if src == 0xFF then 2 else 1) 0

/-! ### Commands -/

/-- RECOVERY_COMPLETE. -/
def execRecoveryComplete (t : Nat) (badLines : List Nat) : State → Host.Outcome State Fault Refusal :=
  onMem t (fun _ nv d => recoveryDone badLines nv d)
/-- SET_WRITE_COMPLETE. -/
def execSetWriteComplete (t : Nat) (ok : Bool) : State → Host.Outcome State Fault Refusal := onLines t (fun _ d => setWriteDone ok d)

end Sys2Proof.Machine
end

