-- ==== Sys2Proof/Machine/Modes.lean ====
section
/-! DEFINITION. Resets of the two dies (R51 to R54, R516, R521), the device modes and their transitions (R36 to R44, R338). -/

namespace Sys2Proof.Machine

/-! ### Resets -/

/-- A low level of `width` ps resets a die (R51): below 1 µs never, from 2 µs always, between them open. -/
def Dev.pulse (d : Dev) (width : Nat) : Bool × Dev :=
  if width < us then (false, d) else if 2 * us ≤ width then (true, d) else d.freeBool

/-- The field die enters reset (R52): event 24h on the host die when the field die had started. `keep`: a last-breath
commit goes on (R521). -/
def Dev.fieldDown (d : Dev) (keep : Bool) : Dev :=
  let was := d.md.fieldReset
  let d := if !was && d.bar.host.started && !d.bar.host.silent then { d.raiseHost 0x24 [] with bar.host.silent := true } else d
  let d := if was then d else d.partnerReset .host
  let st := d.st
  let d := d.resetField
  let d := if keep && st.breath.isSome then
      { d with st := { st with cmd := none, jobs := [], recovering := false, factoryDue := false, activeDue := false } } else d
  let d := { d with md.fieldReset := true }
  if was then d else d.barrierLost false

/-- The field die leaves reset (R53, R74, R457, R512): Dormant, straps, seal and anti-rollback counter read. -/
def Dev.fieldUp (d : Dev) (nv : Mem) (ssc up down : Nat) : Dev :=
  let d := { d with
    md.fieldReset := false
    clk := { d.clk with fieldWait := none, straps := (ssc, up, down) }
    ld.rollback := rollbackOf nv }
  let d := ((d.wr 0x20 7 0 (rollbackOf nv)).wr 0x8050 1 0 (ssc % 8 : Nat)).wr 0x8050 7 0 (if d.st.pfail then 0 else 1)
  let d := if 6 ≤ ssc % 8 then d.raise 0x2B [] else d
  d.readSeal up down

/-- FRST_N_LOW: the commit stops after the line in progress (R411). -/
def frstLow (width : Nat) (nv : Mem) (d : Dev) : Dev × List LineWrite :=
  let p := d.pulse width
  if !p.1 then (p.2, [])
  else
    let r := p.2.breathStop 2 nv
    ({ r.1.fieldDown false with clk.fieldMon := false, clk.fieldWait := none }, r.2)

/-- FRST_N_RELEASE: at once, or when the detectors report lock (R516). -/
def frstRelease (ssc plls up down : Nat) (nv : Mem) (d : Dev) : Dev :=
  if !d.md.fieldReset then d
  else
    let d := { d with clk.locked := plls % 8 + d.clk.locked / 8 * 8 }
    if plls % 8 == 7 then { d with clk.failed := d.clk.failed.filter (· == 4), clk.lost := d.clk.lost.filter (· == 4) }.fieldUp nv ssc up down
    else { d with clk.fieldWait := some (ssc, up, down) }

/-- The host die enters reset (R51). -/
def Dev.hostDown (d : Dev) : Dev :=
  let was := d.md.hostReset
  let d := if was then d else d.partnerReset .field
  let d := { d.resetHost with md.hostReset := true }
  if was then d else d.barrierLost false

/-- HRST_N_LOW. -/
def hrstLow (width : Nat) (d : Dev) : Dev :=
  let p := d.pulse width
  if p.1 then { p.2.hostDown with clk.hostMon := false, clk.hostWait := false } else p.2

/-- HRST_N_RELEASE (R59): the boot ROM starts. -/
def hrstRelease (locked : Bool) (d : Dev) : Dev :=
  if !d.md.hostReset then d
  else if locked then
    { d with
      md.hostReset := false
      clk := { d.clk with hostWait := false, locked := setBit d.clk.locked 3 true, lost := d.clk.lost.filter (· != 4) } }
  else { d with clk.hostWait := true, clk.locked := setBit d.clk.locked 3 false }

/-! ### Judging requests (R40, R44, R56) -/

/-- The active parameter set is held in the store (R422). -/
def Dev.setHeld (d : Dev) : Bool := d.st.active < 4 && !d.rb 0x5070 3 0

/-- A segment of 1100h:1 that is essential and not cyclic (R206). -/
def Dev.essentialLost (d : Dev) : Bool :=
  (List.range 4).any fun s => d.rb (0x1100 + s) 1 0 && d.rb (0x1100 + s) 5 0 && d.segState s != 5

/-- A Safe-hold cause persists (R40, R43, R44). -/
def Dev.causePersists (d : Dev) : Bool :=
  !d.stopCauses.isEmpty || d.redundancy == 4 || d.essentialLost || (d.mode == 5 && d.rn 0x30 4 0 == 5 && !d.md.hostAccepted)

/-- Judgement of ModeRequest (R40). -/
def Dev.modeJudge (d : Dev) (v : Nat) : Nat :=
  let m := d.mode
  if v != 2 && v != 3 then 6
  else if m < 2 || m == 5 || v == m then 5
  else if d.rn 0x30 3 0 != 0xFF || d.md.stopping then 9
  else if v == 2 then 0
  else if (decide (d.st.active < 4) && d.rn 0x4000 1 0 != d.rn 0x5070 7 0) || d.rn 0x4000 3 0 != 0 then 0x0A
  else if !d.setHeld || !d.stReady then 0x0B
  else if (List.range 4).any (fun s => d.rb (0x1100 + s) 1 0 && d.segState s != 5) || d.safetyRefuses || d.causePersists then 5
  else 0

/-- The stop ramps of request 02h begin (R41). -/
def Dev.stopAll (d : Dev) : Dev :=
  let d := { d with md.stopping := true, md.stopDone := false }
  d.each d.enabledAxes fun d a => d.stopRampDue a

/-- A write of ModeRequest at the field die: its status. -/
def Dev.modeRequest (d : Dev) (v : Nat) : Nat × Dev :=
  let st := d.modeJudge v
  if st != 0 then (st, if v == 3 then d.raise 2 (leBytes st 1) else d)
  else
    let m := d.mode
    let d := d.wr 0x30 3 0 v
    if v != 2 then (0, d)
    else if m == 3 then (0, d.stopAll) else (0, { d with md.heldRequest := true })

/-- A write of SafeHoldAck at the field die (R44). -/
def Dev.holdAck (d : Dev) (v : Nat) : Nat × Dev :=
  if d.mode != 5 then (5, d)
  else if v != d.rn 0x30 5 0 then (6, d)
  else if !d.torqueAllOff || d.causePersists then (5, d)
  else (0, ({ d with md.ackAccepted := true }.wr 0x30 6 0 v).raise 4 [])

/-- A write of HostLossGrace at the field die (R56). -/
def Dev.graceWrite (d : Dev) (v : Nat) : Nat × Dev :=
  if 600000 < v then (6, d) else (0, (d.wr 0x30 7 0 v).noteP 0x30 7)

/-- What the host die answers while the field die runs no firmware (R37). -/
def hostJudge (e v : Nat) : Nat :=
  if e == 3 then (if v == 2 || v == 3 then 5 else 6)
  else if e == 7 then (if v ≤ 600000 then 5 else 6)
  else 5

/-- CONTROLLED_STOP_COMPLETE (R41). -/
def stopComplete (d : Dev) : Dev :=
  if d.md.fieldReset || !d.md.stopping || !(d.mode == 3 || d.mode == 4) || !(d.enabledAxes.all d.standstill) then d
  else { d with md.stopDone := true }

/-- HOST_LOSS_GRACE_EXPIRY (R55 to R57). -/
def graceAt (d : Dev) : Dev :=
  match d.md.grace with
  | some t => if d.md.fieldReset || d.now < t then d else d.graceExpired
  | none => d

/-! ### Transitions (R38) -/

/-- Time in Run and Ride-through (5050h:3). -/
def Dev.runNote (d : Dev) (new : Nat) : Dev :=
  let on (m : Nat) : Bool := m == 3 || m == 4
  if on new && !on d.mode then { d with st.runAt := some d.now }
  else if !on new && on d.mode then
    match d.st.runAt with
    | some t => { d with st.runAt := none, st.runPs := d.st.runPs + (d.now - t) }
    | none => d
  else d

/-- The device enters mode `new` (R38): event 00h with the cause, and what the mode brings. -/
def Dev.enterMode (d : Dev) (new cause : Nat) : Dev :=
  let old := d.mode
  let d := ((d.runNote new).wr 0x30 1 0 new).raise 0 (leBytes old 1 ++ leBytes new 1 ++ leBytes cause 1)
  if new == 2 then
    let d := { d.wr 0x30 3 0 0xFF with
      md.stopping := false, md.stopDone := false, md.heldRequest := false, md.ackAccepted := false, md.cause := none
      md.deferred := none }
    (((d.wr 0x30 2 0 0).safetyMode 2).profilePrepare).glidePrepare
  else if new == 5 then
    let d := { (d.wr 0x30 3 0 0xFF).wr 0x30 4 0 cause with
      md.stopping := false, md.stopDone := false, md.heldRequest := false, md.ackAccepted := false, md.cause := none
      md.deferred := none, md.stopped := false }
    ((((d.inc 0x30 5 0).raise 3 (leBytes cause 1)).safetyMode 5).safeHoldStop cause).updateCauses
  else if new == 3 then
    let d := (if d.md.heldRequest then { d with md.heldRequest := false }.stopAll
      else if d.md.stopping then d else d.wr 0x30 3 0 0xFF)
    if old == 2 then d.safetyMode 3 else d
  else d

/-- Transitions at a boundary before the line units: Safe-hold causes first. Answers whether Safe-hold was entered. -/
def Dev.transitionA (d : Dev) : Dev × Bool :=
  let m := d.mode
  match (if m == 3 || m == 4 then d.md.cause else none) with
  | some ev => (d.enterMode 5 ev, true)
  | none =>
    let d := { d with md.cause := none }
    let segsOk := (List.range 4).all fun s => !d.rb (0x1100 + s) 1 0 || 5 ≤ d.segState s
    if m == 1 && d.md.fieldFw && d.md.recovered && segsOk then (d.enterMode 2 0, false)
    else if m == 2 && d.rn 0x30 3 0 == 3 then (d.enterMode 3 0, false)
    else if m == 3 && d.md.stopping && d.md.stopDone then (d.enterMode 2 0, false)
    else if m == 5 && d.md.ackAccepted then (d.enterMode 2 4, false)
    else (d, false)

/-- Transitions after the line units and the Glide groups: Ride-through begins and ends (R338, R42, R57). -/
def Dev.transitionB (d : Dev) : Dev :=
  if d.mode == 3 && d.riding then d.enterMode 4 0xA0
  else if d.mode == 4 && d.rideOver then
    match d.md.deferred with
    | some ev => d.enterMode 5 ev
    | none =>
      if d.md.stopping && d.enabledAxes.all d.standstill then d.enterMode 2 0xA1 else d.enterMode 3 0xA1
  else d

/-- The Enable bit of the frames (R160). -/
def Dev.enableBit (d : Dev) : Bool := d.mode == 3 || d.mode == 4 || (d.mode == 5 && !d.md.stopped)

/-- The safe stop of Safe-hold has completed (R160, R44). -/
def Dev.stopNote (d : Dev) : Dev :=
  if d.mode == 5 && !d.md.stopped && d.torqueAllOff then { d with md.stopped := true } else d

/-! ### Commands -/

/-- FRST_N_LOW. -/
def execFrstNLow (t : Nat) (width : Nat) : State → Host.Outcome State Fault Refusal := onLines t (frstLow width)
/-- FRST_N_RELEASE. -/
def execFrstNRelease (t : Nat) (ssc plls sealUp sealDown : Nat) : State → Host.Outcome State Fault Refusal :=
  onMem t (fun _ nv d => (frstRelease ssc plls sealUp sealDown nv d, []))
/-- HRST_N_LOW. -/
def execHrstNLow (t : Nat) (width : Nat) : State → Host.Outcome State Fault Refusal := onDev t (hrstLow width)
/-- HRST_N_RELEASE. -/
def execHrstNRelease (t : Nat) (pllLocked : Bool) : State → Host.Outcome State Fault Refusal := onDev t (hrstRelease pllLocked)
/-- CONTROLLED_STOP_COMPLETE. -/
def execControlledStopComplete (t : Nat) : State → Host.Outcome State Fault Refusal := onDev t stopComplete
/-- HOST_LOSS_GRACE_EXPIRY. -/
def execHostLossGraceExpiry (t : Nat) : State → Host.Outcome State Fault Refusal := onDev t graceAt

end Sys2Proof.Machine
end

