-- ==== Sys2Proof/Machine/Objects.lean ====
section
/-! DEFINITION. The object service of the two dies (R81 to R114): the order of checks, writes and linked groups, requests
for gates, forwarding, kept responses, object access over CAN. -/

namespace Sys2Proof.Machine

/-! ### Linked groups (R101 to R104) -/

/-- Instance of the commit record of a member. -/
def groupInst (g i : Nat) : Nat := if soloGroups.contains g then 0 else i
/-- Key of an edit. -/
def editKey (g i : Nat) : Nat := okey g 0 i
/-- The open edit of a group. -/
def Dev.edit (d : Dev) (g i : Nat) : Option Edit := Tab.find d.ob.edits (editKey g i)
/-- Owner code of a source (element 3). -/
def ownerCode : Source → Nat
  | .port n _ _ => n % 2 + 1
  | .hcan _ => 3
  | .fcan _ => 4

/-- The edit of a group ends; State 0. -/
def Dev.editEnd (d : Dev) (g i : Nat) : Dev :=
  ({ d with ob.edits := Tab.del d.ob.edits (editKey g i) }.wr g 2 i 0).wr g 3 i 0

/-- A shadow takes a value; the first write opens the edit (R102). -/
def Dev.shadowWrite (d : Dev) (src : Source) (o e i : Nat) (v : Val) : Dev :=
  let g := groupRec o e
  let gi := groupInst g i
  let put (l : List ((Nat × Nat × Nat) × Val)) := (l.filter fun s => s.1 != (o, e, i)) ++ [((o, e, i), v)]
  match d.edit g gi with
  | some x => { d with ob.edits := Tab.put d.ob.edits (editKey g gi) { x with touched := d.now, shadows := put x.shadows } }
  | none =>
    ({ d with ob.edits := Tab.put d.ob.edits (editKey g gi)
                { owner := src, touched := d.now, shadows := put [], pending := none } }.wr g 2 gi 1).wr g 3 gi (ownerCode src)

/-- Command of a commit record at step 11 (R102, R104): a status, or `none` for a commit that waits for its boundary. -/
def Dev.groupCommand (d : Dev) (req : Req) (hdr : Bytes) (g i v : Nat) : Option Nat × Dev :=
  if v != 1 && v != 2 then (some 6, d)
  else
    match d.edit g i with
    | none => (some 0, d)
    | some x =>
      if x.owner != req.src then (some 9, d)
      else if v == 2 then (some 0, d.editEnd g i)
      else if x.pending.isSome then (some 9, d)
      else
        (none, { d with
          ob.edits := Tab.put d.ob.edits (editKey g i) { x with touched := d.now, pending := some (req, hdr) }
          ob.due := d.ob.due ++ [({ o := g, e := 1, i := i, v := .num 1, req := req, hdr := hdr } : DueWrite)] }.wr g 2 i 2)

/-- A pending commit at its boundary (R103). -/
def Dev.commitDue (d : Dev) (w : DueWrite) : Dev :=
  let g := w.o
  let i := w.i
  match d.edit g i with
  | none => d.reply w.req w.hdr 0
  | some x =>
    if x.pending != some (w.req, w.hdr) then d.reply w.req w.hdr 0
    else
      let back (d : Dev) (st : Nat) : Dev :=
        let d := { d with ob.edits := Tab.put d.ob.edits (editKey g i) { x with touched := d.now, pending := none } }
        (((d.wr g 2 i 1).wr g 7 i st).inc g 9 i).reply w.req w.hdr st
      if groupRwp g && d.mode != 2 then back d 5
      else
        let n := d.each x.shadows fun d s => d.setVal s.1.1 s.1.2.1 s.1.2.2 s.2
        match groupFail false d n g i with
        | some f => back (((d.wr g 4 i f.1).wr g 5 i f.2.1).wr g 6 i f.2.2) 7
        | none =>
          let n := (n.editEnd g i).inc g 8 i
          let n := n.each x.shadows fun n s => n.noteP s.1.1 s.1.2.1
          (groupApplied d g i n).reply w.req w.hdr 0

/-- EDIT_TIMEOUT (R102). -/
def editTimeoutAt (g i : Nat) (d : Dev) : Dev :=
  match d.edit g i with
  | some x => if d.md.fieldReset || x.pending.isSome || d.now < x.touched + 10 * sec then d else d.editEnd g i
  | none => d

/-! ### Writes outside the linked groups (R97, R98) -/

/-- Step 11 for a field-die element outside the linked groups: its status. -/
def Dev.dueCheck (d : Dev) (o e i : Nat) (v : Val) : Nat :=
  let n := v.nat
  let r := ((desc? o e).map Desc.rng).getD .any
  if !rangeOk r v || !lengthOk o e v then 6
  else if o == 0x1000 && e == 1 then (if n == 0 || n == 48712 then 6 else 0)
  else if o == 0x1000 && e == 2 then (if n % 2 == 1 || 0x7FE < n || n == d.rn 0x1000 3 0 then 6 else 0)
  else if o == 0x1000 && e == 3 then
    (if n != 0xFFFF && (n % 2 == 1 || 0x7FE < n || n == d.rn 0x1000 2 0) then 6 else 0)
  else if 0x1120 ≤ o && o ≤ 0x1123 then segCheck d (o - 0x1120) e n
  else if o == 0x2160 && e == 5 then faultAckCheck d i n
  else if o == 0x2170 && e == 2 then (if n != 0xFF && d.regions i ≤ n then 6 else 0)
  else if o == 0x2210 && e == 8 then d.profCheck i n
  else if o == 0x3030 && e == 5 then lineCmdCheck d i n
  else if 0x3110 ≤ o && o ≤ 0x3117 && e == 2 then glideCmdCheck d (o - 0x3110) n
  else if o == 0x4040 && e == 5 then (if n == 0 then 0 else d.resetCheck i)
  else if o == 0x5060 && e == 3 then (if n < d.rn 0x5060 1 0 || d.rn 0x5060 2 0 < n then 6 else 0)
  else if 0x6000 ≤ o && o ≤ 0x6003 then
    let u := o - 0x6000
    if e == 2 then (if (d.capU u).state == 0 then 0 else 5)
    else if e == 3 then (d.capCommand u n).1
    else if e == 8 then (if d.capInRecord u n then 0 else 6)
    else 0
  else if o == 0x7000 then timeCheck d e n
  else if o == 0x9020 && e == 3 then swapCheck d n
  else 0

/-- What an accepted write does before its boundary: a profile command joins the commands of its axis (R351), a release
clears latched demands (R448). -/
def Dev.dueAccept (d : Dev) (o e i : Nat) (v : Val) : Dev :=
  if o == 0x2210 && e == 8 then d.profAccept i v.nat
  else if o == 0x4040 && e == 5 && v.nat == 1 then d.releaseAxes (d.groupOf i) (leBytes i 2)
  else d

/-- Counts cleared by ClearCounts (R33, R34). -/
def Dev.clearCounts (d : Dev) (o i : Nat) : Dev :=
  if o == 0x2720 then d.each (List.range 7) fun d n => d.wr o (n + 1) i 0
  else
    let d := (((d.wr o 1 0 0).wr o 2 0 0).wr o 5 0 0).wr o 6 0 0
    if o == 0x8101 then { d with bar.clearDue := true, bar.clearWait := true } else d

/-- A written value comes into force at its boundary. -/
def Dev.dueApply (d : Dev) (o e i : Nat) (v : Val) : Dev :=
  let n := v.nat
  if 0x1120 ≤ o && o ≤ 0x1123 && e == 5 then (if n == 1 then (d.setSg (o - 0x1120) { d.sg (o - 0x1120) with autoAt := 0 }).segRestart (o - 0x1120) else d)
  else if o == 0x2160 && e == 5 then (if n == 1 then d.faultAck i else d)
  else if o == 0x2210 && e == 8 then d
  else if o == 0x2600 || o == 0x2601 || o == 0x2602 || o == 0x2603 then (d.setVal o e i v).tablesAgain.noteP o e
  else if o == 0x2710 && e == 14 then (if n == 1 then d.fbArm i else d)
  else if (o == 0x2720 && e == 8) || (0x8100 ≤ o && o ≤ 0x8109 && e == 7) then (if n == 1 then d.clearCounts o i else d)
  else if o == 0x3030 && e == 5 then d.modLu i fun x => { x with cmd := some n }
  else if 0x3110 ≤ o && o ≤ 0x3117 && e == 2 then d.modGg (o - 0x3110) fun x => { x with cmd := some n }
  else if o == 0x4040 && e == 5 then d
  else if 0x6000 ≤ o && o ≤ 0x6003 then
    let u := o - 0x6000
    if e == 2 then ((d.setVal o e i v).capConfig u (d.setVal o e i v |>.rblob o e i)).noteP o e
    else if e == 3 then (d.capCommand u n).2
    else (d.setCapU u { d.capU u with readRow := n }).wr o e i n
  else if o == 0x7000 then (timeApply d e n).noteP o e
  else if o == 0x9020 && e == 3 then (if n == 1 then { d with eng.swapDue := true } else d)
  else (d.setVal o e i v).noteP o e

/-- The writes and commits due at a boundary, in order of execution; commits of the stage-parameter group after those of
the law structure (R98, R100, R242). -/
def Dev.dueAll (d : Dev) : Dev :=
  let ws := d.ob.due
  let late (w : DueWrite) : Bool := w.o == 0x1025
  let d := { d with ob.due := [] }
  d.each ((ws.filter fun w => !late w) ++ ws.filter late) fun d w =>
    if 0x1020 ≤ w.o && w.o ≤ 0x105F then d.commitDue w
    else (d.dueApply w.o w.e w.i w.v).reply w.req w.hdr 0

/-! ### Requests for a gate (R110, R111) -/

/-- Key of a gate. -/
def gateKey (s p : Nat) : Nat := s * 4096 + p

/-- A request addressed to a gate, past step 3. -/
def Dev.gateRequest (d : Dev) (req : Req) (msg : Bytes) : Dev :=
  let s := bits (mGate msg) 13 12
  let p := bits (mGate msg) 11 0
  if p == 0 || d.gateCount s < p then d.reply req msg 1
  else if d.segState s != 5 then d.reply req msg 9
  else { d with ob.gates := Tab.mod d.ob.gates (gateKey s p) [] fun l => l ++ [{ req := req, msg := msg, at_ := none }] }

/-- The outstanding request of a gate ends. -/
def Dev.gateDone (d : Dev) (s p : Nat) : Dev :=
  match Tab.get d.ob.gates (gateKey s p) [] with
  | _ :: r :: rest => { d with ob.gates := Tab.put d.ob.gates (gateKey s p) (r :: rest) }
  | _ => { d with ob.gates := Tab.del d.ob.gates (gateKey s p) }

/-- GATE_RESPONSE_TIMEOUT (R111): the response has not begun 2 ms after the last fragment was delivered. -/
def gateTimeout (s p : Nat) (d : Dev) : Dev :=
  match Tab.get d.ob.gates (gateKey s p) [] with
  | g :: _ =>
    match g.at_ with
    | some t =>
      let begun := match (d.sg s).up with
        | some u => u.1 == p
        | none => false
      if d.md.fieldReset || begun || d.now < t + 2 * ms then d
      else
        let d := { (d.inc 0x1000 8 0).gateDone s p with ob.gateLate := (gateKey s p, g.req.tag) :: d.ob.gateLate }
        d.reply g.req g.msg 9
    | none => d
  | [] => d

/-- The head's own requests to gates (R370): no source of requests. -/
def headSource : Source := .port 255 0 0

/-- A stepper gate answers a table write of the head (R370): tags count 4 per change of a table. -/
def Dev.tableAnswer (d : Dev) (s p : Nat) (msg : Bytes) : Dev :=
  if byteAt msg 7 != 0 || mTag msg / 4 != d.prof.tableGen % 16384 then d
  else
    d.each (d.axesAt s p) fun d a =>
      let ts := ((mTag msg % 4) :: (d.apf a).tables).eraseDups
      (d.setApf a { d.apf a with tables := ts }).wb 0x2251 5 a (ts.length == 4)

/-- The head writes all four tables to every stepper gate of a segment (R370); older writes are dropped. -/
def Dev.sendTables (d : Dev) (s : Nat) : Dev :=
  d.each ((d.positions s).filter fun p => bit (gKind ((d.sg s).gate p).desc) 3) fun d p =>
    let q := (Tab.get d.ob.gates (gateKey s p) []).filter fun g => g.req.src != headSource
    let new := (List.range 4).map fun j =>
      let r : Req := { src := headSource, tag := d.prof.tableGen % 16384 * 4 + j }
      let v := d.rblob (0x2600 + j) 1 0
      ({ req := r, at_ := none
         msg := [2, 1] ++ leBytes r.tag 2 ++ leBytes (0x2600 + j) 2 ++ leBytes 1 1 ++ leBytes (tyCode .blob) 1 ++ leBytes 0 2 ++
           leBytes (32768 + s * 4096 + p) 2 ++ leBytes 0 2 ++ leBytes v.length 2 ++ v } : GateReq)
    { d with ob.gates := Tab.put d.ob.gates (gateKey s p) (q ++ new) }.each (d.axesAt s p) fun d a =>
      (d.setApf a { d.apf a with tables := [] }).wr 0x2251 5 a 0

/-- A whole message of a gate comes up its acyclic slot (R110 to R112). -/
def Dev.gateResponse (d : Dev) (s p : Nat) (msg : Bytes) : Dev :=
  let k := gateKey s p
  if mOp msg < 0x80 then d.inc 0x1000 10 0
  else if d.ob.gateLate.contains (k, mTag msg) then { d with ob.gateLate := d.ob.gateLate.erase (k, mTag msg) }
  else
    match Tab.get d.ob.gates k [] with
    | g :: _ =>
      if g.at_.isSome && g.req.tag == mTag msg then
        (if g.req.src == headSource then (d.gateDone s p).tableAnswer s p msg else (d.gateDone s p).fieldAnswer g.req msg)
      else d
    | [] => d

/-! ### The server of the field die (R88 to R92) -/

/-- Step 2: the form of the header. -/
def formBad (msg : Bytes) : Bool :=
  let op := mOp msg
  msg.length < 16 || op == 0 || 4 < op || 2 ≤ mFlags msg || bit (mGate msg) 14 || (mGate msg != 0 && !bit (mGate msg) 15) ||
    (3 ≤ op && (mType msg != 0 || mOff msg != 0 || mLen msg != 0)) ||
    (mVal msg).length != (if op == 2 then mLen msg else 0)

/-- The instance that a request means; `none`: out of range (R4, R88). -/
def instOf (o i : Nat) : Option Nat :=
  let n := ((desc? o 0).map Desc.insts).getD 0
  if n == 0 then (if i == 0 || i == 0xFFFF then some 0 else none) else if i < n then some i else none

/-- The staging copy of an element. -/
def Dev.staged (d : Dev) (o e i : Nat) : Option Staging := d.ob.staging.find? fun s => s.o == o && s.e == e && s.i == i
/-- The element without its staging copy. -/
def Dev.unstage (d : Dev) (o e i : Nat) : Dev :=
  { d with ob.staging := d.ob.staging.filter fun s => !(s.o == o && s.e == e && s.i == i) }

/-- Step 6 for a read: the type field and Length (R89). -/
def readFormBad (o e : Nat) (msg : Bytes) : Bool :=
  let t := tyOf o e
  (mType msg != 0 && mType msg != tyCode t) || (!tyBytes t && (mOff msg != 0 || (mLen msg != 0 && mLen msg != tySize t)))

/-- Step 6 for a write: the type field, Length and Offset (R87, R89, R90). -/
def Dev.writeFormBad (d : Dev) (src : Source) (o e i : Nat) (msg : Bytes) : Bool :=
  let t := tyOf o e
  let have_ := match d.staged o e i with
    | some s => if s.src == src then s.data.length else 0
    | none => 0
  mType msg != tyCode t ||
    (if tyBytes t then 1024 < mLen msg || (mOff msg != 0 && mOff msg != have_) || maxLen o e < mOff msg + mLen msg
     else mOff msg != 0 || mLen msg != tySize t)

/-- A segment of a STR or BLOB joins its staging copy (R90): the whole value when End is set. -/
def Dev.stage_ (d : Dev) (src : Source) (o e i : Nat) (msg : Bytes) : Dev × Option Bytes :=
  let old := match d.staged o e i with
    | some s => if mOff msg == 0 then [] else s.data
    | none => []
  let data := old ++ mVal msg
  let d := d.unstage o e i
  if mEnd msg then (d, some data)
  else ({ d with ob.staging := d.ob.staging ++ [{ o := o, e := e, i := i, src := src, data := data, touched := d.now }] }, none)

/-- A write past step 10 with its whole value: step 11, then its effect and answer. -/
def Dev.fieldWrite (d : Dev) (nv : Mem) (req : Req) (hdr : Bytes) (o e i : Nat) (v : Val) : Dev × List NvWrite :=
  let n := v.nat
  let done (r : Nat × Dev) : Dev × List NvWrite := (r.2.reply req hdr r.1, [])
  if 0x1020 ≤ o && o ≤ 0x105F then
    let r := d.groupCommand req hdr o i n
    match r.1 with
    | some st => done (st, r.2)
    | none => (r.2, [])
  else if groupRec o e != 0 then
    if !rangeOk (((desc? o e).map Desc.rng).getD .any) v || !lengthOk o e v then done (6, d)
    else done (0, d.shadowWrite req.src o e i v)
  else if o == 0x30 && e == 3 then done (d.modeRequest n)
  else if o == 0x30 && e == 6 then done (d.holdAck n)
  else if o == 0x30 then done (d.graceWrite n)
  else if o == 0x20 then
    if n == 1 && d.ld.rollback < d.ld.fSecurity then
      let d := { d with
        ld.rollback := d.ld.fSecurity
        st.jobs := d.st.jobs ++ (counterLines d.ld.fSecurity).map fun (l : Nat × Bytes) => StJob.fixed l.1 l.2 }
      done (0, d.wr 0x20 7 0 d.ld.rollback)
    else done (0, d)
  else if o == 0x5070 then
    let r := d.setJudge nv req hdr n
    if r.1 == 0 then (r.2, []) else done r
  else if o == 0x5000 && e == 8 then
    if d.mode != 2 then done (5, d)
    else if n != Config.serial % 2 ^ 32 then done (6, d)
    else
      let r := d.format nv
      (r.1.reply req hdr 0, r.2)
  else
    let st := d.dueCheck o e i v
    if st != 0 then done (st, d)
    else
      ({ d.dueAccept o e i v with
        ob.due := d.ob.due ++ [{ o := o, e := e, i := i, v := v, req := req, hdr := hdr }] }, [])

/-- The element belongs to the edit of another source, or is staged by one (step 9). -/
def Dev.heldByOther (d : Dev) (src : Source) (o e i : Nat) : Bool :=
  let g := groupRec o e
  (g != 0 && (match d.edit g (groupInst g i) with
    | some x => x.owner != src
    | none => false)) ||
  (match d.staged o e i with
    | some s => s.src != src
    | none => false)

/-- Steps 6 to 11 of a write. -/
def Dev.writeSteps (d : Dev) (nv : Mem) (req : Req) (o e i : Nat) (msg : Bytes) : Dev × List NvWrite :=
  let ans (d : Dev) (st : Nat) : Dev × List NvWrite := (d.reply req msg st, [])
  let acc := ((desc? o e).map Desc.acc).getD .r
  let mine := match d.staged o e i with
    | some s => s.src == req.src
    | none => false
  if d.writeFormBad req.src o e i msg then ans (if mine then d.unstage o e i else d) 3
  else if acc == .r then ans d 4
  else if acc == .rwp && d.mode != 2 then ans d 5
  else if d.heldByOther req.src o e i then ans d 9
  else if !valueOk (tyOf o e) (mVal msg) then ans d 6
  else if tyBytes (tyOf o e) then
    let r := d.stage_ req.src o e i msg
    match r.2 with
    | none => ans r.1 0
    | some data => r.1.fieldWrite nv req (msg.take 16) o e i (.blob data)
  else d.fieldWrite nv req (msg.take 16) o e i (valueOf (tyOf o e) (mVal msg))

/-- Steps 2 to 11 at the field die for a request that it has taken (R92). Boot objects are served by the host die: only the
writes that it forwards are known here. -/
def Dev.fieldSteps (sram nv : Mem) (d : Dev) (req : Req) (msg : Bytes) : Dev × List NvWrite :=
  let ans (st : Nat) : Dev × List NvWrite := (d.reply req msg st, [])
  let val (v : Bytes) (fin : Bool) : Dev × List NvWrite := (d.fieldAnswer req (respMsg msg 0 v fin), [])
  let o := mObj msg
  let e := mEl msg
  let op := mOp msg
  let fcan := match req.src with
    | .fcan _ => true
    | .port _ _ _ => false
    | .hcan _ => false
  let forwarded := !fcan && op == 2 && ((o == 0x30 && (e == 3 || e == 6 || e == 7)) || (o == 0x20 && e == 8))
  if formBad msg then ans 3
  else if d.mode < 2 && op != 4 && (0x1000 ≤ o || mGate msg != 0) then ans 8
  else if mGate msg != 0 then (if d.mode < 2 then ans 8 else (d.gateRequest req msg, []))
  else if op == 4 then val (leBytes (if d.mode < 2 then 0xFFFF else nextObj (max o 0xFFF) false) 2) false
  else if !objKnown o || (o < 0x1000 && !forwarded) then ans 1
  else
    match instOf o (mInst msg) with
    | none => ans 1
    | some i =>
      if objCount o < e then ans 2
      else if op == 3 then val (describe o e) false
      else if op == 1 then
        if readFormBad o e msg then ans 3
        else
          match readSegment (tyOf o e) (d.readEl sram nv o e i) (mOff msg) (mLen msg) with
          | none => ans 3
          | some r => val r.1 r.2
      else d.writeSteps nv req o e i msg

/-- A request at the field die: the message is taken from its mailbox, or arrives on FCAN (step 1). -/
def fieldRequest (src : Source) (msg : Bytes) (sram nv : Mem) (d : Dev) : Dev × List NvWrite :=
  if d.md.fieldReset || !d.md.fieldFw then (d, [])
  else
    let req : Req := ⟨src, mTag msg⟩
    let boot := mOp msg == 2 && mObj msg == 0x30
    match src with
    | .fcan base =>
      if d.rn 0x1000 3 0 == 0xFFFF || base != d.rn 0x1000 3 0 then (d, [])
      else if d.ob.fcanOpen.any (fun q => q.src == src) then (d.emit (.response .field (.fcan base) (respMsg msg 9 [] false)), [])
      else ({ d with ob.fcanOpen := d.ob.fcanOpen ++ [req] }.fieldTake req).fieldSteps sram nv req msg
    | .port _ _ _ =>
      ((d.takeMail .field (if boot then (if mEl msg == 6 then 7 else 6) else 4)).fieldTake req).fieldSteps sram nv req msg
    | .hcan _ =>
      ((d.takeMail .field (if boot then (if mEl msg == 6 then 7 else 6) else 5)).fieldTake req).fieldSteps sram nv req msg

/-- STAGING_TIMEOUT (R90). -/
def stagingTimeoutAt (o e i : Nat) (d : Dev) : Dev :=
  match d.staged o e i with
  | some s => if d.now < s.touched + 10 * sec then d else d.unstage o e i
  | none => d

/-! ### The host die (R48, R81, R94, R95, R105, R114) -/

/-- The count of outstanding requests (1000h:4). -/
def Dev.countOut (d : Dev) : Dev := d.hwr 0x1000 4 0 (d.ob.outstanding.length : Nat)

/-- A response leaves on the route of its source; every 09h is counted (R114). -/
def Dev.hostSend (d : Dev) (src : Source) (resp : Bytes) : Dev :=
  (if mType resp == 9 then d.hinc 0x1000 5 0 else d).emit (.response .host src resp)

/-- The last 64 responses of a source are kept (R94). -/
def keep (l : List Kept) (x : Kept) : List Kept :=
  let others := l.filter fun k => k.src != x.src
  let own := (l.filter fun k => k.src == x.src && k.tag != x.tag) ++ [x]
  others ++ own.drop (own.length - 64)

/-- A value of a boot object as the host die serves it. -/
def Dev.hostEl (d : Dev) (o e : Nat) : Bytes :=
  if o == 0x40 && e == 2 then (if d.ld.keySlot1.isEmpty then zeros 32 else d.ld.keySlot1)
  else if tyBytes (tyOf o e) then d.hblob o e 0 else encodeNum (tyOf o e) (d.hrd o e 0)

/-- A write of 0040h:2 past step 10 (R65). -/
def Dev.keyWrite (d : Dev) (v : Bytes) : Nat × Dev :=
  if v.length != 32 then (3, d)
  else if d.hrn 0x30 1 0 != 0 || d.ld.session.isSome || !allZero (d.hostEl 0x40 2) || allZero v then (5, d)
  else (0, { d with ld.keySlot1 := v })

/-- A request that the host die answers itself: its response. -/
def Dev.hostServe (d : Dev) (src : Source) (msg : Bytes) : Bytes × Dev :=
  let ans (st : Nat) : Bytes × Dev := (respMsg msg st [] false, d)
  let o := mObj msg
  let e := mEl msg
  let op := mOp msg
  if formBad msg then ans 3
  else if op == 4 && mGate msg == 0 then (respMsg msg 0 (leBytes (nextObj o true) 2) false, d)
  else if 0x1000 ≤ o || mGate msg != 0 then ans 8
  else if !objKnown o then ans 1
  else
    match instOf o (mInst msg) with
    | none => ans 1
    | some _ =>
      if objCount o < e then ans 2
      else if op == 3 then (respMsg msg 0 (describe o e) false, d)
      else if op == 1 then
        if readFormBad o e msg then ans 3
        else
          match readSegment (tyOf o e) (d.hostEl o e) (mOff msg) (mLen msg) with
          | none => ans 3
          | some r => (respMsg msg 0 r.1 r.2, d)
      else
        let acc := ((desc? o e).map Desc.acc).getD .r
        if d.writeFormBad src o e 0 msg then ans 3
        else if acc == .r then ans 4
        else if acc == .rwp then ans 5
        else if d.heldByOther src o e 0 then ans 9
        else if !valueOk (tyOf o e) (mVal msg) then ans 6
        else if o == 0x30 then ans (hostJudge e (ofLe (mVal msg)))
        else
          let r := d.stage_ src o e 0 msg
          match r.2 with
          | none => (respMsg msg 0 [] false, r.1)
          | some v => let k := r.1.keyWrite v; (respMsg msg k.1 [] false, k.2)

/-- How a request is served: 0 by the host die, else the barrier mailbox that carries it (R37, R81). -/
def Dev.hostRoute (d : Dev) (src : Source) (msg : Bytes) : Nat :=
  let o := mObj msg
  let e := mEl msg
  let early := d.hrn 0x30 1 0 < 2
  let mail := match src with
    | .port _ _ _ => 4
    | .hcan _ => 5
    | .fcan _ => 5
  if formBad msg then 0
  else if mGate msg != 0 || mOp msg == 4 then (if early then 0 else mail)
  else if 0x1000 ≤ o then (if early then 0 else mail)
  else if mOp msg == 2 && o == 0x30 && (e == 3 || e == 6 || e == 7) then
    (if !d.md.fieldReported then 0 else if e == 6 then 7 else 6)
  else if mOp msg == 2 && o == 0x20 && e == 8 then (if d.hrn 0x30 1 0 == 2 then mail else 0)
  else 0

/-- The requests of a source are executed and answered in their order (R82). -/
def hostPump (src : Source) : Nat → Dev → Dev
  | 0, d => d
  | k + 1, d =>
    match d.ob.outstanding.find? fun x => x.src == src with
    | none => d
    | some x =>
      match x.resp with
      | some r =>
        let d := { d with
          ob.outstanding := d.ob.outstanding.erase x
          ob.kept := keep d.ob.kept { src := src, tag := x.tag, resp := r, at_ := d.now, expired := x.expired } }
        let d := d.hostSend src r
        let d := d.each (List.range x.later) fun d _ => (d.emit (.response .host src r)).hinc 0x1000 6 0
        hostPump src k d
      | none =>
        if x.route != 0 then d
        else
          let r := d.hostServe src x.msg
          let d := r.2
          hostPump src k { d with ob.outstanding := d.ob.outstanding.map fun y => if y == x then { x with resp := some r.1 } else y }

/-- The requests of a source as far as they can be answered. -/
def Dev.pump (d : Dev) (src : Source) : Dev := (hostPump src 40 d).countOut

/-- The host die serves object access from `src`: host ports always, HCAN on its base identifier once host firmware runs
(R49, R109), and on 540h in the boot exchange of a woken boot ROM (R80). -/
def Dev.hostServes (d : Dev) : Source → Bool
  | .port _ _ _ => true
  | .hcan base => if d.md.hostFw then base == d.ob.hostHcanBase else d.ld.hcanWake && base == 0x540
  | .fcan _ => false

/-- A request at the host die (R48, R92 step 1, R94, R108). -/
def hostRequest (src : Source) (msg : Bytes) (d : Dev) : Dev :=
  if d.md.hostReset || !d.hostServes src then d
  else
    let tag := mTag msg
    match d.ob.kept.find? fun k => k.src == src && k.tag == tag with
    | some k => (d.emit (.response .host src k.resp)).hinc 0x1000 6 0
    | none =>
      let can := match src with
        | .port _ _ _ => false
        | .hcan _ => true
        | .fcan _ => true
      if d.ob.outstanding.any fun x => x.src == src && x.tag == tag then
        { d with ob.outstanding := d.ob.outstanding.map fun x =>
            if x.src == src && x.tag == tag then ({ x with later := x.later + 1 } : Outstanding) else x }
      else if 16 ≤ d.ob.outstanding.length || (can && d.ob.outstanding.any fun x => x.src == src) then
        d.hostSend src (respMsg msg 9 [] false)
      else
        let route := d.hostRoute src msg
        let d := { d with ob.outstanding := d.ob.outstanding ++ [({ src := src, tag := tag, msg := msg, at_ := d.now, route := route } : Outstanding)] }
        let d := if route == 4 then { d with ob.fwd4 := d.ob.fwd4 ++ [(src, msg)] }
          else if route == 5 then { d with ob.fwd5 := d.ob.fwd5 ++ [(src, msg)] }
          else if route == 6 then { d with ob.fwd6 := d.ob.fwd6 ++ [(src, msg)] }
          else if route == 7 then { d with ob.fwd7 := d.ob.fwd7 ++ [(src, msg)] }
          else d
        d.pump src

/-- The earlier requests of a source allow that `tag` goes by mailbox `mbx` (R82). -/
def mayForward (src : Source) (tag mbx : Nat) : List Outstanding → Bool
  | [] => true
  | x :: t =>
    if x.src == src && x.tag == tag then true
    else if x.src == src && x.resp.isNone && !(x.forwarded && x.route == mbx) then false
    else mayForward src tag mbx t

/-- The bytes of a forwarded request (R106). -/
def forwardBytes (mbx : Nat) (src : Source) (msg : Bytes) : Bytes :=
  match src with
  | .port n ip udp =>
    if mbx == 4 then leBytes ip 4 ++ leBytes udp 2 ++ leBytes (n + 1) 1 ++ [0] ++ msg
    else Config.mailBytes mbx ([n, ip, udp] ++ msg.map BitVec.toNat)
  | .hcan base => if mbx == 5 then msg else Config.mailBytes mbx ([2, base] ++ msg.map BitVec.toNat)
  | .fcan _ => msg

/-- FORWARD_REQUEST (R81): the oldest request that waits for the mailbox goes. -/
def forwardAt (mbx : Nat) (d : Dev) : Dev :=
  let q := if mbx == 4 then d.ob.fwd4 else if mbx == 5 then d.ob.fwd5 else if mbx == 6 then d.ob.fwd6
    else if mbx == 7 then d.ob.fwd7 else []
  match q with
  | [] => d
  | (src, msg) :: rest =>
    if d.md.hostReset || d.sendBusy .host mbx || !mayForward src (mTag msg) mbx d.ob.outstanding then d
    else
      let out := d.ob.outstanding.map fun x => if x.src == src && x.tag == mTag msg then { x with forwarded := true } else x
      let d := { d with ob.outstanding := out }
      let d := if mbx == 4 then { d with ob.fwd4 := rest } else if mbx == 5 then { d with ob.fwd5 := rest }
        else if mbx == 6 then { d with ob.fwd6 := rest } else { d with ob.fwd7 := rest }
      d.sendMsg .host mbx (forwardBytes mbx src msg)

/-- A response of the field die as the host die hands it on: Next covers both dies (R91). -/
def mergeNext (req resp : Bytes) : Bytes :=
  if mOp req == 4 && mGate req == 0 && mType resp == 0 then
    respMsg req 0 (leBytes (min (ofLe (mVal resp)) (nextObj (mObj req) true)) 2) false
  else resp

/-- The host die reads elements 1-9 of 0030h as the response to a write of the record reports them (R548). -/
def Dev.takeBootVals (d : Dev) (req : Req) : Dev :=
  match d.ob.bootVals.find? fun q => q.1 == req with
  | none => d
  | some q =>
    let d := { d with ob.bootVals := d.ob.bootVals.filter fun w => w.1 != req }
    d.each ((List.range 9).zip q.2) fun d w => d.hwr 0x30 (w.1 + 1) 0 w.2

/-- OBJECT_RESPONSE (R95): the answer, or it replaces a kept 09h. -/
def responseAt (src : Source) (msg : Bytes) (d : Dev) : Dev :=
  if d.md.hostReset then d
  else
    let boot := mOp msg == 0x82 && mObj msg == 0x30
    let mbx := if boot then (if mEl msg == 6 then 7 else 6) else match src with
      | .port _ _ _ => 4
      | .hcan _ => 5
      | .fcan _ => 5
    let d := d.takeMail .host mbx
    let tag := mTag msg
    let d := if boot then d.takeBootVals ⟨src, tag⟩ else d
    match d.ob.outstanding.find? fun x => x.src == src && x.tag == tag && x.route != 0 && x.resp.isNone with
    | some x =>
      { d with ob.outstanding := d.ob.outstanding.map fun y =>
          if y == x then { x with resp := some (mergeNext x.msg msg) } else y }.pump src
    | none =>
      { d with ob.kept := d.ob.kept.map fun k =>
          if k.src == src && k.tag == tag && k.expired && decide (d.now < k.at_ + 2 * sec)
          then { k with resp := msg, expired := false } else k }

/-- FORWARD_TIMEOUT (R95). -/
def forwardTimeoutAt (src : Source) (tag : Nat) (d : Dev) : Dev :=
  match d.ob.outstanding.find? fun x => x.src == src && x.tag == tag && x.route != 0 && x.resp.isNone with
  | some x =>
    if d.md.hostReset || d.now < x.at_ + 500 * ms then d
    else
      let drop (l : List (Source × Bytes)) : List (Source × Bytes) := l.filter fun q => !(q.1 == src && mTag q.2 == tag)
      { d.hinc 0x1000 7 0 with
        ob.fwd4 := drop d.ob.fwd4, ob.fwd5 := drop d.ob.fwd5, ob.fwd6 := drop d.ob.fwd6, ob.fwd7 := drop d.ob.fwd7
        ob.outstanding := d.ob.outstanding.map fun y =>
          if y == x then { x with resp := some (respMsg x.msg 9 [] false), expired := true } else y }.pump src
  | none => d

/-- RESPONSE_CACHE_EXPIRY (R94). -/
def cacheExpiry (src : Source) (tag : Nat) (d : Dev) : Dev :=
  { d with ob.kept := d.ob.kept.filter fun k => !(k.src == src && k.tag == tag && decide (k.at_ + 2 * sec ≤ d.now)) }

/-! ### Object access over CAN (R107 to R109) -/

/-- A fragment joins the message in assembly: the new assembly, a whole message, and whether it counts in 1000h:10. -/
def takeFragment (asm : Option Assembly) (data : Bytes) : Option Assembly × Option Bytes × Bool :=
  let n := byteAt data 0 % 128
  let last := 128 ≤ byteAt data 0
  let bad := match asm with
    | none => n != 0
    | some a => n != a.next
  if bad && n != 0 then (none, none, true)
  else
    let old := if n == 0 then [] else (asm.getD {}).data
    let bs := old ++ data.drop 1
    if last then
      let len := if mOp bs == 2 || 0x80 ≤ mOp bs then 16 + mLen bs else 16
      (none, some (bs.take len), bad)
    else (some { next := n + 1, data := bs }, none, bad)

/-- CAN_OBJECT_FRAGMENT. -/
def canFragment (port : Die) (base : Nat) (data : Bytes) (sram nv : Mem) (d : Dev) : Dev × List NvWrite :=
  match port with
  | .host =>
    if d.md.hostReset || !d.hostServes (.hcan base) then (d, [])
    else
      let r := takeFragment d.ob.asmHcan data
      let d := { d with ob.asmHcan := r.1 }
      let d := if r.2.2 then d.hinc 0x1000 10 0 else d
      match r.2.1 with
      | some m => (hostRequest (.hcan base) m d, [])
      | none => (d, [])
  | .field =>
    if d.md.fieldReset || !d.md.fieldFw || d.rn 0x1000 3 0 == 0xFFFF || base != d.rn 0x1000 3 0 then (d, [])
    else
      let r := takeFragment d.ob.asmFcan data
      let d := { d with ob.asmFcan := r.1 }
      let d := if r.2.2 then d.inc 0x1000 10 0 else d
      match r.2.1 with
      | some m => fieldRequest (.fcan base) m sram nv d
      | none => (d, [])

/-! ### Commands -/

/-- A request at the server of a die. -/
def requestAt (site : Die) (src : Source) (msg : Bytes) (sram nv : Mem) (d : Dev) : Dev × List NvWrite :=
  match site with
  | .host => (hostRequest src msg d, [])
  | .field => fieldRequest src msg sram nv d

/-- A write of `req` that has a command of its own, at the field die. -/
def writeAt (req : Req) (o e i : Nat) (v : Bytes) (sram nv : Mem) (d : Dev) : Dev × List NvWrite :=
  fieldRequest req.src (writeMsg req o e i v) sram nv d

/-- A write of a boot object that the field die judges; while it runs no firmware the host die answers (R37). -/
def bootWriteAt (req : Req) (o e : Nat) (v : Bytes) (sram nv : Mem) (d : Dev) : Dev × List NvWrite :=
  if d.md.fieldReset || !d.md.fieldFw then (hostRequest req.src (writeMsg req o e 0 v) d, [])
  else writeAt req o e 0 v sram nv d

/-- OBJECT_READ. -/
def execObjectRead (t : Nat) (site : Die) (src : Source) (msg : Bytes) : State → Host.Outcome State Fault Refusal :=
  onMem t (requestAt site src msg)
/-- OBJECT_WRITE. -/
def execObjectWrite (t : Nat) (site : Die) (src : Source) (msg : Bytes) : State → Host.Outcome State Fault Refusal :=
  onMem t (requestAt site src msg)
/-- OBJECT_DESCRIBE. -/
def execObjectDescribe (t : Nat) (site : Die) (src : Source) (msg : Bytes) : State → Host.Outcome State Fault Refusal :=
  onMem t (requestAt site src msg)
/-- OBJECT_NEXT. -/
def execObjectNext (t : Nat) (site : Die) (src : Source) (msg : Bytes) : State → Host.Outcome State Fault Refusal :=
  onMem t (requestAt site src msg)
/-- FORWARD_REQUEST. -/
def execForwardRequest (t : Nat) (mailbox : Nat) : State → Host.Outcome State Fault Refusal := onDev t (forwardAt mailbox)
/-- OBJECT_RESPONSE. -/
def execObjectResponse (t : Nat) (src : Source) (msg : Bytes) : State → Host.Outcome State Fault Refusal :=
  onDev t (responseAt src msg)
/-- FORWARD_TIMEOUT. -/
def execForwardTimeout (t : Nat) (src : Source) (tag : Nat) : State → Host.Outcome State Fault Refusal :=
  onDev t (forwardTimeoutAt src tag)
/-- RESPONSE_CACHE_EXPIRY. -/
def execResponseCacheExpiry (t : Nat) (src : Source) (tag : Nat) : State → Host.Outcome State Fault Refusal :=
  onDev t (cacheExpiry src tag)
/-- STAGING_TIMEOUT. -/
def execStagingTimeout (t : Nat) (obj el inst : Nat) : State → Host.Outcome State Fault Refusal :=
  onDev t (stagingTimeoutAt obj el inst)
/-- COMMIT. -/
def execCommit (t : Nat) (req : Req) (rec_ inst : Nat) : State → Host.Outcome State Fault Refusal := onMem t (writeAt req rec_ 1 inst [1])
/-- DISCARD. -/
def execDiscard (t : Nat) (req : Req) (rec_ inst : Nat) : State → Host.Outcome State Fault Refusal :=
  onMem t (writeAt req rec_ 1 inst [2])
/-- EDIT_TIMEOUT. -/
def execEditTimeout (t : Nat) (rec_ inst : Nat) : State → Host.Outcome State Fault Refusal := onDev t (editTimeoutAt rec_ inst)
/-- CAN_OBJECT_FRAGMENT. -/
def execCanObjectFragment (t : Nat) (port : Die) (base : Nat) (data : Bytes) : State → Host.Outcome State Fault Refusal :=
  onMem t (canFragment port base data)
/-- GATE_RESPONSE_TIMEOUT. -/
def execGateResponseTimeout (t : Nat) (seg pos : Nat) : State → Host.Outcome State Fault Refusal := onDev t (gateTimeout seg pos)
/-- CLEAR_COUNTS. -/
def execClearCounts (t : Nat) (req : Req) (obj inst : Nat) : State → Host.Outcome State Fault Refusal :=
  onMem t (writeAt req obj (if obj == 0x2720 then 8 else 7) inst [1])
/-- CLEAR_HOST_BARRIER_COUNTS. -/
def execClearHostBarrierCounts (t : Nat) (req : Req) : State → Host.Outcome State Fault Refusal := onMem t (writeAt req 0x8101 7 0 [1])
/-- WRITE_MODE_REQUEST. -/
def execWriteModeRequest (t : Nat) (req : Req) (value : Nat) : State → Host.Outcome State Fault Refusal :=
  onMem t (bootWriteAt req 0x30 3 (leBytes value 1))
/-- WRITE_SAFE_HOLD_ACK. -/
def execWriteSafeHoldAck (t : Nat) (req : Req) (value : Nat) : State → Host.Outcome State Fault Refusal :=
  onMem t (bootWriteAt req 0x30 6 (leBytes value 4))
/-- WRITE_KEY_SLOT1. -/
def execWriteKeySlot1 (t : Nat) (req : Req) (value : Bytes) : State → Host.Outcome State Fault Refusal :=
  onDev t (hostRequest req.src (writeMsg req 0x40 2 0 value))
/-- ROLLBACK_ADVANCE. -/
def execRollbackAdvance (t : Nat) (req : Req) : State → Host.Outcome State Fault Refusal := onMem t (bootWriteAt req 0x20 8 [1])
/-- WRITE_SET_TIME. -/
def execWriteSetTime (t : Nat) (req : Req) (value : Nat) : State → Host.Outcome State Fault Refusal :=
  onMem t (writeAt req 0x7000 3 0 (leBytes value 10))
/-- WRITE_INCREMENT. -/
def execWriteIncrement (t : Nat) (req : Req) (value : Nat) : State → Host.Outcome State Fault Refusal :=
  onMem t (writeAt req 0x7000 2 0 (leBytes value 8))
/-- WRITE_STEERING. -/
def execWriteSteering (t : Nat) (req : Req) (value : Nat) : State → Host.Outcome State Fault Refusal :=
  onMem t (writeAt req 0x7000 4 0 (leBytes value 1))
/-- WRITE_RESTART. -/
def execWriteRestart (t : Nat) (req : Req) (seg : Nat) : State → Host.Outcome State Fault Refusal :=
  onMem t (writeAt req (0x1120 + seg) 5 0 [1])
/-- WRITE_FAULT_ACK. -/
def execWriteFaultAck (t : Nat) (req : Req) (axis : Nat) : State → Host.Outcome State Fault Refusal :=
  onMem t (writeAt req 0x2160 5 axis [1])
/-- WRITE_FORCE_REGION. -/
def execWriteForceRegion (t : Nat) (req : Req) (axis value : Nat) : State → Host.Outcome State Fault Refusal :=
  onMem t (writeAt req 0x2170 2 axis (leBytes value 1))
/-- WRITE_SWAP_REQUEST. -/
def execWriteSwapRequest (t : Nat) (req : Req) : State → Host.Outcome State Fault Refusal := onMem t (writeAt req 0x9020 3 0 [1])
/-- LINE_START. -/
def execLineStart (t : Nat) (req : Req) (unit : Nat) : State → Host.Outcome State Fault Refusal := onMem t (writeAt req 0x3030 5 unit [1])
/-- LINE_STOP. -/
def execLineStop (t : Nat) (req : Req) (unit : Nat) : State → Host.Outcome State Fault Refusal := onMem t (writeAt req 0x3030 5 unit [2])
/-- LINE_RESET_TRIP. -/
def execLineResetTrip (t : Nat) (req : Req) (unit : Nat) : State → Host.Outcome State Fault Refusal :=
  onMem t (writeAt req 0x3030 5 unit [3])
/-- GLIDE_RESUME. -/
def execGlideResume (t : Nat) (req : Req) (group : Nat) : State → Host.Outcome State Fault Refusal :=
  onMem t (writeAt req (0x3110 + group) 2 0 [1])
/-- GLIDE_RELEASE. -/
def execGlideRelease (t : Nat) (req : Req) (group : Nat) : State → Host.Outcome State Fault Refusal :=
  onMem t (writeAt req (0x3110 + group) 2 0 [2])
/-- MOVE_APPEND. -/
def execMoveAppend (t : Nat) (req : Req) (axis : Nat) : State → Host.Outcome State Fault Refusal := onMem t (writeAt req 0x2210 8 axis [1])
/-- RUN_VELOCITY. -/
def execRunVelocity (t : Nat) (req : Req) (axis : Nat) : State → Host.Outcome State Fault Refusal := onMem t (writeAt req 0x2210 8 axis [2])
/-- ENGAGE_GEAR. -/
def execEngageGear (t : Nat) (req : Req) (axis : Nat) : State → Host.Outcome State Fault Refusal := onMem t (writeAt req 0x2210 8 axis [3])
/-- ENGAGE_CAM. -/
def execEngageCam (t : Nat) (req : Req) (axis : Nat) : State → Host.Outcome State Fault Refusal := onMem t (writeAt req 0x2210 8 axis [4])
/-- HOME. -/
def execHome (t : Nat) (req : Req) (axis : Nat) : State → Host.Outcome State Fault Refusal := onMem t (writeAt req 0x2210 8 axis [5])
/-- STOP_RAMP. -/
def execStopRamp (t : Nat) (req : Req) (axis : Nat) : State → Host.Outcome State Fault Refusal := onMem t (writeAt req 0x2210 8 axis [6])
/-- FLUSH. -/
def execFlush (t : Nat) (req : Req) (axis : Nat) : State → Host.Outcome State Fault Refusal := onMem t (writeAt req 0x2210 8 axis [7])
/-- WRITE_ARM. -/
def execWriteArm (t : Nat) (req : Req) (channel : Nat) : State → Host.Outcome State Fault Refusal :=
  onMem t (writeAt req 0x2710 14 channel [1])
/-- SAFETY_RESET. -/
def execSafetyReset (t : Nat) (req : Req) (axis : Nat) : State → Host.Outcome State Fault Refusal := onMem t (writeAt req 0x4040 5 axis [1])
/-- SET_STORE. -/
def execSetStore (t : Nat) (req : Req) : State → Host.Outcome State Fault Refusal := onMem t (writeAt req 0x5070 1 0 [1])
/-- SET_RESTORE_PREVIOUS. -/
def execSetRestorePrevious (t : Nat) (req : Req) : State → Host.Outcome State Fault Refusal := onMem t (writeAt req 0x5070 1 0 [2])
/-- SET_RESTORE_FACTORY. -/
def execSetRestoreFactory (t : Nat) (req : Req) : State → Host.Outcome State Fault Refusal := onMem t (writeAt req 0x5070 1 0 [3])
/-- WRITE_FORMAT. -/
def execWriteFormat (t : Nat) (req : Req) (value : Nat) : State → Host.Outcome State Fault Refusal :=
  onMem t (writeAt req 0x5000 8 0 (leBytes value 4))
/-- WRITE_READ_FROM. -/
def execWriteReadFrom (t : Nat) (req : Req) (value : Nat) : State → Host.Outcome State Fault Refusal :=
  onMem t (writeAt req 0x5060 3 0 (leBytes value 4))

end Sys2Proof.Machine
end

