-- ==== Sys2Proof/Machine/Signals.lean ====
section
/-! DEFINITION. What the segments hand on inside one command (06, 07): a decided window to the engine, the profile unit, the
safety monitor and the Line engine; a gate lost or present again; safety replies; gate responses; a received Trigger. -/

namespace Sys2Proof.Machine

/-- The life counter of turns (R408): the counts by which the running value moved. -/
def Dev.turns (d : Dev) (a : Nat) (delta : Int) : Dev :=
  let cpt := max 1 (d.rn 0x5010 5 a)
  let n := Tab.get d.st.life (16 * a) 0 + delta.natAbs
  if delta == 0 then d
  else
    let d := { d with st.life := Tab.put d.st.life (16 * a) (n % cpt) }
    if n / cpt == 0 then d else d.wr 0x5040 1 a (d.rn 0x5040 1 a + n / cpt : Nat)

/-- A decided window of cycle `k` at the units that read axis `a` besides the engine: profile unit (R345), proof (R416),
life counter (R408), stepper (R371, R372), safety monitor (R438). `was`: the axis state before the window. -/
def Dev.axisFollow (d : Dev) (a : Nat) (was : Nat) (valid : Bool) : Dev :=
  if !d.slotFits (d.axSeg a) (d.axPos a) (d.axSlot a) then d
  else
    let old := (d.apf a).ext
    let d := d.feedAxis a valid
    let d := match old, (d.apf a).ext with
      | some x, some y => d.turns a (y - x)
      | _, _ => d
    let d := if valid then d.restoreAxis a else d
    let d := if d.isStepper a && d.eng.ranThis.contains (.axis a) then d.stepRun a (was == 1) (!valid) else d
    d.safetyWindow a valid

/-- A decided window (R163): the engine first, then the other units, then the line laws that become ready. -/
def Dev.windowIn (d : Dev) (s p : Nat) (data : Option Bytes) (flags : Nat) : Dev :=
  let was := (d.axesAt s p).map fun a => (a, d.axState a)
  let d := d.engineWindow s p (d.sg s).cycle data flags
  let d := d.each was fun d q => d.axisFollow q.1 q.2 data.isSome
  d.lineWake

/-- Units with a converter slot in gate `p` of segment `s`. -/
def Dev.unitsAt (d : Dev) (s p : Nat) : List Nat := d.units.filter fun u => (d.convs u).any fun c => c.2.1 == s && c.2.2.1 == p

/-- One signal. -/
def Dev.signalIn (d : Dev) : SegSig → Dev
  | .window s p data flags => d.windowIn s p data flags
  | .gateLost s p => d.gateLostAxes s p
  | .gateBack s p => (d.gateBackAxes s p).each (d.unitsAt s p) Dev.lineFirst
  | .reply s i sto echo => d.takeReply s i sto echo
  | .noReply s i => d.replyMissing s i
  | .response s p msg => d.gateResponse s p msg
  | .trigger _ cycle => d.capSlalom cycle

/-- Every signal in order; those that arise on the way follow. -/
def drainN : Nat → Dev → Dev
  | 0, d => { d with sig := [] }
  | n + 1, d =>
    match d.sig with
    | [] => d
    | xs => drainN n ({ d with sig := [] }.each xs Dev.signalIn)

/-- The signals of a command are handed on. -/
def Dev.drain (d : Dev) : Dev := drainN 4 d

/-- A segment that a command has made cyclic (R220, R370): axes bound where no gate is, microstep tables. -/
def Dev.nowCyclic (d : Dev) (before : List Nat) : Dev :=
  d.each ((List.range 4).filter fun s => d.segState s == 5 && !before.contains s) fun d s => (d.unboundAxes s).sendTables s

/-- An operation on the segments with all that follows from it. -/
def segDo (f : Dev → Dev) (d : Dev) : Dev :=
  let before := (List.range 4).filter fun s => d.segState s == 5
  (f { d with sig := [] }).drain.nowCyclic before

end Sys2Proof.Machine
end

