-- ==== Sys2Proof/Machine/Cutoff.lean ====
section
/-! DEFINITION. The output cut-off (R246 to R248, R267, R275, R279, R283, R291): frame k+1 is closed, misses are counted, the
blades compared, and the governor fed. -/

namespace Sys2Proof.Machine

/-- What slot data the frame that closes carries for axis `a`, with its Stale bit (R121, R246, R253, R287). -/
def Dev.closeAxis (d : Dev) (a : Nat) : Bytes × Bool :=
  let zero := zeros (d.loOf a)
  let before := ((Tab.find d.eng.closed a).map (·.1)).getD zero
  if d.eng.holdAll || d.active.isNone then (before, true)
  else if d.axState a == 1 then (zero, false)
  else if d.eng.fresh.contains (.axis a) then (Tab.get d.eng.outs a zero, false)
  else if !d.lawOn a then (zero, false)
  else (before, d.eng.dueThis.contains a)

/-- The same for the converter slots of unit `u`, whose law runs in every cycle (R297, R306). -/
def Dev.closeUnit (d : Dev) (u : Nat) : Bytes × Bool :=
  let zero := zeros 12
  let before := ((Tab.find d.eng.uclosed u).map (·.1)).getD zero
  if d.eng.holdAll || d.active.isNone then (before, true)
  else if d.mode < 2 || d.luState u == 0 then (zero, false)
  else if d.eng.fresh.contains (.unit u) then (Tab.get d.eng.uouts u zero, false)
  else (before, true)

/-- A due law at the cut-off of its cycle (R248). -/
def Dev.judgeMiss (d : Dev) (b : Blade) (k : Nat) (exempt : Bool) (a : Nat) : Dev :=
  let x := d.axLaw b a
  if !d.lawOn a || !d.eng.ranThis.contains (.axis a) then d
  else if x.done == some k then d.wr 0x2160 7 a 0
  else if exempt || x.first || x.dropped == some k then d
  else
    let n := min 255 (d.rn 0x2160 7 a + 1)
    let d := (((d.inc 0x2160 6 a).wr 0x2160 7 a n).inc 0x9000 5 0).raiseLim 0x88 a (leBytes a 2)
    if n == 3 then d.axisFault a 1 else d

/-- C_k and the slack of the cycle (R267): 9000h:1 to 4, and the governor. -/
def Dev.slackNote (d : Dev) (p : Nat) (open_ : Bool) : Dev :=
  let c := if open_ then p + 500 else if d.eng.ranThis.isEmpty then 1000 else d.eng.latest.getD 1000
  let s : Int := (p : Int) - 11500 - c
  let w : Int := (p : Int) - 12500
  let d := ((d.wr 0x9000 1 0 c).wr 0x9000 2 0 w).wr 0x9000 3 0 s
  let n := d.now / sec
  let d :=
    if n == d.eng.slackSec then d
    else
      let d := match d.eng.slackMin with
        | some m => d.wr 0x9000 4 0 m
        | none => d
      { d with eng.slackSec := n, eng.slackMin := none }
  let d := { d with eng.slackMin := some (min s (d.eng.slackMin.getD s)) }
  d.govSlack s w

/-- The cut-off of cycle `k`. -/
def Dev.cutoff (d : Dev) (k : Nat) : Dev :=
  let (d, lag) := d.divergence k
  let open_ := blades.any fun b => d.evaluates b && d.incomplete b k
  let exempt := d.eng.takeover.isSome || lag.isSome
  let axesNow := d.enabledAxes
  let shut := axesNow.map fun a => (a, d.closeAxis a)
  let ushut := d.units.map fun u => (u, d.closeUnit u)
  let d := match (if d.eng.holdAll then none else d.active) with
    | some b =>
      let d := d.each (d.eng.dueThis.filter axesNow.contains) fun d a => d.judgeMiss b k exempt a
      d.each d.units fun d u => d.lineMiss b u k exempt
    | none => d
  let d := (blades.foldl (fun d b => d.resyncStep k b) d).swapStep
  let d := d.slackNote (d.tm.latchNs - d.tm.prevNs) open_
  let d := { d with eng := { d.eng with
    closed := shut, uclosed := ushut, outs := [], uouts := [], fresh := [], recopy := [], replay := [], latest := none
    ranThis := [], dueThis := [], cutFor := some (k + 1) } }
  match lag with
  | some b => d.bladeFault b 4
  | none => d

/-- OUTPUT_CUTOFF: 500 ns after the latch instant that ends the cycle. -/
def cutoffAt (d : Dev) : Dev :=
  match d.eng.cutFor with
  | none => d
  | some k => if d.md.fieldReset || d.tm.cycle != k + 1 || d.now < (d.tm.latchNs + 500) * 1000 then d else d.cutoff k

/-! ### Commands -/

/-- OUTPUT_CUTOFF. -/
def execOutputCutoff (t : Nat) : State → Host.Outcome State Fault Refusal := onDev t cutoffAt

end Sys2Proof.Machine
end

