-- ==== Sys2Proof/Machine/Frames.lean ====
section
/-! DEFINITION. The frames that the head launches (R145 to R154, R162, R167 to R174, R193, R195) and the commands of the
segments (06, 07). -/

namespace Sys2Proof.Machine

/-! ### The content of a frame -/

/-- The data of slot `n` of the gate at position `p`, with its Stale bit (R219, R297): zero where nothing is bound. -/
def Dev.slotOut (d : Dev) (s p n : Nat) : Bytes × Bool :=
  match d.enabledAxes.find? fun a => d.axBind a == (s, p, n) with
  | some a => Tab.get d.eng.closed a ([], false)
  | none =>
    match d.units.find? fun u => (d.convs u).any fun c => c.2 == (s, p, n) with
    | some u => Tab.get d.eng.uclosed u ([], false)
    | none => ([], false)

/-- An output window (R151). -/
def Dev.outWindow (d : Dev) (s p k : Nat) : Bytes :=
  let desc := ((d.sg s).gate p).desc
  let cs := (List.range (gSlots desc)).map fun n => (n, d.slotOut s p n)
  let stale := cs.foldl (fun x c => if c.2.2 then x + 2 ^ c.1 else x) 0
  [0xA5] ++ leBytes stale 1 ++ leBytes ((k + 1) % 65536) 2 ++ cs.flatMap fun c => fit c.2.1 (gLo desc)

/-- The frame header (R146). -/
def Dev.header (d : Dev) (s k residual kind : Nat) (trig : Bool) (blocks acyc tag : Nat) : Bytes :=
  let flags := (if trig then 1 else 0) + (if kind == 1 && d.enableBit then 2 else 0)
  leBytes k 8 ++ leBytes d.period 4 ++ leBytes (min residual 12800) 2 ++ leBytes kind 1 ++ leBytes flags 1 ++ leBytes s 1 ++
    leBytes blocks 1 ++ [0] ++ leBytes acyc 1 ++ leBytes tag 4 ++ leBytes headId 6 ++ [0, 0]

/-- The safety container as launched (R168, R169, R171, R435). -/
def Dev.container (d : Dev) (s : Nat) : Bytes :=
  let n := d.safetyN s
  if n == 0 then []
  else
    let x := d.sg s
    let permit (i : Nat) : Nat :=
      ((d.safetyAxes s i).filter d.eng.permits.contains).foldl (fun v a => setBit v (d.axSlot a) true) 0
    let part := [0x5A] ++ leBytes n 1 ++ leBytes x.replyFirst 1 ++ leBytes (replyCount n) 1 ++ leBytes x.seq 4 ++
      leBytes (d.rn 0x4000 4 0) 2 ++ [0, 0] ++ fit ((List.range n).flatMap fun i => leBytes (permit i) 1) (roundUp n 4)
    part ++ leBytes (crc32 (virtualPrefix s ++ part)) 4 ++ zeros (8 * replyCount n)

/-- The downstream object slot of `so` bytes (R172, R173): the next fragment of a message, or of the first request of the
lowest position whose request has not been sent. -/
def Dev.downSlot (d : Dev) (s so : Nat) : Bytes × Dev :=
  let x := d.sg s
  let waiting (p : Nat) : Option (Nat × Bytes × Nat) :=
    match Tab.get d.ob.gates (gateKey s p) [] with
    | g :: _ => if g.at_.isNone then some (p, g.msg, 0) else none
    | [] => none
  let next := match x.down with
    | some m => some m
    | none => (d.positions s).findSome? waiting
  match next with
  | none => (zeros so, d)
  | some m =>
    let last := decide (m.2.1.length ≤ so - 4)
    let slot := [1] ++ leBytes (m.2.2 + (if last then 128 else 0)) 1 ++ leBytes m.1 2 ++ fit m.2.1 (so - 4)
    let d := d.setSg s { x with down := if last then none else some (m.1, m.2.1.drop (so - 4), m.2.2 + 1) }
    if last then
      (slot, { d with
        ob.gates := Tab.mod d.ob.gates (gateKey s m.1) [] fun l =>
          match l with
          | g :: r => { g with at_ := some d.now } :: r
          | [] => [] })
    else (slot, d)

/-- The upstream object slot of `so` bytes (R174): a grant to the gate that is sending, else in turn to a gate with a request
outstanding. -/
def Dev.upSlot (d : Dev) (s so : Nat) : Bytes × Dev :=
  let x := d.sg s
  let open_ := (d.positions s).filter fun p =>
    match Tab.get d.ob.gates (gateKey s p) [] with
    | g :: _ => g.at_.isSome
    | [] => false
  let g := match x.up with
    | some u => u.1
    | none => ((open_.find? fun p => x.grant < p).getD (open_.head?.getD 0))
  if g == 0 then (zeros so, d)
  else ([0x80, 0] ++ leBytes g 2 ++ zeros (so - 4), d.setSg s { x with grant := g })

/-- The acyclic area (R167). -/
def Dev.acyclicArea (d : Dev) (s acyc : Nat) : Bytes × Dev :=
  let so := slotLen acyc (d.safetyN s)
  if acyc == 0 then ([], d)
  else
    let c := d.container s
    if d.segState s != 5 || so < 20 then (fit c (256 * acyc), d)
    else
      let x := d.downSlot s so
      let y := x.2.upSlot s so
      (fit (c ++ x.1 ++ y.1) (256 * acyc), y.2)

/-- An assignment record as launched (R195). -/
def AsgRec.bytes (r : AsgRec) : Bytes :=
  leBytes r.inOff 2 ++ leBytes r.inLen 2 ++ leBytes r.outOff 2 ++ leBytes r.outLen 2 ++ leBytes r.safety 1 ++ leBytes r.hold 1 ++
    zeros 6

/-- The payload of a frame of kind 02h or 03h (R193, R195). -/
def Dev.rangePayload (d : Dev) (s kind : Nat) (header : Bytes) : Bytes :=
  let x := d.sg s
  let last := d.rangeLast s
  if kind == 2 then header ++ leBytes x.first 2 ++ leBytes last 2
  else
    let recs := ((List.range (last + 1 - x.first)).map (· + x.first)).flatMap fun p =>
      match Tab.find x.asg p with
      | some r => r.bytes
      | none => zeros 16
    fit (header ++ leBytes x.tag 4 ++ leBytes x.first 2 ++ leBytes last 2 ++ leBytes (d.safetyN s) 1) 256 ++ recs

/-- The frame blocks of a payload, each with its trailer (R145, R148). -/
def frameBlocks (payload : Bytes) (n : Nat) : List Bytes :=
  (List.range n).map fun j =>
    let b := fit (slice payload (256 * j) 256) 256 ++ leBytes j 1 ++ [if j + 1 == n then 1 else 0] ++ zeros 4
    b ++ leBytes (crc16 b) 2

/-- The state of a segment as its frame leaves. -/
def Seg.launch (x : Seg) (now k kind blocks : Nat) (trig : Bool) (n : Nat) : Seg :=
  let fresh (g : GateSt) : GateSt :=
    { g with decided := false, waiting := false, lateNoted := false, lateA := false, lateB := false, data := none, flags := 0 }
  let x := { x with
    launched := true, launchAt := now, cycle := k, kind := kind, blocks := blocks, judged := false, trigSent := trig
    trigSeen := false, got := [], replied := [], upDone := false
    a := { x.a with copy := {} }, b := { x.b with copy := {} }
    gates := x.gates.map fun (q : Nat × GateSt) => (q.1, fresh q.2) }
  if kind == 1 then
    { x with seq := (x.seq + 1) % 2 ^ 32, replyFirst := if n == 0 then 0 else (x.replyFirst + replyCount n) % n }
  else x

/-- One segment launches its frame of cycle `k` (R145, R193, R195, R197). -/
def Dev.launchSeg (d : Dev) (k residual : Nat) (trig : Bool) (s : Nat) : Dev :=
  let x := d.sg s
  let st := d.segState s
  let kind := if st == 3 then 2 else if st == 5 || (st == 4 && x.tagged) then 1 else if st == 4 then 3 else 0
  if st == 7 then (if trig then d.setSg s { x with trigSent := true } else d)
  else if kind == 0 || (x.launched && x.cycle == k) then d
  else
    let trig := trig && st == 5
    let blocks := if kind == 1 then d.rn (0x1100 + s) 8 0 else d.rangeBlocks s
    let acyc := if kind == 1 then d.rn (0x1100 + s) 4 0 else 0
    let d := d.setSg s (x.launch d.now k kind blocks trig (d.safetyN s))
    let header := d.header s k residual kind trig blocks acyc (if kind == 1 then x.tag else 0)
    let r :=
      if kind == 1 then
        let base := splice (zeros (256 * blocks)) 0 header
        let body := x.asg.foldl (fun b q => splice b q.2.outOff (d.outWindow s q.1 k)) base
        let area := d.acyclicArea s acyc
        (splice body (256 * (blocks - acyc)) area.1, area.2)
      else (d.rangePayload s kind header, d)
    let bs := frameBlocks r.1 blocks
    let d := r.2.emit (.frame s k (d.rn (0x1100 + s) 3 0) bs (crc32 bs.flatten))
    if kind == 1 then d.noteClears s else d

/-- FRAME_LAUNCH (R125): every segment in turn, once in a cycle; none while PLL_S is lost (R517). -/
def frameLaunchAt (residual : Nat) (d : Dev) : Dev :=
  if d.md.fieldReset || d.clk.lost.contains 1 || !d.tm.started || d.now < (d.tm.latchNs + 1000) * 1000 then d
  else
    let trig := d.cap.slalomNext
    { d.each (List.range 4) (fun d s => d.launchSeg d.tm.cycle residual trig s) with cap.slalomNext := false }

/-- A block of a frame that passes a passive head (R508): its Trigger bit, once per frame. -/
def Dev.passing (d : Dev) (s : Nat) (b : Bytes) (corrupted : Bool) : Dev :=
  let x := d.sg s
  let k := leAt b 0 8
  if corrupted || b.length != 264 || byteAt b 256 != 0 || crc16 (b.take 262) != leAt b 262 2 then d
  else if x.trigSent then d.setSg s { x with trigSent := false, trigSeen := true, cycle := k }
  else if bit (byteAt b 15) 0 && !(x.trigSeen && x.cycle == k) then
    (d.setSg s { x with trigSeen := true, cycle := k }).signal (.trigger s k)
  else d

/-- RECEIVE_FRAME_BLOCK. -/
def frameBlockAt (s : Nat) (c : Chan) (b : Bytes) (corrupted : Bool) (d : Dev) : Dev :=
  if !d.md.fieldReset && d.segState s == 7 then d.passing s b corrupted else d.frameBlock s c b corrupted

/-- A command of segment `s`, with all that follows from it. -/
def onSeg (t s : Nat) (f : Dev → Dev) : State → Host.Outcome State Fault Refusal :=
  onDev t fun d => if s < 4 then segDo f d else d

/-! ### Commands -/

/-- FRAME_LAUNCH. -/
def execFrameLaunch (t : Nat) (residual : Nat) : State → Host.Outcome State Fault Refusal := onDev t (frameLaunchAt residual)
/-- RECEIVE_SOF. -/
def execReceiveSof (t : Nat) (seg : Nat) (ch : Chan) (_port : Port) (ident : Nat) : State → Host.Outcome State Fault Refusal :=
  onSeg t seg fun d => d.sofAt seg ch ident
/-- RECEIVE_FRAME_BLOCK. -/
def execReceiveFrameBlock (t : Nat) (seg : Nat) (ch : Chan) (_port : Port) (block : Bytes) (corrupted : Bool) :
    State → Host.Outcome State Fault Refusal :=
  onSeg t seg (frameBlockAt seg ch block corrupted)
/-- WINDOW_WAIT_EXPIRY. -/
def execWindowWaitExpiry (t : Nat) (seg pos : Nat) : State → Host.Outcome State Fault Refusal := onSeg t seg (windowWaitAt seg pos)
/-- RECEIVE_EOF. -/
def execReceiveEof (t : Nat) (seg : Nat) (ch : Chan) (crc _blocks : Nat) : State → Host.Outcome State Fault Refusal :=
  onSeg t seg fun d => d.frameEof seg ch crc
/-- SOF_RETURN_TIMEOUT. -/
def execSofReturnTimeout (t : Nat) (seg : Nat) (ch : Chan) : State → Host.Outcome State Fault Refusal :=
  onSeg t seg (sofTimeoutAt seg ch)
/-- SEGMENT_START. -/
def execSegmentStart (t : Nat) (seg : Nat) : State → Host.Outcome State Fault Refusal :=
  onSeg t seg fun d => if d.clk.lost.contains 1 then d else segmentStartAt seg d
/-- BLOCK_LOCK_ACQUIRED. -/
def execBlockLockAcquired (t : Nat) (seg : Nat) (ch : Chan) : State → Host.Outcome State Fault Refusal :=
  onSeg t seg (blockLockAt seg ch)
/-- BLOCK_LOCK_TIMEOUT. -/
def execBlockLockTimeout (t : Nat) (seg : Nat) : State → Host.Outcome State Fault Refusal := onSeg t seg (blockLockLost seg)
/-- CLAIM_ROUND. -/
def execClaimRound (t : Nat) (seg : Nat) : State → Host.Outcome State Fault Refusal := onSeg t seg (claimRoundAt seg)
/-- RECEIVE_CLAIM. -/
def execReceiveClaim (t : Nat) (seg : Nat) (ch : Chan) (port : Port) (ident _round : Nat) :
    State → Host.Outcome State Fault Refusal := onSeg t seg (claimAt seg ch port ident)
/-- CLAIM_WON. -/
def execClaimWon (t : Nat) (seg : Nat) : State → Host.Outcome State Fault Refusal := onSeg t seg (claimWonAt seg)
/-- RECEIVE_LINK_NUMBER. -/
def execReceiveLinkNumber (t : Nat) (seg : Nat) (ch : Chan) (_port : Port) (value : Nat) :
    State → Host.Outcome State Fault Refusal :=
  onSeg t seg (linkNumberAt seg ch value)
/-- RECEIVE_LINK_VERIFY. -/
def execReceiveLinkVerify (t : Nat) (seg : Nat) (ch : Chan) (_port : Port) (value : Nat) :
    State → Host.Outcome State Fault Refusal :=
  onSeg t seg (linkVerifyAt seg ch value)
/-- LINK_RETURN_TIMEOUT. -/
def execLinkReturnTimeout (t : Nat) (seg : Nat) : State → Host.Outcome State Fault Refusal := onSeg t seg (linkTimeoutAt seg)
/-- RECEIVE_DELAY_RESPONSE. -/
def execReceiveDelayResponse (t : Nat) (seg : Nat) (ch : Chan) (pos : Nat) (isResponse : Bool) (trt turnaround : Nat) :
    State → Host.Outcome State Fault Refusal :=
  onSeg t seg (delayRespAtSeg seg ch pos isResponse trt turnaround)
/-- DELAY_TIMEOUT. -/
def execDelayTimeout (t : Nat) (seg : Nat) (ch : Chan) : State → Host.Outcome State Fault Refusal :=
  onSeg t seg (delayTimeoutAt seg ch)
/-- CYCLIC_WAIT_EXPIRY. -/
def execCyclicWaitExpiry (t : Nat) (seg : Nat) : State → Host.Outcome State Fault Refusal := onSeg t seg (cyclicWaitAt seg)
/-- RECEIVE_PORT_REPORT. -/
def execReceivePortReport (t : Nat) (seg : Nat) (ch : Chan) (pos lockBits _corrupted : Nat) (_looped : Bool) :
    State → Host.Outcome State Fault Refusal :=
  onSeg t seg (portReportAt seg ch pos lockBits)
/-- PORT_QUERY_TIMEOUT. -/
def execPortQueryTimeout (t : Nat) (seg : Nat) (ch : Chan) : State → Host.Outcome State Fault Refusal :=
  onSeg t seg (portQueryLost seg ch)
/-- AUTO_RESTART_TIMER. -/
def execAutoRestartTimer (t : Nat) (seg : Nat) : State → Host.Outcome State Fault Refusal := onSeg t seg (autoRestartAt seg)

end Sys2Proof.Machine
end

