-- ==== Sys2Proof/Machine/Clocks.lean ====
section
/-! DEFINITION. Clocks, supplies, the power-fail inputs and the thermal sensors (R410, R411, R516, R517, R521, R524, R525,
R545). -/

namespace Sys2Proof.Machine

/-! ### Clocks (R516, R517) -/

/-- A clock incident of PLL `pll`: element 3 (transient) or 4 (lasting), LastClockFault. -/
def Dev.clockCount (d : Dev) (pll e : Nat) : Dev :=
  if pll == 4 then (d.hinc 0x8050 e 0).hwr 0x8050 5 0 4 else (d.inc 0x8050 e 0).wr 0x8050 5 0 pll

/-- A transient incident: event 29h, at most once per PLL per second. -/
def Dev.clockTransient (d : Dev) (pll : Nat) : Dev :=
  let d := d.clockCount pll 3
  if pll != 4 then d.raiseLim 0x29 pll (leBytes pll 1)
  else
    let key := 0x29 * 16777216 + pll
    let due := match Tab.find d.limits key with
      | some t => decide (t + sec ≤ d.now)
      | none => true
    if due then { d with limits := Tab.put d.limits key d.now }.raiseHost 0x29 (leBytes pll 1) else d

/-- The reaction to a lasting clock loss. -/
def Dev.clockReaction (d : Dev) (pll : Nat) : Dev :=
  if pll == 1 then
    segDo (fun d => d.each ((List.range 4).filter fun s => d.segState s == 5) fun d s => (d.lasting (0x8102 + s)).segLost s 7) d
  else if pll == 2 then d.fieldDown true
  else if pll == 3 then d.each ((List.range 16).filter fun n => d.rn 0x3080 (3 + n) 0 != 0xFF) fun d n => sdStuckAt n d
  else d.hostDown

/-- A lasting incident: event 28h, the PLL is reset and relocks. -/
def Dev.clockLost (d : Dev) (pll : Nat) : Dev :=
  let d := (d.clockCount pll 4).raiseOn (if pll == 4 then .host else .field) 0x28 (leBytes pll 1)
  let d := { d with
    clk := { d.clk with
      failed := d.clk.failed.filter (· != pll), lost := pll :: d.clk.lost, locked := setBit d.clk.locked (pll - 1) false } }
  d.clockReaction pll

/-- CLOCK_CHECK_WINDOW (R517). -/
def clockWindow (pll : Nat) (ppm : Int) (d : Dev) : Dev :=
  let down := if pll == 4 then d.md.hostReset else d.md.fieldReset
  if pll == 0 || 4 < pll || down || d.clk.lost.contains pll then d
  else
    let bad := 1000 < ppm.natAbs
    let was := d.clk.failed.contains pll
    if bad && was then d.clockLost pll
    else if bad then { d with clk.failed := pll :: d.clk.failed }
    else if was then { d with clk.failed := d.clk.failed.filter (· != pll) }.clockTransient pll
    else d

/-- The field die leaves a reset that FRST_N did not bring, with the levels last read at its balls. -/
def Dev.fieldAgain (d : Dev) (nv : Mem) : Dev :=
  let s := d.clk.straps
  { d with clk := { d.clk with fieldMon := false, failed := d.clk.failed.filter (· == 4), lost := d.clk.lost.filter (· == 4) } }.fieldUp
    nv s.1 s.2.1 s.2.2

/-- PLL_RELOCK (R517): for PLL_T the instant 1 ms after it has relocked. -/
def relockAt (pll : Nat) (nv : Mem) (d : Dev) : Dev :=
  if !d.clk.lost.contains pll then d
  else
    let d := { d with clk := { d.clk with
      lost := d.clk.lost.filter (· != pll), locked := setBit d.clk.locked (pll - 1) true } }
    if pll == 2 && d.md.fieldReset && !d.clk.fieldMon && d.clk.fieldWait.isNone then d.fieldAgain nv
    else if pll == 4 && d.md.hostReset && !d.clk.hostMon && !d.clk.hostWait then { d with md.hostReset := false }
    else d

/-- PLL_LOCK (R516): a release that waited takes effect. -/
def pllLockAt (die : Die) (nv : Mem) (d : Dev) : Dev :=
  match die with
  | .field =>
    match d.clk.fieldWait with
    | none => d
    | some w =>
      { d with clk := { d.clk with
          locked := 7 + d.clk.locked / 8 * 8, failed := d.clk.failed.filter (· == 4), lost := d.clk.lost.filter (· == 4) } }.fieldUp
        nv w.1 w.2.1 w.2.2
  | .host => if d.clk.hostWait then hrstRelease true d else d

/-! ### Supplies (R521) -/

/-- SUPPLY_MONITOR_RESET: a last-breath commit goes on; the hold-up domain latches the rails of the field die. -/
def monitorReset (die : Die) (rails : Nat) (d : Dev) : Dev :=
  match die with
  | .field =>
    let d := d.fieldDown true
    { d with clk := { d.clk with fieldMon := true, fieldWait := none, rails := rails % 65536, railsDue := true } }
  | .host => { d.hostDown with clk.hostMon := true, clk.hostWait := false }

/-- SUPPLY_RESET_RELEASE: 1 ms after the rail returned. -/
def monitorRelease (die : Die) (nv : Mem) (d : Dev) : Dev :=
  match die with
  | .field =>
    if !d.clk.fieldMon then d
    else if d.clk.locked % 8 == 7 then d.fieldAgain nv
    else { d with clk := { d.clk with fieldMon := false, fieldWait := some d.clk.straps } }
  | .host =>
    if !d.clk.hostMon then d else hrstRelease (bit d.clk.locked 3) { d with clk.hostMon := false }

/-! ### Power fail (R410, R411, R524, R525) -/

/-- PFAIL_N_FALL: a commit starts after at least 10 µs of high level, unless the store recovers. -/
def pfailFall (nv : Mem) (d : Dev) : Dev × List LineWrite :=
  if d.st.pfail then (d, [])
  else
    let due := d.st.pfailAt + 10 * us ≤ d.now
    let d := { d with st.pfail := true }
    let d := if d.md.fieldReset then d else d.wr 0x8050 7 0 0
    if due then breathStart 1 nv d else (d, [])

/-- PFAIL_N_RISE. -/
def pfailRise (d : Dev) : Dev :=
  if !d.st.pfail then d
  else
    let d := { d with st.pfail := false, st.pfailAt := d.now }
    if d.md.fieldReset then d else d.wr 0x8050 7 0 1

/-- THERMAL_SAMPLE (R545). -/
def thermalAt (die : Die) (temp : Int) (d : Dev) : Dev :=
  match die with
  | .field => if d.md.fieldReset then d else (d.wr 0x8060 1 0 temp).wr 0x8060 2 0 (max temp (d.rd 0x8060 2 0))
  | .host => if d.md.hostReset then d else (d.hwr 0x8060 3 0 temp).hwr 0x8060 4 0 (max temp (d.hrd 0x8060 4 0))

/-- A command that reads the array and writes nothing in it. -/
def onNv (t : Nat) (f : Mem → Dev → Dev) : State → Host.Outcome State Fault Refusal := onLines t fun nv d => (f nv d, [])

/-! ### Commands -/

/-- CLOCK_CHECK_WINDOW. -/
def execClockCheckWindow (t : Nat) (pll : Nat) (ppm : Int) : State → Host.Outcome State Fault Refusal := onDev t (clockWindow pll ppm)
/-- PLL_RELOCK. -/
def execPllRelock (t : Nat) (pll : Nat) : State → Host.Outcome State Fault Refusal := onNv t (relockAt pll)
/-- PLL_LOCK. -/
def execPllLock (t : Nat) (die : Die) : State → Host.Outcome State Fault Refusal := onNv t (pllLockAt die)
/-- SUPPLY_MONITOR_RESET. -/
def execSupplyMonitorReset (t : Nat) (die : Die) (rails : Nat) : State → Host.Outcome State Fault Refusal :=
  onDev t (monitorReset die rails)
/-- SUPPLY_RESET_RELEASE. -/
def execSupplyResetRelease (t : Nat) (die : Die) : State → Host.Outcome State Fault Refusal := onNv t (monitorRelease die)
/-- PFAIL_N_FALL. -/
def execPfailNFall (t : Nat) : State → Host.Outcome State Fault Refusal := onLines t pfailFall
/-- PFAIL_N_RISE. -/
def execPfailNRise (t : Nat) : State → Host.Outcome State Fault Refusal := onDev t pfailRise
/-- VNV_MONITOR_TRIP. -/
def execVnvMonitorTrip (t : Nat) : State → Host.Outcome State Fault Refusal := onLines t (breathStart 2)
/-- VNV_WRITE_LIMIT. -/
def execVnvWriteLimit (t : Nat) : State → Host.Outcome State Fault Refusal := onLines t fun nv d => d.breathStop 3 nv
/-- THERMAL_SAMPLE. -/
def execThermalSample (t : Nat) (die : Die) (temp : Int) : State → Host.Outcome State Fault Refusal := onDev t (thermalAt die temp)

end Sys2Proof.Machine
end

