-- ==== Sys2Proof/Machine/Latch.lean ====
section
/-! DEFINITION. The latch instant L_k (R115 to R118, R124, R125): the head samples its inputs, writes, commits and mode
transitions that are due take effect, and the set-points of cycle k are evaluated. -/

namespace Sys2Proof.Machine

/-- Steering that waits for the boundary (R138): an increment, a step. -/
def Dev.steerDue (d : Dev) : Dev :=
  let d := match d.tm.incNext with
    | some v => { d with tm.inc := v, tm.incNext := none }.wr 0x7000 2 0 v
    | none => d
  match d.tm.stepBy with
  | some x => { d with tm.stepBy := none }.stepTime ((d.devNs : Int) + x).toNat
  | none => d

/-- A committed period takes effect (R118). -/
def Dev.periodNote (d : Dev) : Dev :=
  let was := d.tm.perWas
  let d := { d with tm.perWas := d.period }
  if was == 0 || was == d.period then d else (d.inc 0x7010 4 0).raise 0xF8 []

/-- The torque band of an axis (R408): the greatest n up to 7 with n/8 of TorqueRated not above the magnitude of the first
OUT stage's input. -/
def Dev.band (d : Dev) (a : Nat) (x : Dy) : Nat :=
  ((List.range 7).filter fun n => ((Dy.ofInt (n + 1 : Nat)).mul (d.rf 0x5010 6 a)).le ((Dy.ofInt 8).mul x.abs)).length

/-- The band life counters (R408): `dt` ns in state 2. -/
def Dev.bandLife (d : Dev) (dt : Nat) : Dev :=
  match d.active with
  | none => d
  | some b =>
    d.each (d.enabledAxes.filter fun a => d.axState a == 2) fun d a =>
      let n := d.band a (d.axLaw b a).outX.val
      let key := 16 * a + 2 + n
      let t := Tab.get d.st.life key 0 + dt
      let d := { d with st.life := Tab.put d.st.life key (t % 1000000000) }
      if t / 1000000000 == 0 then d else d.add 0x5040 (2 + n) a (t / 1000000000)

/-- The cycle that ends: frames still open are judged, line laws of the cycle are taken up, and a cut-off that was not
reported before is taken. -/
def Dev.cycleEnd (d : Dev) : Dev :=
  let d := (segDo (fun d => d.each (List.range 4) Dev.judge) d).lineWake
  let d := match d.eng.cutFor with
    | some j => if d.tm.cycle == j + 1 then d.cutoff j else d
    | none => d
  let k := d.tm.cycle
  { d with eng.dueThis := d.enabledAxes.filter fun a => d.lawOn a && d.dueIn a k }

/-- The new cycle: its number and its latch instant; at the first one the channels are armed and cycle time starts. -/
def Dev.cycleBegin (d : Dev) : Dev :=
  if d.tm.started then
    { d with
      tm.cycle := d.tm.cycle + 1
      tm.prevNs := d.tm.latchNs
      tm.latchNs := d.tm.nextNs }
  else
    let d := { d with
      tm.started := true
      tm.cycle := 0
      tm.prevNs := d.now / 1000
      tm.latchNs := d.now / 1000
      tm.perWas := 0
      eng.cutFor := some 0 }
    (d.each (List.range 8) Dev.fbArm).profileStart

/-- Sampling at L_k (R125). -/
def Dev.sampleInputs (d : Dev) (sd : List SdOut) : Dev :=
  let d := { d with line.sd := sd }
  (((d.measurePcc 0).measurePcc 1).fbLatchAll).safetyLatch

/-- What was accepted before L_k takes effect (R98, R103, R118, R129, R389, R420). -/
def Dev.takeEffect (d : Dev) : Dev :=
  let d := ((d.steerDue.dueAll).drain).fbArmAll
  let d := (d.setBoundary.safetySync).periodNote
  let d := { d with tm.nextNs := d.tm.latchNs + d.period, tm.latchDev := d.devNs }
  if d.prof.tablesDue then
    { d with prof.tablesDue := false }.each ((List.range 4).filter fun s => d.segState s == 5) Dev.sendTables
  else d

/-- Mode transitions with the line units and Glide groups in their places (R40 to R44, R311, R338). -/
def Dev.transitions (d : Dev) : Dev :=
  let r := d.transitionA
  let d := (r.1.lineBoundary r.1.enableBit).glideBoundary r.2
  (d.transitionB.safetyStart).stopNote

/-- The latch instant. -/
def latchAt (sd : List SdOut) (d : Dev) : Dev :=
  if d.md.fieldReset || !d.tm.running || (d.tm.started && d.now / 1000 < d.tm.nextNs) then d
  else
    let d := if d.tm.started then d.cycleEnd.glideCompute else d
    let d := (d.cycleBegin.sampleInputs sd).takeEffect.transitions
    let dt := d.tm.latchNs - d.tm.prevNs
    let d := (d.profileEval dt d.enableBit).snapSetps
    ((d.bandLife dt).regionsAtBoundary.driveOutputs).breathe

/-! ### Commands -/

/-- LATCH_INSTANT. -/
def execLatchInstant (t : Nat) (sd : List SdOut) : State → Host.Outcome State Fault Refusal := onDev t (latchAt sd)

end Sys2Proof.Machine
end

