-- ==== Sys2Proof/Machine/Lift.lean ====
section
/-! DEFINITION. The Lift, the service cores and their watchdogs, internal and barrier mailboxes, event reports (18). -/

namespace Sys2Proof.Machine

/-! ### Queues -/

/-- A core of the field die. -/
def Dev.core (d : Dev) (c : Nat) : SCore := Tab.get d.lift.cores c {}
/-- `d` with core `c` replaced. -/
def Dev.putCore (d : Dev) (c : Nat) (x : SCore) : Dev := { d with lift.cores := Tab.put d.lift.cores c x }
/-- A Lift queue. -/
def Dev.lq (d : Dev) (q : Nat) : LQueue := Tab.get d.lift.queues q {}
/-- `d` with queue `q` replaced. -/
def Dev.putLq (d : Dev) (q : Nat) (x : LQueue) : Dev := { d with lift.queues := Tab.put d.lift.queues q x }
/-- A core that runs can act; the others send no command. -/
def Dev.coreActs (d : Dev) (c : Nat) : Bool := !d.md.fieldReset && decide (c < 8) && (d.core c).state == 2

/-- Enqueues an item and raises event F1h where the queue becomes full (R488). -/
def Dev.enqueueEv (d : Dev) (it : Item) (q : Nat) : Dev :=
  let r := d.enqueue it q
  if r.2 then r.1.raise 0xF1 (leBytes q 1) else r.1

/-- Held items of hardware sources are offered again when an entry frees (R488, R494, R496): events by ascending number,
then mailboxes. -/
def Dev.offerHeld (d : Dev) : Dev :=
  let d := d.each (d.lift.heldEv.map fun p => p.1) fun d n =>
    match Tab.find d.lift.heldEv n with
    | some it =>
      if d.queueFull it.queue then d
      else
        let d := { d with lift.heldEv := Tab.del d.lift.heldEv n }
        (d.wr 0x8040 4 0 (d.lift.heldEv.length : Nat)).enqueueEv it it.queue
    | none => d
  d.each (d.lift.mails.map fun p => p.1) fun d m =>
    let x := Tab.get d.lift.mails m {}
    match x.held with
    | some it =>
      if d.queueFull it.queue then d
      else { d with lift.mails := Tab.put d.lift.mails m { x with held := none } }.enqueueEv it it.queue
    | none => d

/-- The item in service of a core is complete: its flow is released, its pool entry frees (R486). -/
def Dev.complete (d : Dev) (c : Nat) : Dev :=
  let x := d.core c
  match x.item with
  | some _ => (((d.putCore c { x with item := none, overrun := false }).inc 0x8030 3 c).poolNote).offerHeld
  | none => d

/-- LFT_ENQ_CMD (R484, R488): the staged item of core `c` into queue `q`. -/
def liftEnq (c q : Nat) (d : Dev) : Dev :=
  if !d.coreActs c || q ≥ 64 then d
  else
    let x := d.core c
    let f := leAt x.staged 0 2
    let it : Item := { flow := bits f 9 0, atomic := bit f 15, queue := q, source := 0, payload := fit (x.staged.drop 4) 12 }
    if (d.lq q).limit == 0 then (d.putCore c { x with enqStatus := 4 }).inc 0x8020 4 q
    else if d.queueFull q then (d.putCore c { x with enqStatus := 2 }).inc 0x8020 4 q
    else (d.putCore c { x with enqStatus := 1 }).enqueueEv it q

/-- The item that queue `q` gives core `c` (R485): of the 8 oldest dispatchable items, the oldest whose flow last ran on
the core, else the oldest. -/
def Dev.pickItem (d : Dev) (q c : Nat) : Option (Item × Nat) :=
  let xs := ((d.lq q).items.filter fun p => d.dispatchable p.1).take 8
  match xs.find? (fun p => Tab.find d.lift.flowLast p.1.flow == some c) with
  | some p => some p
  | none => xs.head?

/-- The queue served (R485): the highest priority with a dispatchable item, in turn by queue number within a priority. -/
def Dev.pickQueue (d : Dev) (c : Nat) : Option Nat :=
  let ready := (d.lift.queues.map fun p => p.1).filter fun q => (d.pickItem q c).isSome
  match (List.range 8).reverse.find? (fun p => ready.any fun q => (d.lq q).prio == p) with
  | none => none
  | some p =>
    let here := ready.filter fun q => (d.lq q).prio == p
    let last := Tab.get d.lift.lastServed p 63
    match here.find? (fun q => last < q) with
    | some q => some q
    | none => here.head?

/-- The first entry equal to `x` removed. -/
def removeFirst {α : Type} [DecidableEq α] (x : α) : List α → List α
  | [] => []
  | y :: ys => if y = x then ys else y :: removeFirst x ys

/-- Wait statistics of a queue (8020h:5, the last whole second). -/
def Dev.waitTouch (d : Dev) (q : Nat) : Dev :=
  let x := d.lq q
  let s := d.now / sec
  if s == x.second then d
  else
    let mean := if s == x.second + 1 && x.waitNum > 0 then x.waitSum / x.waitNum else 0
    (d.putLq q { x with second := s, waitSum := 0, waitNum := 0 }).wr 0x8020 5 q mean

/-- A read of LFT_GET (R485, R486). -/
def liftGetOf (c : Nat) (d : Dev) : Dev :=
  if !d.coreActs c then d
  else
    let d := d.complete c
    match d.pickQueue c with
    | none => d
    | some q =>
      match d.pickItem q c with
      | none => d
      | some (it, at_) =>
        let d := d.waitTouch q
        let x := d.lq q
        let wait := (d.now - at_) / 1000
        let rest := removeFirst (it, at_) x.items
        let d := d.putLq q { x with items := rest, waitSum := x.waitSum + wait, waitNum := x.waitNum + 1 }
        let d := d.wr 0x8020 1 q rest.length
        let d := if d.rn 0x8020 6 q < wait then d.wr 0x8020 6 q (min wait 0xFFFFFFFF : Nat) else d
        let d := { d with
          lift.lastServed := Tab.put d.lift.lastServed (d.lq q).prio q
          lift.flowLast := Tab.put d.lift.flowLast it.flow c }
        (d.putCore c { (d.core c) with item := some ({ it with queue := q }, d.now), overrun := false }).offerHeld

/-- A write of LFT_DONE (R486). -/
def liftDoneOf (c : Nat) (d : Dev) : Dev := if d.coreActs c then d.complete c else d

/-- A wake is due for core `c` (R482). -/
def Dev.wakeDue (d : Dev) (c : Nat) : Bool :=
  (d.core c).wake || (d.lift.pend.any fun p => p.1 / 8 == c && p.2 != 0) ||
    d.lift.queues.any fun p => p.2.items.any fun i => d.dispatchable i.1

/-- A write of LFT_SLEEP (R482). -/
def liftSleepOf (c : Nat) (d : Dev) : Dev :=
  if !d.coreActs c then d
  else if d.wakeDue c then d.putCore c { (d.core c) with wake := false }
  else d.setCore c 1

/-- A write of LFT_QCFGq (R490). -/
def liftConfig (q v : Nat) (d : Dev) : Dev :=
  if d.md.fieldReset || q ≥ 64 then d
  else
    let was := d.queueFull q
    let x := d.lq q
    let d := d.putLq q { x with limit := bits v 12 0, prio := bits v 18 16 }
    let due := !was && d.queueFull q && bits v 12 0 != 0 && (match x.fullAt with
      | none => true
      | some t => decide (t + sec ≤ d.now))
    if due then (d.putLq q { (d.lq q) with fullAt := some d.now }).raise 0xF1 (leBytes q 1) else d.offerHeld

/-! ### Watchdogs and overruns -/

/-- LFT_WDOG_KICK (R483). -/
def kick (c v : Nat) (d : Dev) : Dev :=
  if d.coreActs c && v % 2 ^ 32 == 0xA5C3 then d.putCore c { (d.core c) with kickAt := d.now } else d

/-- The watchdog of core `c` expires (R483); in Run and Ride-through event F0h is a Safe-hold cause (R43). -/
def watchdog (c : Nat) (d : Dev) : Dev :=
  let x := d.core c
  if d.md.fieldReset || !x.wdEnable || d.now < x.kickAt + x.wdPeriod * ms then d
  else
    let d := d.inc 0x8030 4 c
    let d := if x.item.isSome then (d.inc 0x8030 5 c) else d
    let d := d.putCore c { x with item := none, overrun := false, wake := false, staged := [], enqStatus := 0, kickAt := d.now }
    let d := (d.setCore c 2).poolNote
    ((d.raise 0xF0 (leBytes c 1)).safeHold 0xF0).offerHeld

/-- An item in service exceeds LFT_FLOWLIMIT (R489). -/
def overrun (c : Nat) (d : Dev) : Dev :=
  let x := d.core c
  match x.item with
  | some (it, at_) =>
    if !d.md.fieldReset && d.lift.flowLimit != 0 && !x.overrun && decide (at_ + d.lift.flowLimit * us ≤ d.now) then
      ((d.putCore c { x with overrun := true }).inc 0x8040 3 0).raise 0xF2 (leBytes c 1 ++ leBytes it.flow 2)
    else d
  | none => d

/-! ### Mailboxes -/

/-- Internal mailbox `m`. -/
def Dev.mail (d : Dev) (m : Nat) : IntMail := Tab.get d.lift.mails m {}
/-- `d` with mailbox `m` replaced. -/
def Dev.putMail (d : Dev) (m : Nat) (x : IntMail) : Dev := { d with lift.mails := Tab.put d.lift.mails m x }
/-- A bus error of core `c` (R481). -/
def Dev.busError (d : Dev) (c : Nat) : Dev := d.inc 0x8030 6 c

/-- The Lift item of an arrival (R494). -/
def Dev.mailItem (d : Dev) (m : Nat) : Dev :=
  let x := d.mail m
  if !bit x.cfg 6 || x.held.isSome then d
  else
    let q := bits x.cfg 12 7
    let it : Item := { flow := 0x200 + m, atomic := true, queue := q, source := 2
                       payload := fit (leBytes m 1 ++ [0] ++ leBytes x.count 2) 12 }
    if d.queueFull q then (d.putMail m { x with held := some it }).inc 0x8020 7 q else d.enqueueEv it q

/-- SEND on internal mailbox `m` (R491). -/
def mailSend (c m len : Nat) (d : Dev) : Dev :=
  let x := d.mail m
  if !d.coreActs c || m ≥ 32 || !bit x.cfg 31 then d
  else if bits x.cfg 2 0 != c then d.busError c
  else if len == 0 || 1024 < len then d
  else
    let hit := x.full
    let due := hit && (match x.f3At with
      | none => true
      | some t => decide (t + sec ≤ d.now))
    let d := d.putMail m { x with
      recvBuf := fit x.sendBuf len, full := true, pending := true, length := len, count := (x.count + 1) % 65536
      collision := x.collision || hit, f3At := if due then some d.now else x.f3At }
    let d := if hit then d.inc 0x8040 5 0 else d
    let d := if due then d.raise 0xF3 (leBytes m 1) else d
    (d.wakeCore (bits x.cfg 5 3)).mailItem m

/-- TAKE on internal mailbox `m` (R492). -/
def mailTake (c m count : Nat) (d : Dev) : Dev :=
  let x := d.mail m
  if !d.coreActs c || m ≥ 32 || !x.full || count != x.count then d
  else (d.putMail m { x with full := false, pending := false, taken := true }).wakeCore (bits x.cfg 2 0)

/-- SEND on MBX_BTXb (R27). -/
def barrierSend (b len : Nat) (d : Dev) : Dev :=
  if d.md.fieldReset || b ≥ 16 || len == 0 || 3456 < len then d
  else d.sendMsg .field b (fit (Tab.get d.bar.field.send b {}).buf len)

/-- TAKE on MBX_BRXb (R492, R493). -/
def barrierTake (b count : Nat) (d : Dev) : Dev :=
  if d.md.fieldReset || b ≥ 16 || count != (Tab.get d.bar.field.recv b {}).count then d else d.takeMail .field b

/-! ### Event reports (R497) -/

/-- The field die sends its event report once the last one is taken. -/
def eventReport (d : Dev) : Dev :=
  let x := d.bar.field
  if d.md.fieldReset || x.report.isEmpty || d.sendBusy .field 8 then d
  else { d with bar.field.report := [], bar.field.reportOut := true }.sendMsg .field 8 (x.report.flatMap id)

/-- The entries of an event report. -/
def reportEntries (fuel : Nat) (b : Bytes) : List Bytes :=
  match fuel with
  | 0 => []
  | k + 1 => if b.length < 32 then [] else b.take 32 :: reportEntries k (b.drop 32)

/-- The field die takes events of the host die: they go to the history with the host die's Time and Quality. -/
def hostEvents (msg : Bytes) (d : Dev) : Dev :=
  if d.md.fieldReset then d
  else
    let es := (reportEntries 108 msg).map fun b =>
      ({ num := byteAt b 4, data := slice b 6 10, time := leAt b 16 10, quality := byteAt b 26, at_ := d.now } : EvEntry)
    let d := d.takeMail .field 8
    { d with ring.queue := d.ring.queue ++ es }

/-- The host die takes an event report. -/
def fieldEvents (_msg : Bytes) (d : Dev) : Dev := if d.md.hostReset then d else d.takeMail .host 8

/-! ### Accesses of the cores (R481, the address map) -/

/-- True when an access ends in a bus error. `started`: the start phase of Load is over. -/
def busErrorAt (started : Bool) (addr width : Nat) (write user : Bool) : Bool :=
  let aligned := (width == 1 || width == 2 || width == 4) && addr % width == 0
  let word := width == 4 && addr % 4 == 0
  if addr < 0x800000 then !aligned || (write && (started || user))
  else if 0x10000000 ≤ addr && addr < 0x11000000 then !aligned
  else if 0x20000000 ≤ addr && addr < 0x21000000 then !aligned || write
  else if 0x30000000 ≤ addr && addr < 0x30400000 then !aligned || user
  else if 0x40000000 ≤ addr && addr < 0x40030000 then !word
  else if 0x41000000 ≤ addr && addr < 0x41002000 then !word
  else if 0x42000000 ≤ addr && addr < 0x42002000 then !word
  else if 0x4A000000 ≤ addr && addr < 0x4A002800 then !word
  else if 0x4C000000 ≤ addr && addr < 0x4C040000 then !word
  else if 0x50000000 ≤ addr && addr < 0x60000000 then !word || user
  else true

/-- A core access (R481): a bus error is counted and has no other effect; any other access changes no state here. -/
def access (c addr width : Nat) (write user : Bool) (d : Dev) : Dev :=
  if d.coreActs c && busErrorAt (d.mode != 1) addr width write user then d.busError c else d

/-! ### The commands -/

/-- LIFT_ENQUEUE. -/
def execLiftEnqueue (t : Nat) (core queue : Nat) : State → Host.Outcome State Fault Refusal := onDev t (liftEnq core queue)
/-- LIFT_GET. -/
def execLiftGet (t : Nat) (core : Nat) : State → Host.Outcome State Fault Refusal := onDev t (liftGetOf core)
/-- LIFT_DONE. -/
def execLiftDone (t : Nat) (core : Nat) : State → Host.Outcome State Fault Refusal := onDev t (liftDoneOf core)
/-- LIFT_SLEEP. -/
def execLiftSleep (t : Nat) (core : Nat) : State → Host.Outcome State Fault Refusal := onDev t (liftSleepOf core)
/-- LIFT_QUEUE_CONFIG. -/
def execLiftQueueConfig (t : Nat) (queue value : Nat) : State → Host.Outcome State Fault Refusal :=
  onDev t (liftConfig queue value)
/-- WATCHDOG_KICK. -/
def execWatchdogKick (t : Nat) (core value : Nat) : State → Host.Outcome State Fault Refusal := onDev t (kick core value)
/-- CORE_WATCHDOG. -/
def execCoreWatchdog (t : Nat) (core : Nat) : State → Host.Outcome State Fault Refusal := onDev t (watchdog core)
/-- FLOW_OVERRUN. -/
def execFlowOverrun (t : Nat) (core : Nat) : State → Host.Outcome State Fault Refusal := onDev t (overrun core)
/-- MAILBOX_SEND. -/
def execMailboxSend (t : Nat) (core m len : Nat) : State → Host.Outcome State Fault Refusal := onDev t (mailSend core m len)
/-- MAILBOX_TAKE. -/
def execMailboxTake (t : Nat) (core m count : Nat) : State → Host.Outcome State Fault Refusal :=
  onDev t (mailTake core m count)
/-- BARRIER_MAILBOX_SEND. -/
def execBarrierMailboxSend (t : Nat) (b len : Nat) : State → Host.Outcome State Fault Refusal := onDev t (barrierSend b len)
/-- BARRIER_MAILBOX_TAKE. -/
def execBarrierMailboxTake (t : Nat) (b count : Nat) : State → Host.Outcome State Fault Refusal :=
  onDev t (barrierTake b count)
/-- EVENT_REPORT_SEND. -/
def execEventReportSend (t : Nat) : State → Host.Outcome State Fault Refusal := onDev t eventReport
/-- EVENT_REPORT_RECEIVED. -/
def execEventReportReceived (t : Nat) (msg : Bytes) : State → Host.Outcome State Fault Refusal := onDev t (hostEvents msg)
/-- FIELD_EVENT_REPORT. -/
def execFieldEventReport (t : Nat) (msg : Bytes) : State → Host.Outcome State Fault Refusal := onDev t (fieldEvents msg)
/-- BUS_ERROR_ACCESS. -/
def execBusErrorAccess (t : Nat) (core addr width : Nat) (write user : Bool) : State → Host.Outcome State Fault Refusal :=
  onDev t (access core addr width write user)

end Sys2Proof.Machine
end

