-- ==== Sys2Proof/Machine/Crypto.lean ====
section
/-! DEFINITION. ECDSA on curve P-256 with SHA-256 (R62), verification only. -/

namespace Sys2Proof.Machine

/-- The field prime of P-256. -/
def p256P : Nat := 0xffffffff00000001000000000000000000000000ffffffffffffffffffffffff
/-- The group order of P-256. -/
def p256N : Nat := 0xffffffff00000000ffffffffffffffffbce6faada7179e84f3b9cac2fc632551
/-- The curve coefficient b of P-256 (a is -3). -/
def p256B : Nat := 0x5ac635d8aa3a93e7b3ebbd55769886bc651d06b0cc53b0f63bce3c3e27d2604b
/-- The base point of P-256. -/
def p256G : Nat × Nat :=
  (0x6b17d1f2e12c4247f8bce6e563a440f277037d812deb33a0f4a13945d898c296,
   0x4fe342e2fe1a7f9b8ee7eb4a7c0f9e162bce33576b315ececbb6406837bf51f5)

/-- `b ^ e mod m`, for exponents below `2 ^ fuel`. -/
def powMod (m : Nat) : Nat → Nat → Nat → Nat
  | 0, _, _ => 1 % m
  | fuel + 1, b, e =>
    let h := powMod m fuel (b * b % m) (e / 2)
    if e % 2 == 1 then b * h % m else h

/-- The inverse modulo a prime `m` below 2^256. -/
def invMod (m a : Nat) : Nat := powMod m 256 a (m - 2)

/-- A point of the curve, `none` for the point at infinity. -/
abbrev Point := Option (Nat × Nat)

/-- The third point of a line of slope `l` through (`x1`, `y1`) and a point of abscissa `x2`, negated. -/
def ecChord (l x1 y1 x2 : Nat) : Point :=
  let x3 := (l * l + 2 * p256P - x1 - x2) % p256P
  some (x3, (l * (x1 + p256P - x3) + p256P - y1) % p256P)

/-- Point addition. -/
def ecAdd : Point → Point → Point
  | none, q => q
  | p, none => p
  | some (x1, y1), some (x2, y2) =>
    if x1 == x2 then
      if (y1 + y2) % p256P == 0 then none
      else ecChord ((3 * x1 * x1 + p256P - 3) * invMod p256P (2 * y1 % p256P) % p256P) x1 y1 x2
    else ecChord ((y2 + p256P - y1) * invMod p256P ((x2 + p256P - x1) % p256P) % p256P) x1 y1 x2

/-- Scalar multiple, for scalars below `2 ^ fuel`. -/
def ecMul : Nat → Nat → Point → Point
  | 0, _, _ => none
  | fuel + 1, k, p =>
    let h := ecMul fuel (k / 2) (ecAdd p p)
    if k % 2 == 1 then ecAdd p h else h

/-- True when (x, y) lies on the curve. -/
def onCurve (x y : Nat) : Bool :=
  x < p256P && y < p256P && (y * y) % p256P == (x * x * x + (p256P - 3) * x + p256B) % p256P

/-- The number a byte string spells, most significant byte first (a digest as an integer, FIPS 186). -/
def ofBe (bs : Bytes) : Nat := ofLe bs.reverse

/-- ECDSA verification (R62): signature (r, s) over `msg` under the public key (x, y). -/
def ecdsaVerify (x y r s : Nat) (msg : Bytes) : Bool :=
  if r == 0 || s == 0 || r ≥ p256N || s ≥ p256N || !onCurve x y then false
  else
    let z := ofBe (sha256 msg)
    let w := invMod p256N s
    match ecAdd (ecMul 256 (z * w % p256N) (some p256G)) (ecMul 256 (r * w % p256N) (some (x, y))) with
    | none => false
    | some (px, _) => px % p256N == r

end Sys2Proof.Machine
end

