-- ==== Sys2Proof/Machine/Load.lean ====
section
/-! DEFINITION. Firmware at every power-up (03): the download session at the host die, the blocks across the barrier,
verification, start, rejoin and failures. -/

namespace Sys2Proof.Machine

/-! ### The image (R61 to R63) -/

/-- T, H and F of a header. -/
def hdrT (h : Bytes) : Nat := leAt h 24 4
def hdrH (h : Bytes) : Nat := leAt h 28 4
def hdrF (h : Bytes) : Nat := leAt h 32 4
/-- N, the number of blocks (R61). -/
def hdrN (h : Bytes) : Nat := 1 + hdrT h + hdrH h + hdrF h

/-- The header's fields meet R61 and the table of the image header. -/
def hdrFieldsOk (h : Bytes) : Bool :=
  slice h 0 4 == ascii "SPX9" && leAt h 4 2 == 1 && leAt h 6 2 == 0 &&
  1 ≤ hdrH h && hdrH h ≤ 1024 && 1 ≤ hdrF h && hdrF h ≤ 8192 && hdrT h == (hdrH h + hdrF h + 31) / 32 &&
  allZero (slice h 164 796)

/-- The public key matches a programmed slot (R63). -/
def hdrKeyOk (slot1 h : Bytes) : Bool :=
  let k := sha256 (slice h 100 64)
  k == fit Config.keySlot0 32 && !allZero Config.keySlot0 || k == slot1 && !allZero slot1

/-- The signature verifies (R62). -/
def hdrSigOk (h : Bytes) : Bool :=
  ecdsaVerify (leAt h 100 32) (leAt h 132 32) (leAt h 960 32) (leAt h 992 32) (h.take 960)

/-- The check of block 0 (R63): 0, or the failure code. -/
def hdrCheck (slot1 h : Bytes) : Nat :=
  if !hdrFieldsOk h then 0x10 else if !hdrKeyOk slot1 h then 0x11 else if !hdrSigOk h then 0x12 else 0

/-! ### Packets and sessions -/

/-- LoadSource (0020h:4). -/
def srcCode : Source → Nat
  | .port n _ _ => n + 1
  | .hcan _ => 3
  | .fcan _ => 4

/-- The transient incidents of R69 that End, Abort and Rejoin carry (U16, saturating). -/
def Session.hostTransient (x : Session) : Nat := min 65535 x.trans

/-- A load control message (the table of load control). -/
def loadControl (kind code f ident security : Nat) (digest : Bytes) (trans : Nat) : Bytes :=
  leBytes kind 1 ++ leBytes code 1 ++ [0, 0] ++ leBytes f 4 ++ leBytes ident 8 ++ leBytes security 4 ++
    fit digest 32 ++ leBytes trans 2

/-- A failure the host die detects (R78): recorded, sent as the Result, and carried to the field die as Abort once it
may have accepted Begin (R547). `block`: the block of the packet that it answers. -/
def Dev.hostFail (d : Dev) (code block : Nat) : Dev :=
  match d.ld.session with
  | none => d.hwr 0x20 3 0 code
  | some x =>
    let d := (d.answer x.src code x.num block).hwr 0x20 3 0 code
    let d := if x.begun && !x.rejoin then d.sendMsg .host 2 (loadControl 3 code 0 0 0 [] x.hostTransient) else d
    d.closeSession

/-- Updates the open session. -/
def Dev.setSession (d : Dev) (x : Session) : Dev := { d with ld.session := some x }

/-- The host part starts (R75, R77): host firmware runs and applies the port group of HCAN (R479); what 0020h says of the
running image. -/
def Dev.startHost (d : Dev) : Dev :=
  let h := d.ld.header
  let d := { d with
    md.hostFw := true, md.hostBeat := false, ld.hostStartAt := some d.now, ld.hcanWake := false
    ld.runVersion := leAt h 8 4, ld.runSecurity := leAt h 12 4, ld.runIdentity := leAt h 16 8 }
  (((d.hwr 0x20 5 0 (leAt h 8 4)).hwr 0x20 6 0 (leAt h 12 4)).hwr 0x20 9 0 (leAt h 16 8)).canApply .host

/-- Every field block has its block result 00h and an End waits: load control End goes, End is answered (R73). -/
def Dev.tryEnd (d : Dev) : Dev :=
  match d.ld.session with
  | none => d
  | some x =>
    if x.endWait && !x.rejoin && x.beginOk && d.ld.accepted.length == hdrF d.ld.header then
      let d := d.sendMsg .host 2 (loadControl 2 0 0 0 0 [] x.hostTransient)
      let d := d.answer x.src 0 x.num 0
      { d.closeSession with ld.running := true, ld.endSent := true }
    else d

/-- The hash table is verified (R70): barrier down is failure 18h; a field die without heartbeats gets Begin; one whose
heartbeats arrive makes the session a rejoin. `n`: the block that completed the table; its one Result is the failure or
00h (R68). -/
def Dev.tableVerified (d : Dev) (x : Session) (n : Nat) : Dev :=
  let h := d.ld.header
  if d.bar.link != 1 then (d.setSession x).hostFail 0x18 n
  else if d.bar.host.started && !d.bar.host.silent then
    (d.setSession { x with tableOk := true, rejoin := true }).answer x.src 0 x.num n
  else
    ((d.setSession { x with tableOk := true, begun := true }).answer x.src 0 x.num n).sendMsg .host 2
      (loadControl 1 0 (hdrF h) (leAt h 16 8) (leAt h 12 4) (slice h 68 32) 0)

/-- Accepts block `n` of the session (R68), whose answer is still due. -/
def Dev.takeBlock (d : Dev) (x : Session) (n : Nat) (bs : Bytes) : Dev × Session :=
  let acc := x.accepted ++ [n]
  let x := { x with
    accepted := acc, held := x.held.filter fun p => p.1 != n
    next := ((List.range 9300).find? fun k => !(acc.any (· == k))).getD x.next
    trans := x.trans + (if x.failed.any (· == n) then 1 else 0) }
  let d := { d with ld.blocks := Tab.put d.ld.blocks n bs }
  (d.hwr 0x20 1 0 acc.length, x)

/-- Accepts block `n` of the session and answers it 00h (R68). -/
def Dev.acceptBlock (d : Dev) (x : Session) (n : Nat) (bs : Bytes) : Dev × Session :=
  let r := d.takeBlock x n bs
  (r.1.answer x.src 0 x.num n, r.2)

/-- The table entry of block `n` (R61). -/
def Dev.tableEntry (d : Dev) (n : Nat) : Bytes :=
  let k := n - hdrT d.ld.header - 1
  slice (Tab.get d.ld.blocks (1 + k / 32) []) (k % 32 * 32) 32

/-- Checks a block after the table (R69): 01h the first time it fails, failure 14h the second. -/
def Dev.checkBlock (d : Dev) (x : Session) (n : Nat) (bs : Bytes) : Dev :=
  if sha256 bs == d.tableEntry n then
    let r := d.acceptBlock x n bs
    (r.1.setSession r.2).tryEnd
  else if x.failed.any (· == n) then
    (d.setSession x).hostFail 0x14 n
  else (d.setSession { x with failed := x.failed ++ [n], held := x.held.filter fun p => p.1 != n }).answer x.src 1 x.num n

/-- The blocks held for the table are checked in order of their numbers (R68). -/
def Dev.checkHeld (d : Dev) : List (Nat × Bytes) → Dev
  | [] => d
  | (n, bs) :: rest =>
    match d.ld.session with
    | none => d
    | some x => (d.checkBlock x n bs).checkHeld rest

/-- A block of the open session, from its source and with its number (R68, R69). -/
def Dev.sessionBlock (d : Dev) (x : Session) (n : Nat) (bs : Bytes) : Dev :=
  let window := match x.src with
    | .hcan _ => 0
    | _ => 15
  let h := d.ld.header
  if x.accepted.any (· == n) then (d.setSession x).answer x.src 0 x.num n
  else if n < x.next || x.next + window < n || hdrN h ≤ n then (d.setSession x).answer x.src 9 x.num n
  else if x.held.any (fun p => p.1 == n) then d.setSession x
  else if n ≤ hdrT h then
    let r := d.takeBlock x n bs
    if hdrT h < r.2.next then
      let tab := ((List.range (hdrT h)).map fun k => Tab.get r.1.ld.blocks (k + 1) []).flatten
      if sha256 tab == slice h 36 32 then
        let d := r.1.tableVerified r.2 n
        d.checkHeld (x.held.mergeSort fun p q => p.1 ≤ q.1)
      else (r.1.setSession r.2).hostFail 0x13 n
    else (r.1.setSession r.2).answer x.src 0 x.num n
  else if !x.tableOk then d.setSession { x with held := x.held ++ [(n, bs)] }
  else d.checkBlock x n bs

/-- Block 0 opens a session (R67): header checked under R63. -/
def Dev.openSession (d : Dev) (src : Source) (num : Nat) (bs : Bytes) : Dev :=
  let d := { d with ld.header := bs, ld.blocks := [], ld.accepted := [], ld.incidents := 0, ld.fwdNext := 0 }
  let x : Session := { src := src, num := num, last := d.now }
  let d := ((d.hwr 0x20 4 0 (srcCode src)).hwr 0x20 1 0 0).hwr 0x20 2 0 0
  let c := hdrCheck d.ld.keySlot1 bs
  if c != 0 then (d.setSession x).hostFail c 0
  else
    let r := (d.hwr 0x20 2 0 (hdrN bs)).acceptBlock { x with headerOk := true } 0 bs
    r.1.setSession r.2

/-- The session as Abort ends it (R67, R73). -/
def Dev.abortSession (d : Dev) : Dev := d.hostFail 0x1A 0

/-- A Block packet at the host die (R66 to R69). -/
def blockPacket (src : Source) (num n : Nat) (bs : Bytes) (d : Dev) : Dev :=
  if d.md.hostReset then d
  else if d.md.hostFw then d.answer src 5 num n
  else
    match d.ld.session with
    | some x =>
      if x.src != src then d.answer src 9 num n
      else if n == 0 && num != x.num then (d.abortSession).openSession src num bs
      else if num != x.num then d.answer src 9 num n
      else d.sessionBlock { x with last := d.now } n bs
    | none =>
      if n != 0 then d.answer src 5 num n
      else if d.ld.running then d.answer src 9 num n
      else d.openSession src num bs

/-- An End packet (R73, R77). -/
def endPacket (src : Source) (num : Nat) (d : Dev) : Dev :=
  if d.md.hostReset then d
  else if d.md.hostFw then d.answer src 5 num 0
  else
    match d.ld.session with
    | none => d.answer src 5 num 0
    | some x =>
      if x.src != src then d.answer src 9 num 0
      else if num != x.num then d.answer src 9 num 0
      else
        let x := { x with last := d.now }
        let h := d.ld.header
        if x.accepted.length < hdrN h || !x.tableOk then (d.setSession x).answer src 9 num 0
        else if x.rejoin then
          let part := ((List.range (hdrF h)).map fun k => Tab.get d.ld.blocks (hdrT h + hdrH h + 1 + k) []).flatten
          if sha256 part == slice h 68 32 then
            { (d.setSession { x with endWait := true }) with ld.rejoinAt := some d.now }.sendMsg .host 2
              (loadControl 4 0 0 (leAt h 16 8) 0 [] x.hostTransient)
          else (d.setSession x).hostFail 0x16 0
        else (d.setSession { x with endWait := true }).tryEnd

/-- An Abort packet (R73). -/
def abortPacket (src : Source) (num : Nat) (d : Dev) : Dev :=
  if d.md.hostReset then d
  else if d.md.hostFw then d.answer src 5 num 0
  else
    match d.ld.session with
    | none => d.answer src 5 num 0
    | some x => if x.src != src || num != x.num then d.answer src 9 num 0 else d.abortSession

/-- 1 s without a packet of the session's source (R67). -/
def sessionTimeout (d : Dev) : Dev :=
  match d.ld.session with
  | some x => if x.last + sec ≤ d.now then d.hostFail 0x19 0 else d
  | none => d

/-! ### HCAN (R79, R80) -/

/-- The frame that wakes HCAN (R79). -/
def hcanWake (data : Bytes) (d : Dev) : Dev :=
  if !d.md.hostReset && !d.md.hostFw && leAt data 0 6 == Config.headIdentity % 2 ^ 48 && byteAt data 6 == 1 then
    { d with ld.hcanWake := true }
  else d

/-- A download fragment on 542h (R80). The source is HCAN with its base 540h; HCAN carries no session number (0). -/
def hcanFragment (data : Bytes) (d : Dev) : Dev :=
  let src := Source.hcan 0x540
  if d.md.hostReset || (!d.ld.hcanWake && !d.md.hostFw) || data.length != 64 then d
  else
    let n := leAt data 0 3
    let f := byteAt data 3
    if f == 0xFE then endPacket src 0 d
    else if f == 0xFF then abortPacket src 0 d
    else
      let a := d.ld.asm.getD {}
      if f == 0 then { d with ld.asm := some { next := n * 32 + 1, data := data.drop 4 } }
      else if f ≤ 17 && a.next == n * 32 + f then
        if f == 17 then blockPacket src 0 n (a.data ++ slice data 4 4) { d with ld.asm := none }
        else { d with ld.asm := some { next := n * 32 + f + 1, data := a.data ++ data.drop 4 } }
      else { d with ld.asm := none }

/-! ### Across the barrier (R71, R72) -/

/-- The host die writes the next checked field block to its mailbox (R71). -/
def forwardBlock (d : Dev) : Dev :=
  match d.ld.session with
  | none => d
  | some x =>
    if !x.beginOk || d.md.hostReset then d
    else
      let h := d.ld.header
      let img := fun k => hdrT h + hdrH h + 1 + k
      let send := fun (d : Dev) (k att : Nat) =>
        { d with ld.crossing := d.ld.crossing ++ [(k, att)] }.sendMsg .host (k % 2)
          (leBytes k 4 ++ leBytes att 1 ++ [0, 0, 0] ++ d.tableEntry (img k) ++ Tab.get d.ld.blocks (img k) [])
      match d.ld.toForward with
      | (k, att) :: rest => if d.sendBusy .host (k % 2) then d else send { d with ld.toForward := rest } k att
      | [] =>
        let k := d.ld.fwdNext
        if k < hdrF h && x.accepted.any (· == img k) && !d.sendBusy .host (k % 2) then
          send { d with ld.fwdNext := k + 1 } k 1
        else d

/-- The field die takes a firmware block (R71). -/
def firmwareBlockMsg (mailbox : Nat) (msg readback : Bytes) (d : Dev) : Dev :=
  if d.md.fieldReset then d
  else
    let d := d.takeMail .field mailbox
    if d.mode != 1 || d.rn 0x30 2 0 != 1 then d
    else
      let k := leAt msg 0 4
      let d := { d with ld.fw := Tab.put d.ld.fw k (fit readback 1024), ld.lastCell := d.now }
      if sha256 (fit readback 1024) == slice msg 8 32 then
        let d := if d.ld.fFailed.any (· == k) then d.transient 0x8109 else d
        { d with ld.fDone := d.ld.fDone ++ [k] }.sendMsg .field mailbox [0]
      else if byteAt msg 4 == 2 || d.ld.fFailed.any (· == k) then
        ((d.lasting 0x8109).sendMsg .field mailbox [2]).loadReset (some 0x15) true
      else { d with ld.fFailed := d.ld.fFailed ++ [k] }.sendMsg .field mailbox [1]

/-- The host die takes a block result (R71). -/
def blockResultMsg (mailbox result : Nat) (d : Dev) : Dev :=
  if d.md.hostReset then d
  else
    let d := d.takeMail .host mailbox
    match d.ld.session, d.ld.crossing.find? (fun p => p.1 % 2 == mailbox) with
    | some _, some (k, _) =>
      let d := { d with ld.crossing := d.ld.crossing.filter fun p => p.1 != k }
      if result == 0 then { d with ld.accepted := d.ld.accepted ++ [k] }.tryEnd
      else if result == 1 then { d with ld.toForward := d.ld.toForward ++ [(k, 2)] }
      else d.hostRecord 0x15
    | _, _ => d

/-! ### Load control and status (R546, R547) -/

/-- A load status (the table of load status). -/
def Dev.loadStatusMsg (d : Dev) (result code : Nat) : Dev :=
  d.sendMsg .field 2 ([0x81] ++ leBytes result 1 ++ leBytes (d.rn 0x30 2 0) 1 ++ leBytes code 1)

/-- Begin (R38, R547): accepted only in Dormant. -/
def controlBegin (msg : Bytes) (d : Dev) : Dev :=
  if d.md.fieldReset then d
  else
    let d := d.takeMail .field 2
    if d.mode != 0 then d.loadStatusMsg 2 0x1E
    else
      let d := (d.wr 0x30 1 0 1).wr 0x30 2 0 1
      let d := { d with
        ld.fBlocks := leAt msg 4 4, ld.fIdentity := leAt msg 8 8, ld.fSecurity := leAt msg 16 4
        ld.fDigest := slice msg 20 32, ld.fFailed := [], ld.fDone := [], ld.fIncidents := 0, ld.verifyAgain := false
        ld.lastCell := d.now, ld.endSeen := false }
      (d.raise 0 [0, 1, 0]).loadStatusMsg 0 0

/-- The host die's transient incidents carried by load control (R547). -/
def Dev.addHostTransient (d : Dev) (msg : Bytes) : Dev :=
  let n := leAt msg 52 2
  if n == 0 then d else ((d.add 0x8109 1 0 n).add 0x8109 3 0 n).wr 0x8109 5 0 d.devTime

/-- End (R73): phase verify. -/
def controlEnd (msg : Bytes) (d : Dev) : Dev :=
  if d.md.fieldReset then d
  else
    let d := d.takeMail .field 2
    if d.mode == 1 && d.rn 0x30 2 0 == 1 then
      ({ (d.addHostTransient msg) with ld.endSeen := true, ld.verifyAgain := false }.wr 0x30 2 0 2).loadStatusMsg 1 0
    else d

/-- Abort (R73, R547). -/
def controlAbort (msg : Bytes) (d : Dev) : Dev :=
  if d.md.fieldReset then d
  else
    let d := d.takeMail .field 2
    if d.mode == 1 then
      let d := d.addHostTransient msg
      let d := if byteAt msg 1 == 0x14 then d.lasting 0x8109 else d
      d.loadReset (some (byteAt msg 1)) true
    else d

/-- Rejoin (R58, R77). -/
def controlRejoin (msg : Bytes) (d : Dev) : Dev :=
  if d.md.fieldReset then d
  else
    let d := d.takeMail .field 2
    if d.md.fieldFw && leAt msg 8 8 == d.ld.fIdentity then
      let d := { (d.addHostTransient msg) with md.grace := none, md.hostAccepted := true }
      (d.raise 6 []).loadStatusMsg 0 0
    else (d.raise 7 []).loadStatusMsg 2 0x1F

/-- The host die takes a load status (R75, R77, R78, R548). -/
def loadStatusAt (msg : Bytes) (d : Dev) : Dev :=
  if d.md.hostReset then d
  else
    let d := (d.takeMail .host 2).hwr 0x30 2 0 (byteAt msg 2)
    let r := byteAt msg 1
    match r, d.ld.session with
    | 0, some x =>
      if x.rejoin then (d.answer x.src 0 x.num 0).closeSession.startHost
      else d.setSession { x with beginOk := true }
    | 1, _ => if byteAt msg 2 == 3 && d.ld.running then d.startHost else d
    | 2, some x => if x.rejoin || x.begun then d.hostRecord (byteAt msg 3) else d
    | 3, _ => d.hostRecord (byteAt msg 3)
    | _, _ => d

/-! ### Verify and start (R74 to R76) -/

/-- A digest computation of phase verify ends (R74). -/
def verifyDone (upset : Bool) (d : Dev) : Dev :=
  if d.mode != 1 || d.rn 0x30 2 0 != 2 then d
  else
    let part := ((List.range d.ld.fBlocks).map fun k => Tab.get d.ld.fw k (zeros 1024)).flatten
    if upset || sha256 part != d.ld.fDigest then
      if d.ld.verifyAgain then (d.lasting 0x8109).loadReset (some 0x16) true else { d with ld.verifyAgain := true }
    else
      let d := if d.ld.verifyAgain then { d.transient 0x8109 with ld.verifyAgain := false } else d
      if d.ld.fSecurity < d.ld.rollback then d.loadReset (some 0x17) true else d.startPhase

/-- 100 ms of the transfer phase without a cell to mailboxes 0-2 (R39). -/
def transferTimeout (d : Dev) : Dev :=
  if d.mode == 1 && d.rn 0x30 2 0 == 1 && decide (d.ld.lastCell + 100 * ms ≤ d.now) then d.loadReset (some 0x19) true
  else d

/-- 100 ms of phase start without a Heartbeat of the field firmware (R75). -/
def fieldFwTimeout (d : Dev) : Dev :=
  if d.mode == 1 && d.rn 0x30 2 0 == 3 && !d.md.fieldBeat && decide (d.ld.phaseAt + 100 * ms ≤ d.now) then
    d.loadReset (some 0x1C) true
  else d

/-- 100 ms after the host part was started without its Heartbeat (R75): failure 1Dh, back to the boot ROM. -/
def hostPartTimeout (d : Dev) : Dev :=
  match d.ld.hostStartAt with
  | some t =>
    if d.md.hostFw && !d.md.hostBeat && decide (t + 100 * ms ≤ d.now) then
      { d with
        md.hostFw := false, ld.hostStartAt := none, ld.running := false, hcan := ({} : Dev).hcan }.hwr 0x20 3 0 0x1D
    else d
  | none => d

/-- 100 ms without a load status after a Rejoin (R77). -/
def rejoinTimeout (d : Dev) : Dev :=
  match d.ld.rejoinAt with
  | some t => if t + 100 * ms ≤ d.now then d.hostFail 0x19 0 else d
  | none => d

/-! ### The commands -/

/-- The data of a Block packet; a packet shorter than its layout is padded (its length is not checked by the spec). -/
def packetData (p : Bytes) : Bytes := fit (p.drop 8) 1024

/-- DOWNLOAD_BLOCK. -/
def execDownloadBlock (t : Nat) (src : Source) (packet : Bytes) : State → Host.Outcome State Fault Refusal :=
  onDev t (blockPacket src (leAt packet 2 2) (leAt packet 4 4) (packetData packet))
/-- DOWNLOAD_END. -/
def execDownloadEnd (t : Nat) (src : Source) (packet : Bytes) : State → Host.Outcome State Fault Refusal :=
  onDev t (endPacket src (leAt packet 2 2))
/-- DOWNLOAD_ABORT. -/
def execDownloadAbort (t : Nat) (src : Source) (packet : Bytes) : State → Host.Outcome State Fault Refusal :=
  onDev t (abortPacket src (leAt packet 2 2))
/-- DOWNLOAD_SESSION_TIMEOUT. -/
def execDownloadSessionTimeout (t : Nat) : State → Host.Outcome State Fault Refusal := onDev t sessionTimeout
/-- FORWARD_FIELD_BLOCK. -/
def execForwardFieldBlock (t : Nat) : State → Host.Outcome State Fault Refusal := onDev t forwardBlock
/-- FIRMWARE_BLOCK. -/
def execFirmwareBlock (t : Nat) (mailbox : Nat) (msg readback : Bytes) : State → Host.Outcome State Fault Refusal :=
  onDev t (firmwareBlockMsg mailbox msg readback)
/-- BLOCK_RESULT. -/
def execBlockResult (t : Nat) (mailbox result : Nat) : State → Host.Outcome State Fault Refusal :=
  onDev t (blockResultMsg mailbox result)
/-- LOAD_CONTROL_BEGIN. -/
def execLoadControlBegin (t : Nat) (msg : Bytes) : State → Host.Outcome State Fault Refusal := onDev t (controlBegin msg)
/-- LOAD_CONTROL_END. -/
def execLoadControlEnd (t : Nat) (msg : Bytes) : State → Host.Outcome State Fault Refusal := onDev t (controlEnd msg)
/-- LOAD_CONTROL_ABORT. -/
def execLoadControlAbort (t : Nat) (msg : Bytes) : State → Host.Outcome State Fault Refusal := onDev t (controlAbort msg)
/-- LOAD_CONTROL_REJOIN. -/
def execLoadControlRejoin (t : Nat) (msg : Bytes) : State → Host.Outcome State Fault Refusal := onDev t (controlRejoin msg)
/-- LOAD_STATUS. -/
def execLoadStatus (t : Nat) (msg : Bytes) : State → Host.Outcome State Fault Refusal := onDev t (loadStatusAt msg)
/-- VERIFY_DIGEST_COMPLETE. -/
def execVerifyDigestComplete (t : Nat) (upset : Bool) : State → Host.Outcome State Fault Refusal := onDev t (verifyDone upset)
/-- LOAD_TRANSFER_TIMEOUT. -/
def execLoadTransferTimeout (t : Nat) : State → Host.Outcome State Fault Refusal := onDev t transferTimeout
/-- FIELD_FIRMWARE_HEARTBEAT_TIMEOUT. -/
def execFieldFirmwareHeartbeatTimeout (t : Nat) : State → Host.Outcome State Fault Refusal := onDev t fieldFwTimeout
/-- HOST_PART_HEARTBEAT_TIMEOUT. -/
def execHostPartHeartbeatTimeout (t : Nat) : State → Host.Outcome State Fault Refusal := onDev t hostPartTimeout
/-- REJOIN_STATUS_TIMEOUT. -/
def execRejoinStatusTimeout (t : Nat) : State → Host.Outcome State Fault Refusal := onDev t rejoinTimeout
/-- HCAN_BOOT_WAKE. -/
def execHcanBootWake (t : Nat) (data : Bytes) : State → Host.Outcome State Fault Refusal := onDev t (hcanWake data)
/-- HCAN_DOWNLOAD_FRAGMENT. -/
def execHcanDownloadFragment (t : Nat) (data : Bytes) : State → Host.Outcome State Fault Refusal := onDev t (hcanFragment data)

end Sys2Proof.Machine
end

