-- ==== Sys2Proof/Machine/Registers.lean ====
section
/-! DEFINITION. Register writes of the service cores and of host firmware (R463, R481, the address map of the service cores,
the tables of registers of 17, 18 and 19). A register that has a command of its own is written by the same operation. -/

namespace Sys2Proof.Machine

/-- The 32-bit word written at `off` of a buffer of `len` bytes. -/
def putWord (b : Bytes) (len off v : Nat) : Bytes := splice (fit b len) off (leBytes v 4)

/-! ### Mailboxes -/

/-- A write at offset `r` of internal mailbox `m` by core `c` (R491, R492). -/
def mailReg (c m r v : Nat) (user : Bool) (d : Dev) : Dev :=
  let x := d.mail m
  if r == 0 then d.putMail m { x with collision := w1c x.collision v 1, taken := w1c x.taken v 3 }
  else if r == 4 then
    if bit v 0 && bit v 1 then d
    else if bit v 0 then mailSend c m (bits v 27 16) d
    else if bit v 1 then mailTake c m (bits v 31 16) d
    else d
  else if r == 8 then (if user then d.busError c else d.putMail m { x with cfg := Nat.land v 0x80001FFF })
  else if 0x400 ≤ r then
    if bits x.cfg 2 0 != c then d.busError c else d.putMail m { x with sendBuf := putWord x.sendBuf 1024 (r - 0x400) v }
  else d

/-- A write to the MBX_ registers. -/
def mbxReg (c off v : Nat) (user : Bool) (d : Dev) : Dev :=
  let f := d.bar.field
  if off < 0x10000 then
    let b := off / 0x1000
    let x := Tab.get f.recv b {}
    if off % 0x1000 == 0 then { d with bar.field := { f with recv := Tab.put f.recv b { x with collision := w1c x.collision v 1 } } }
    else if off % 0x1000 == 4 && bit v 0 then barrierTake b (bits v 31 16) d
    else d
  else if off < 0x20000 then
    let b := (off - 0x10000) / 0x1000
    let r := off % 0x1000
    let x := Tab.get f.send b {}
    let put (y : SendSlot) : Dev := { d with bar.field := { f with send := Tab.put f.send b y } }
    if r == 0 then put { x with collision := w1c x.collision v 1, taken := w1c x.taken v 3, lost := w1c x.lost v 4 }
    else if r == 4 && bit v 0 then barrierSend b (bits v 27 16) d
    else if 0x40 ≤ r && r < 0x40 + 3456 then put { x with buf := putWord x.buf 3456 (r - 0x40) v }
    else d
  else mailReg c ((off - 0x20000) / 0x800) ((off - 0x20000) % 0x800) v user d

/-! ### Lift, watchdogs, events -/

/-- A write to the LFT_ registers by core `c`. -/
def liftReg (c off v : Nat) (user : Bool) (d : Dev) : Dev :=
  if off < 0x10 then
    let x := d.core c
    d.putCore c { x with staged := putWord x.staged 16 off v }
  else if off == 0x10 then liftEnq c (v % 64) d
  else if off == 0x24 then liftDoneOf c d
  else if off == 0x28 then liftSleepOf c d
  else if off == 0x2C then kick c v d
  else if 0x1000 ≤ off && off < 0x1100 then liftConfig ((off - 0x1000) / 4) v d
  else if 0x1200 ≤ off && off < 0x1220 then
    if user then d.busError c
    else
      let k := (off - 0x1200) / 4
      let x := d.core k
      d.putCore k { x with wdPeriod := bits v 9 0, wdEnable := bit v 31, kickAt := if x.wdEnable then x.kickAt else d.now }
  else if off == 0x1220 then { d with lift.flowLimit := bits v 19 0 }
  else d

/-- A write to the EVT_ registers by core `c`. -/
def eventReg (c off v : Nat) (user : Bool) (d : Dev) : Dev :=
  if off < 0x400 then
    if user then d.busError c else { d with lift.routes := Tab.put d.lift.routes (off / 4) (v % 2 ^ 31) }
  else if off < 0x500 then
    let k := (off - 0x400) / 4
    { d with lift.pend := Tab.put d.lift.pend k (Nat.land (Tab.get d.lift.pend k 0) (Nat.xor 0xFFFFFFFF (v % 2 ^ 32))) }
  else d

/-! ### CAN controllers -/

/-- A word of a frame image as a register stores it. -/
def imageMask (off v : Nat) : Nat := if off == 0 then v % 2 ^ 31 else if off == 4 then v % 64 else v

/-- A write at offset `r` of transmit slot `s` (R473): while the slot is armed, DUE, PERIOD, WINDOW and image wait for its
next DUE. -/
def slotReg (die : Die) (s r v : Nat) (d : Dev) : Dev :=
  let x := d.can die
  let y := x.slot s
  let put (y : CanSlot) : Dev := d.setCan die (x.setSlot s y)
  if r == 0 then
    let y := { (if y.arm then y else y.take) with tag := bits v 15 8, arm := bit v 0 }
    put (if bit v 0 then y else { y with flag := false })
  else
    let y := if r == 4 then { y with wDue := some v } else if r == 8 then { y with wPeriod := some v }
      else if r == 0xC then { y with wWindow := some v }
      else if 0x10 ≤ r && r < 0x58 then { y with wImage := some (putWord (y.wImage.getD y.image) 72 (r - 0x10) (imageMask (r - 0x10) v)) }
      else y
    put (if y.arm then y else y.take)

/-- A write to a controller's registers (R470, R471, R473, R477). -/
def canReg (die : Die) (off v : Nat) (d : Dev) : Dev :=
  let x := d.can die
  if off == 0 then
    let x := if x.init then { x with ctrl := x.ctrl % 2 + Nat.land v 0x3E } else x
    canInitWrite die (bit v 0) (d.setCan die x)
  else if off == 4 then (if x.init then d.setCan die { x with nbt := v % 2 ^ 27 } else d)
  else if off == 8 then (if x.init then d.setCan die { x with dbt := v % 2 ^ 25 } else d)
  else if off == 0x10 then d.setCan die { x with int := Nat.land x.int (Nat.xor 0x1FF (v % 512)) }
  else if off == 0x14 then d.setCan die { x with inten := v % 512 }
  else if off == 0x20 then
    let tag := bits v 15 8
    let d := if bit v 0 then canPush die tag d else d
    let d := if bit v 1 then canCancel die tag d else d
    if bit v 2 then canFlush die d else d
  else if 0x100 ≤ off && off < 0x148 then
    d.setCan die { x with stage := putWord x.stage 72 (off - 0x100) (imageMask (off - 0x100) v) }
  else if 0x200 ≤ off && off < 0x600 then slotReg die ((off - 0x200) / 0x80) ((off - 0x200) % 0x80) v d
  else if 0x800 ≤ off && off < 0x2800 then
    let b := (off - 0x800) / 0x80
    let r := (off - 0x800) % 0x80
    let y := Tab.get x.rx b {}
    let put (y : CanRx) : Dev := d.setCan die { x with rx := Tab.put x.rx b y }
    if r == 0 then put { y with filter := v % 2 ^ 30 }
    else if r == 4 then put { y with mask := v % 2 ^ 29 }
    else if r == 8 then put { y with newData := w1c y.newData v 0, lost := w1c y.lost v 1, enable := bit v 31 }
    else d
  else d

/-! ### Capture units -/

/-- A write to the registers of capture unit `u` (R502 to R506). -/
def captureReg (u off v : Nat) (d : Dev) : Dev :=
  let x := d.capU u
  if off == 4 then
    let d := if bit v 0 then d.capArm u else d
    let d := if bit v 1 then d.capForce u else d
    let d := if bit v 2 then d.capAbort u else d
    if bit v 3 then d.capRelease u else d
  else if off == 8 then d.setCapU u { x with cfgErr := w1c x.cfgErr v 3 }
  else d.capReg u off v

/-! ### The address maps -/

/-- Firmware SRAM before the start phase of Load is over (R481). -/
def Dev.fwWord (d : Dev) (addr v : Nat) : Dev :=
  let n := addr / 1024
  { d with ld.fw := Tab.put d.ld.fw n (putWord (Tab.get d.ld.fw n []) 1024 (addr % 1024) v) }

/-- A write of core `c` of the field die (R481). -/
def fieldReg (c addr v : Nat) (user : Bool) (d : Dev) : Dev × List NvWrite :=
  if !d.coreActs c then (d, [])
  else if busErrorAt (d.mode != 1) addr 4 true user then (d.busError c, [])
  else if addr < 0x800000 then (d.fwWord addr v, [])
  else if 0x10000000 ≤ addr && addr < 0x11000000 then (d, [(false, addr, leBytes v 4)])
  else if 0x40000000 ≤ addr && addr < 0x40030000 then (mbxReg c (addr - 0x40000000) v user d, [])
  else if 0x41000000 ≤ addr && addr < 0x41002000 then (liftReg c (addr - 0x41000000) v user d, [])
  else if 0x42000000 ≤ addr && addr < 0x42002000 then (eventReg c (addr - 0x42000000) v user d, [])
  else if 0x4A000000 ≤ addr && addr < 0x4A002800 then (canReg .field (addr - 0x4A000000) v d, [])
  else if 0x4C000000 ≤ addr && addr < 0x4C040000 then
    (captureReg ((addr - 0x4C000000) / 0x10000) ((addr - 0x4C000000) % 0x10000) v d, [])
  else (d, [])

/-- A write of host firmware: HCAN (R463). -/
def hostReg (addr v : Nat) (d : Dev) : Dev :=
  if d.md.hostReset || !d.md.hostFw || addr % 4 != 0 || addr < 0x40000 || 0x42800 ≤ addr then d
  else canReg .host (addr - 0x40000) v d

/-- REGISTER_WRITE. -/
def registerAt (site : Die) (c addr v : Nat) (user : Bool) (_sram _nv : Mem) (d : Dev) : Dev × List NvWrite :=
  match site with
  | .field => fieldReg c addr (v % 2 ^ 32) user d
  | .host => (hostReg addr (v % 2 ^ 32) d, [])

/-! ### Commands -/

/-- REGISTER_WRITE. -/
def execRegisterWrite (t : Nat) (site : Die) (core addr value : Nat) (user : Bool) : State → Host.Outcome State Fault Refusal :=
  onMem t (registerAt site core addr value user)

end Sys2Proof.Machine
end

