-- ==== Sys2Proof/Machine/Dispatch.lean ====
section
/-! DEFINITION. What each command does: one arm per constructor of `Instr`. -/

namespace Sys2Proof.Machine

def exec (i : Instr) (s : State) : Host.Outcome State Fault Refusal :=
  match i with
  | .frstNLow t width => Sys2Proof.Machine.execFrstNLow t width s
  | .frstNRelease t ssc plls sealUp sealDown => Sys2Proof.Machine.execFrstNRelease t ssc plls sealUp sealDown s
  | .hrstNLow t width => Sys2Proof.Machine.execHrstNLow t width s
  | .hrstNRelease t pllLocked => Sys2Proof.Machine.execHrstNRelease t pllLocked s
  | .powerUpSelfTestComplete t judgeOk bitsA bitsB => Sys2Proof.Machine.execPowerUpSelfTestComplete t judgeOk bitsA bitsB s
  | .trainingComplete t => Sys2Proof.Machine.execTrainingComplete t s
  | .trainingTimeout t => Sys2Proof.Machine.execTrainingTimeout t s
  | .retrainTimer t => Sys2Proof.Machine.execRetrainTimer t s
  | .cellSlot t die => Sys2Proof.Machine.execCellSlot t die s
  | .receiveCell t die aligned cell => Sys2Proof.Machine.execReceiveCell t die aligned cell s
  | .cellAckTimeout t die seq => Sys2Proof.Machine.execCellAckTimeout t die seq s
  | .nakWaitTimeout t die => Sys2Proof.Machine.execNakWaitTimeout t die s
  | .heartbeatSend t die => Sys2Proof.Machine.execHeartbeatSend t die s
  | .heartbeatSilenceCheck t die => Sys2Proof.Machine.execHeartbeatSilenceCheck t die s
  | .statusReportTimer t die => Sys2Proof.Machine.execStatusReportTimer t die s
  | .hostStatusReport t rep => Sys2Proof.Machine.execHostStatusReport t rep s
  | .fieldStatusReport t rep => Sys2Proof.Machine.execFieldStatusReport t rep s
  | .fieldHeartbeatWait t => Sys2Proof.Machine.execFieldHeartbeatWait t s
  | .fieldHeldTimer t => Sys2Proof.Machine.execFieldHeldTimer t s
  | .resetHoldReport t holdMs => Sys2Proof.Machine.execResetHoldReport t holdMs s
  | .clearCounts t req obj inst => Sys2Proof.Machine.execClearCounts t req obj inst s
  | .clearHostBarrierCounts t req => Sys2Proof.Machine.execClearHostBarrierCounts t req s
  | .writeModeRequest t req value => Sys2Proof.Machine.execWriteModeRequest t req value s
  | .controlledStopComplete t => Sys2Proof.Machine.execControlledStopComplete t s
  | .writeSafeHoldAck t req value => Sys2Proof.Machine.execWriteSafeHoldAck t req value s
  | .hostLossGraceExpiry t => Sys2Proof.Machine.execHostLossGraceExpiry t s
  | .loadTransferTimeout t => Sys2Proof.Machine.execLoadTransferTimeout t s
  | .downloadBlock t src packet => Sys2Proof.Machine.execDownloadBlock t src packet s
  | .downloadEnd t src packet => Sys2Proof.Machine.execDownloadEnd t src packet s
  | .downloadAbort t src packet => Sys2Proof.Machine.execDownloadAbort t src packet s
  | .downloadSessionTimeout t => Sys2Proof.Machine.execDownloadSessionTimeout t s
  | .forwardFieldBlock t => Sys2Proof.Machine.execForwardFieldBlock t s
  | .firmwareBlock t mailbox msg readback => Sys2Proof.Machine.execFirmwareBlock t mailbox msg readback s
  | .blockResult t mailbox result => Sys2Proof.Machine.execBlockResult t mailbox result s
  | .loadControlBegin t msg => Sys2Proof.Machine.execLoadControlBegin t msg s
  | .loadControlEnd t msg => Sys2Proof.Machine.execLoadControlEnd t msg s
  | .loadControlAbort t msg => Sys2Proof.Machine.execLoadControlAbort t msg s
  | .loadControlRejoin t msg => Sys2Proof.Machine.execLoadControlRejoin t msg s
  | .loadStatus t msg => Sys2Proof.Machine.execLoadStatus t msg s
  | .verifyDigestComplete t upset => Sys2Proof.Machine.execVerifyDigestComplete t upset s
  | .fieldFirmwareHeartbeatTimeout t => Sys2Proof.Machine.execFieldFirmwareHeartbeatTimeout t s
  | .hostPartHeartbeatTimeout t => Sys2Proof.Machine.execHostPartHeartbeatTimeout t s
  | .rejoinStatusTimeout t => Sys2Proof.Machine.execRejoinStatusTimeout t s
  | .writeKeySlot1 t req value => Sys2Proof.Machine.execWriteKeySlot1 t req value s
  | .rollbackAdvance t req => Sys2Proof.Machine.execRollbackAdvance t req s
  | .hcanBootWake t data => Sys2Proof.Machine.execHcanBootWake t data s
  | .hcanDownloadFragment t data => Sys2Proof.Machine.execHcanDownloadFragment t data s
  | .objectRead t site src msg => Sys2Proof.Machine.execObjectRead t site src msg s
  | .objectWrite t site src msg => Sys2Proof.Machine.execObjectWrite t site src msg s
  | .objectDescribe t site src msg => Sys2Proof.Machine.execObjectDescribe t site src msg s
  | .objectNext t site src msg => Sys2Proof.Machine.execObjectNext t site src msg s
  | .forwardRequest t mailbox => Sys2Proof.Machine.execForwardRequest t mailbox s
  | .objectResponse t src msg => Sys2Proof.Machine.execObjectResponse t src msg s
  | .forwardTimeout t src tag => Sys2Proof.Machine.execForwardTimeout t src tag s
  | .responseCacheExpiry t src tag => Sys2Proof.Machine.execResponseCacheExpiry t src tag s
  | .stagingTimeout t obj el inst => Sys2Proof.Machine.execStagingTimeout t obj el inst s
  | .commit t req rec inst => Sys2Proof.Machine.execCommit t req rec inst s
  | .discard t req rec inst => Sys2Proof.Machine.execDiscard t req rec inst s
  | .editTimeout t rec inst => Sys2Proof.Machine.execEditTimeout t rec inst s
  | .canObjectFragment t port base data => Sys2Proof.Machine.execCanObjectFragment t port base data s
  | .gateResponseTimeout t seg pos => Sys2Proof.Machine.execGateResponseTimeout t seg pos s
  | .latchInstant t sd => Sys2Proof.Machine.execLatchInstant t sd s
  | .frameLaunch t residual => Sys2Proof.Machine.execFrameLaunch t residual s
  | .writeSetTime t req value => Sys2Proof.Machine.execWriteSetTime t req value s
  | .writeIncrement t req value => Sys2Proof.Machine.execWriteIncrement t req value s
  | .writeSteering t req value => Sys2Proof.Machine.execWriteSteering t req value s
  | .ptpAnnounce t port a => Sys2Proof.Machine.execPtpAnnounce t port a s
  | .ptpSync t port m => Sys2Proof.Machine.execPtpSync t port m s
  | .ptpFollowUp t port m => Sys2Proof.Machine.execPtpFollowUp t port m s
  | .ptpDelayResp t port m => Sys2Proof.Machine.execPtpDelayResp t port m s
  | .ptpDelayReqTimer t => Sys2Proof.Machine.execPtpDelayReqTimer t s
  | .announceTimeout t => Sys2Proof.Machine.execAnnounceTimeout t s
  | .timeMessageTimer t => Sys2Proof.Machine.execTimeMessageTimer t s
  | .timeMessage t msg => Sys2Proof.Machine.execTimeMessage t msg s
  | .deviceTimeReportTimer t => Sys2Proof.Machine.execDeviceTimeReportTimer t s
  | .deviceTimeReport t msg => Sys2Proof.Machine.execDeviceTimeReport t msg s
  | .plantTimeTimeout t => Sys2Proof.Machine.execPlantTimeTimeout t s
  | .receiveSof t seg ch port ident => Sys2Proof.Machine.execReceiveSof t seg ch port ident s
  | .receiveFrameBlock t seg ch port block corrupted => Sys2Proof.Machine.execReceiveFrameBlock t seg ch port block corrupted s
  | .windowWaitExpiry t seg pos => Sys2Proof.Machine.execWindowWaitExpiry t seg pos s
  | .receiveEof t seg ch crc blocks => Sys2Proof.Machine.execReceiveEof t seg ch crc blocks s
  | .sofReturnTimeout t seg ch => Sys2Proof.Machine.execSofReturnTimeout t seg ch s
  | .segmentStart t seg => Sys2Proof.Machine.execSegmentStart t seg s
  | .blockLockTimeout t seg => Sys2Proof.Machine.execBlockLockTimeout t seg s
  | .claimRound t seg => Sys2Proof.Machine.execClaimRound t seg s
  | .receiveClaim t seg ch port ident round => Sys2Proof.Machine.execReceiveClaim t seg ch port ident round s
  | .claimWon t seg => Sys2Proof.Machine.execClaimWon t seg s
  | .receiveLinkNumber t seg ch port value => Sys2Proof.Machine.execReceiveLinkNumber t seg ch port value s
  | .receiveLinkVerify t seg ch port value => Sys2Proof.Machine.execReceiveLinkVerify t seg ch port value s
  | .linkReturnTimeout t seg => Sys2Proof.Machine.execLinkReturnTimeout t seg s
  | .receiveDelayResponse t seg ch pos isResponse trt turnaround => Sys2Proof.Machine.execReceiveDelayResponse t seg ch pos isResponse trt turnaround s
  | .delayTimeout t seg ch => Sys2Proof.Machine.execDelayTimeout t seg ch s
  | .cyclicWaitExpiry t seg => Sys2Proof.Machine.execCyclicWaitExpiry t seg s
  | .receivePortReport t seg ch pos lockBits corrupted looped => Sys2Proof.Machine.execReceivePortReport t seg ch pos lockBits corrupted looped s
  | .writeRestart t req seg => Sys2Proof.Machine.execWriteRestart t req seg s
  | .autoRestartTimer t seg => Sys2Proof.Machine.execAutoRestartTimer t seg s
  | .stageComplete t blade axis upset => Sys2Proof.Machine.execStageComplete t blade axis upset s
  | .lawComplete t blade axis copyBad => Sys2Proof.Machine.execLawComplete t blade axis copyBad s
  | .outputRecopy t blade law good => Sys2Proof.Machine.execOutputRecopy t blade law good s
  | .outputCutoff t => Sys2Proof.Machine.execOutputCutoff t s
  | .writeFaultAck t req axis => Sys2Proof.Machine.execWriteFaultAck t req axis s
  | .writeForceRegion t req axis value => Sys2Proof.Machine.execWriteForceRegion t req axis value s
  | .governorEvalInterval t => Sys2Proof.Machine.execGovernorEvalInterval t s
  | .governorSettle t => Sys2Proof.Machine.execGovernorSettle t s
  | .pmbusTransactionComplete t ack pecOk data => Sys2Proof.Machine.execPmbusTransactionComplete t ack pecOk data s
  | .bladeHeartbeatLoss t blade => Sys2Proof.Machine.execBladeHeartbeatLoss t blade s
  | .bladeLastingFault t blade cause => Sys2Proof.Machine.execBladeLastingFault t blade cause s
  | .revocationAck t blade => Sys2Proof.Machine.execRevocationAck t blade s
  | .revocationAckTimeout t blade => Sys2Proof.Machine.execRevocationAckTimeout t blade s
  | .takeoverComplete t => Sys2Proof.Machine.execTakeoverComplete t s
  | .bladeSelfTestComplete t blade bits => Sys2Proof.Machine.execBladeSelfTestComplete t blade bits s
  | .judgeHeartbeatLoss t => Sys2Proof.Machine.execJudgeHeartbeatLoss t s
  | .writeSwapRequest t req => Sys2Proof.Machine.execWriteSwapRequest t req s
  | .lineLawComplete t blade unit copyBad => Sys2Proof.Machine.execLineLawComplete t blade unit copyBad s
  | .lineStart t req unit => Sys2Proof.Machine.execLineStart t req unit s
  | .lineStop t req unit => Sys2Proof.Machine.execLineStop t req unit s
  | .lineResetTrip t req unit => Sys2Proof.Machine.execLineResetTrip t req unit s
  | .deadBusTimer t unit => Sys2Proof.Machine.execDeadBusTimer t unit s
  | .syncCloseTimer t unit => Sys2Proof.Machine.execSyncCloseTimer t unit s
  | .breakerTimeout t unit => Sys2Proof.Machine.execBreakerTimeout t unit s
  | .rideRecoverTimer t unit => Sys2Proof.Machine.execRideRecoverTimer t unit s
  | .maxRideTimeExpiry t unit => Sys2Proof.Machine.execMaxRideTimeExpiry t unit s
  | .sigmaDeltaStuck t input => Sys2Proof.Machine.execSigmaDeltaStuck t input s
  | .sigmaDeltaRecovery t input => Sys2Proof.Machine.execSigmaDeltaRecovery t input s
  | .glideResume t req group => Sys2Proof.Machine.execGlideResume t req group s
  | .glideRelease t req group => Sys2Proof.Machine.execGlideRelease t req group s
  | .glideExhaustTimer t unit => Sys2Proof.Machine.execGlideExhaustTimer t unit s
  | .moveAppend t req axis => Sys2Proof.Machine.execMoveAppend t req axis s
  | .runVelocity t req axis => Sys2Proof.Machine.execRunVelocity t req axis s
  | .engageGear t req axis => Sys2Proof.Machine.execEngageGear t req axis s
  | .engageCam t req axis => Sys2Proof.Machine.execEngageCam t req axis s
  | .home t req axis => Sys2Proof.Machine.execHome t req axis s
  | .stopRamp t req axis => Sys2Proof.Machine.execStopRamp t req axis s
  | .flush t req axis => Sys2Proof.Machine.execFlush t req axis s
  | .hardStopTimer t axis => Sys2Proof.Machine.execHardStopTimer t axis s
  | .homingTimeout t axis => Sys2Proof.Machine.execHomingTimeout t axis s
  | .feedbackTransition t channel levels => Sys2Proof.Machine.execFeedbackTransition t channel levels s
  | .minedgeExpiry t channel line => Sys2Proof.Machine.execMinedgeExpiry t channel line s
  | .writeArm t req channel => Sys2Proof.Machine.execWriteArm t req channel s
  | .checkpointTimer t => Sys2Proof.Machine.execCheckpointTimer t s
  | .lifeIntervalTimer t => Sys2Proof.Machine.execLifeIntervalTimer t s
  | .proofRecordSecondEnd t key => Sys2Proof.Machine.execProofRecordSecondEnd t key s
  | .lineWriteComplete t ok => Sys2Proof.Machine.execLineWriteComplete t ok s
  | .pfailNFall t => Sys2Proof.Machine.execPfailNFall t s
  | .pfailNRise t => Sys2Proof.Machine.execPfailNRise t s
  | .vnvMonitorTrip t => Sys2Proof.Machine.execVnvMonitorTrip t s
  | .vnvWriteLimit t => Sys2Proof.Machine.execVnvWriteLimit t s
  | .recoveryComplete t badLines => Sys2Proof.Machine.execRecoveryComplete t badLines s
  | .setStore t req => Sys2Proof.Machine.execSetStore t req s
  | .setRestorePrevious t req => Sys2Proof.Machine.execSetRestorePrevious t req s
  | .setRestoreFactory t req => Sys2Proof.Machine.execSetRestoreFactory t req s
  | .setWriteComplete t ok => Sys2Proof.Machine.execSetWriteComplete t ok s
  | .writeFormat t req value => Sys2Proof.Machine.execWriteFormat t req value s
  | .writeReadFrom t req value => Sys2Proof.Machine.execWriteReadFrom t req value s
  | .accountingHour t => Sys2Proof.Machine.execAccountingHour t s
  | .scrubLine t line marginClean nominal again => Sys2Proof.Machine.execScrubLine t line marginClean nominal again s
  | .safetyInputSample t levels readback upset => Sys2Proof.Machine.execSafetyInputSample t levels readback upset s
  | .stopTimeExpiry t axis => Sys2Proof.Machine.execStopTimeExpiry t axis s
  | .safetyReset t req axis => Sys2Proof.Machine.execSafetyReset t req axis s
  | .testPulse t source levels => Sys2Proof.Machine.execTestPulse t source levels s
  | .testPulseRepeat t source input level => Sys2Proof.Machine.execTestPulseRepeat t source input level s
  | .outputTestPulse t output => Sys2Proof.Machine.execOutputTestPulse t output s
  | .outputReadbackCheck t output on => Sys2Proof.Machine.execOutputReadbackCheck t output on s
  | .outputTestRepeat t output good => Sys2Proof.Machine.execOutputTestRepeat t output good s
  | .outputFaultClear t output => Sys2Proof.Machine.execOutputFaultClear t output s
  | .sealRead t sealUp sealDown => Sys2Proof.Machine.execSealRead t sealUp sealDown s
  | .canInit t port value => Sys2Proof.Machine.execCanInit t port value s
  | .canTxqPush t port tag => Sys2Proof.Machine.execCanTxqPush t port tag s
  | .canTxqCancel t port tag => Sys2Proof.Machine.execCanTxqCancel t port tag s
  | .canTxqFlush t port => Sys2Proof.Machine.execCanTxqFlush t port s
  | .canTxqResultRead t port => Sys2Proof.Machine.execCanTxqResultRead t port s
  | .canSlotDue t port slot => Sys2Proof.Machine.execCanSlotDue t port slot s
  | .canSlotWindowExpiry t port slot => Sys2Proof.Machine.execCanSlotWindowExpiry t port slot s
  | .canArbitration t port => Sys2Proof.Machine.execCanArbitration t port s
  | .canFrameSent t port tdcv => Sys2Proof.Machine.execCanFrameSent t port tdcv s
  | .canTxError t port kind => Sys2Proof.Machine.execCanTxError t port kind s
  | .canFrameReceived t port sof frame => Sys2Proof.Machine.execCanFrameReceived t port sof frame s
  | .canProtocolException t port => Sys2Proof.Machine.execCanProtocolException t port s
  | .busOffRecovery t port => Sys2Proof.Machine.execBusOffRecovery t port s
  | .liftEnqueue t core queue => Sys2Proof.Machine.execLiftEnqueue t core queue s
  | .liftGet t core => Sys2Proof.Machine.execLiftGet t core s
  | .liftDone t core => Sys2Proof.Machine.execLiftDone t core s
  | .liftSleep t core => Sys2Proof.Machine.execLiftSleep t core s
  | .liftQueueConfig t queue value => Sys2Proof.Machine.execLiftQueueConfig t queue value s
  | .watchdogKick t core value => Sys2Proof.Machine.execWatchdogKick t core value s
  | .coreWatchdog t core => Sys2Proof.Machine.execCoreWatchdog t core s
  | .flowOverrun t core => Sys2Proof.Machine.execFlowOverrun t core s
  | .mailboxSend t core m len => Sys2Proof.Machine.execMailboxSend t core m len s
  | .mailboxTake t core m count => Sys2Proof.Machine.execMailboxTake t core m count s
  | .barrierMailboxSend t b len => Sys2Proof.Machine.execBarrierMailboxSend t b len s
  | .barrierMailboxTake t b count => Sys2Proof.Machine.execBarrierMailboxTake t b count s
  | .eventReportSend t => Sys2Proof.Machine.execEventReportSend t s
  | .eventReportReceived t msg => Sys2Proof.Machine.execEventReportReceived t msg s
  | .busErrorAccess t core addr width write user => Sys2Proof.Machine.execBusErrorAccess t core addr width write user s
  | .registerWrite t site core addr value user => Sys2Proof.Machine.execRegisterWrite t site core addr value user s
  | .captureArm t unit => Sys2Proof.Machine.execCaptureArm t unit s
  | .captureForce t unit => Sys2Proof.Machine.execCaptureForce t unit s
  | .captureAbort t unit => Sys2Proof.Machine.execCaptureAbort t unit s
  | .captureRelease t unit => Sys2Proof.Machine.execCaptureRelease t unit s
  | .captureSample t unit sd => Sys2Proof.Machine.execCaptureSample t unit sd s
  | .captureHoldoffExpiry t unit => Sys2Proof.Machine.execCaptureHoldoffExpiry t unit s
  | .clockCheckWindow t pll ppm => Sys2Proof.Machine.execClockCheckWindow t pll ppm s
  | .pllRelock t pll => Sys2Proof.Machine.execPllRelock t pll s
  | .supplyMonitorReset t die rails => Sys2Proof.Machine.execSupplyMonitorReset t die rails s
  | .supplyResetRelease t die => Sys2Proof.Machine.execSupplyResetRelease t die s
  | .blockLockAcquired t seg ch => Sys2Proof.Machine.execBlockLockAcquired t seg ch s
  | .portQueryTimeout t seg ch => Sys2Proof.Machine.execPortQueryTimeout t seg ch s
  | .pllLock t die => Sys2Proof.Machine.execPllLock t die s
  | .canReceiveError t port => Sys2Proof.Machine.execCanReceiveError t port s
  | .fieldEventReport t msg => Sys2Proof.Machine.execFieldEventReport t msg s
  | .thermalSample t die temp => Sys2Proof.Machine.execThermalSample t die temp s

end Sys2Proof.Machine
end

