-- ==== Sys2Proof/Safety.lean ====
section
/-! DEFINITION. The terms in which claims are stated: how a command is answered, what an event leaves, which part of the
chip stays as it was, and what counts as a safe state. -/

namespace Sys2Proof.Machine

/-! ### Answers of commands -/

/-- `s` answers command `i` with a next state that meets `P`; the waiting commands are left as they are. -/
def Runs (i : Instr) (s : State) (P : State → Prop) : Prop :=
  ∃ t : State, exec i s = .next t ∧ t.pending = s.pending ∧ P t

/-- `s` answers command `i` with a next state whose registers meet `P`; the waiting commands are left as they are, and every
byte of host-visible SRAM and of the Saffron array reads as before. -/
def RunsKeep (i : Instr) (s : State) (P : Dev → Prop) : Prop :=
  Runs i s fun t => (∀ a, memRead t.sram a = memRead s.sram a) ∧ (∀ a, memRead t.nv a = memRead s.nv a) ∧ P t.dev

/-! ### Events -/

/-- From `d` to `e` the field die raised event `n` with parameters `ps`: its entry stands behind those queued before. -/
def Raised (d e : Dev) (n : Nat) (ps : Bytes) : Prop :=
  ∃ x ∈ e.ring.queue.drop d.ring.queue.length, x.num = n ∧ x.data = fit ps 10

/-- From `d` to `e` the field die raised no event. -/
def Quiet (d e : Dev) : Prop := e.ring.queue = d.ring.queue

/-- Objects that the delivery of an event may change: those of the cores, the Lift and the capture units (R482 to R488,
R505). -/
def eventObject (o : Nat) : Bool := o == 0x8020 || o == 0x8030 || o == 0x8040 || (0x6000 ≤ o && o ≤ 0x6003)

/-! ### What stays as it was -/

/-- The elements of the field die outside `xs`, and outside the objects that deliver events, hold what they held. -/
def SameRegs (xs : List (Nat × Nat)) (d e : Dev) : Prop :=
  ∀ o el i, el < 256 → i < 65536 → (o, el) ∉ xs → eventObject o = false → e.rd o el i = d.rd o el i

/-- The elements of the host die outside `xs` hold what they held. -/
def SameHostRegs (xs : List (Nat × Nat)) (d e : Dev) : Prop :=
  ∀ o el i, el < 256 → i < 65536 → (o, el) ∉ xs → e.hrd o el i = d.hrd o el i

/-- The motion side is as it was: segments, gates and links, both blades and the Judge's queues, the Governor, the line
engine, the profiles, the safety monitor and the feedback channels. -/
def SameMotion (d e : Dev) : Prop :=
  e.segs = d.segs ∧ e.eng = d.eng ∧ e.gov = d.gov ∧ e.line = d.line ∧ e.prof = d.prof ∧ e.safe = d.safe ∧ e.fb = d.fb

/-- Every segment but segment `x` is as it was. -/
def SameSegs (x : Nat) (d e : Dev) : Prop := ∀ k ∈ List.range 4, k ≠ x → e.sg k = d.sg k

/-- The motion side without the segments is as it was. -/
def SameUnits (d e : Dev) : Prop :=
  e.eng = d.eng ∧ e.gov = d.gov ∧ e.line = d.line ∧ e.prof = d.prof ∧ e.safe = d.safe ∧ e.fb = d.fb

/-- The Saffron store's engine and the clock monitors are as they were. -/
def SameStore (d e : Dev) : Prop := e.st = d.st ∧ e.clk = d.clk

/-- The CAN ports are as they were. -/
def SameCan (d e : Dev) : Prop := e.hcan = d.hcan ∧ e.fcan = d.fcan

/-- Every numeric element of the field die reads its Default. -/
def FieldDefaults (d : Dev) : Prop := ∀ o el i, d.rd o el i = dfltNum o el

/-- Every numeric element of the host die reads its Default. -/
def HostDefaults (d : Dev) : Prop := ∀ o el i, d.hrd o el i = dfltNum o el

/-! ### Requests -/

/-- The field die takes a write of `v` to element `el` of object `o`, instance `i`, by `req` up to step 11 of R92: firmware
runs, the mode serves the object, the element exists and may be written in this mode, no other source holds it, and the
bytes are a value of its type. -/
def Dev.Admits (d : Dev) (req : Req) (o el i : Nat) (v : Bytes) : Bool :=
  !d.md.fieldReset && d.md.fieldFw && (decide (o < 0x1000) || decide (2 ≤ d.mode)) && decide (req.tag < 65536) &&
    decide (i < 65536) && objKnown o && instOf o i == some i && decide (el ≤ objCount o) &&
    (((desc? o el).map Desc.acc) == some .rw || (((desc? o el).map Desc.acc) == some .rwp && d.mode == 2)) &&
    !tyBytes (tyOf o el) && v.length == tySize (tyOf o el) && !d.heldByOther req.src o el i && valueOk (tyOf o el) v &&
    (match req.src with
     | .port _ _ _ => true
     | .hcan _ => true
     | .fcan base => decide (0x1000 ≤ o) && d.rn 0x1000 3 0 != 0xFFFF && base == d.rn 0x1000 3 0 &&
         !d.ob.fcanOpen.any (fun q => q.src == req.src))

/-- The bytes of a request without a value (R86): operation, Tag, object, element, instance; Type 00h. -/
def askMsg (op tag o el i : Nat) : Bytes :=
  leBytes op 1 ++ [0] ++ leBytes tag 2 ++ leBytes o 2 ++ leBytes el 1 ++ [0] ++ leBytes i 2 ++ zeros 6

/-- No request waits at the field die and no response waits for a mailbox; mailbox 4 is free. -/
def Dev.mailIdle (d : Dev) : Bool :=
  d.ob.order.isEmpty && d.ob.resp4.isEmpty && d.ob.resp5.isEmpty && d.ob.resp6.isEmpty && d.ob.resp7.isEmpty &&
    !d.sendBusy .field 4

/-- The bytes in which the field die's response `r` to a host port travels in mailbox 4 (R106). -/
def mail4 (n ip udp : Nat) (r : Bytes) : Bytes := leBytes ip 4 ++ leBytes udp 2 ++ leBytes (n + 1) 1 ++ [0] ++ r

/-- The last message that `die` put before its sender. -/
def Dev.lastSent (d : Dev) (die : Die) : Option (Nat × List Bytes) :=
  (d.bd die).queue.getLast?.map fun m => (m.mbx, m.all)

/-- What taking a request changes before it is executed: the mailbox it came in, its place in the order of its source. -/
def Taken (d e : Dev) : Prop :=
  ∃ recv ctl order opened, e = { d with
    bar.field := { d.bar.field with recv := recv, ctl := ctl }
    ob := { d.ob with order := order, fcanOpen := opened } }

/-- From `d` to `e` a write of `v` to element `el` of object `o`, instance `i`, waits for the next cycle boundary (R97,
R98): the last of the writes due there. -/
def DueAtBoundary (d e : Dev) (req : Req) (o el i : Nat) (v : Val) : Prop :=
  ∃ w : DueWrite, e.ob.due = d.ob.due ++ [w] ∧ w.o = o ∧ w.e = el ∧ w.i = i ∧ w.v = v ∧ w.req = req

/-! ### The Saffron array -/

/-- From `s` to `e` exactly line `n` of the array is written, with `bs`: the other bytes, and host-visible SRAM, read as
before. A retired line is written at its spare (R400). -/
def LineWritten (s e : State) (n : Nat) (bs : Bytes) : Prop :=
  (∀ a, (a < 64 * s.dev.st.phys n ∨ 64 * s.dev.st.phys n + 64 ≤ a) → memRead e.nv a = memRead s.nv a) ∧
    memSlice e.nv (64 * s.dev.st.phys n) 64 = bs ∧ ∀ a, memRead e.sram a = memRead s.sram a

/-- From `s` to `e` exactly the bytes `bs` are stored in host-visible SRAM from address `a` on; its other bytes, and the
array, read as before. -/
def RamWritten (s e : State) (a : Nat) (bs : Bytes) : Prop :=
  (∀ k, (k < a ∨ a + bs.length ≤ k) → memRead e.sram k = memRead s.sram k) ∧ memSlice e.sram a bs.length = bs ∧
    ∀ k, memRead e.nv k = memRead s.nv k

/-! ### Commands that store -/

end Sys2Proof.Machine

/-- The commands that may store in host-visible SRAM: a register write of a core (R481), a sample of a capture unit. -/
def Sys2Proof.Instr.storesRam (c : Sys2Proof.Instr) : Bool :=
  match c with
  | .registerWrite _ _ _ _ _ _ => true
  | .captureSample _ _ _ => true
  | _ => false

/-- The commands that may write lines of the array: object requests and their fragments, the format (R414), the end of
recovery (R413) and of a line or set write (R396), and what resets the field die or starts or ends a last breath
(R410, R411). -/
def Sys2Proof.Instr.storesArray (c : Sys2Proof.Instr) : Bool :=
  match c with
  | .objectRead _ _ _ _ => true
  | .objectWrite _ _ _ _ => true
  | .objectDescribe _ _ _ _ => true
  | .objectNext _ _ _ _ => true
  | .canObjectFragment _ _ _ _ => true
  | .writeFormat _ _ _ => true
  | .frstNLow _ _ => true
  | .lineWriteComplete _ _ => true
  | .setWriteComplete _ _ => true
  | .recoveryComplete _ _ => true
  | .pfailNFall _ => true
  | .vnvMonitorTrip _ => true
  | .vnvWriteLimit _ => true
  | _ => false

namespace Sys2Proof.Machine

/-! ### Safe states -/

/-- Both byte memories have their canonical form, so that equal memories are equal data. -/
def State.MemoryCanonical (s : State) : Prop := s.sram.wf = true ∧ s.nv.wf = true

/-- A safe state: no safety output is driven on while the field die is in reset (R52), and the memories are canonical. -/
def State.Safe (s : State) : Prop :=
  s.MemoryCanonical ∧ (s.dev.md.fieldReset = true → s.dev.safe.outs = [])

end Sys2Proof.Machine
end

