-- ==== Sys2Proof/Certificates/Slice0/Obligations.lean ====
section
/-! DEFINITION. The statements about the model. A statement that names several commands says of each that the state answers
it with a next state, what that state holds, and what it leaves as it was. `s` is the state before, `t` the instant of the
command. -/

open Sys2Proof Sys2Proof.Machine

/-- A low level of at least 2 us on FRST_N puts the field die into reset: every element reads its Default, segments, engine, line engine, profiles and safety outputs are cleared, the barrier trains again, the host die keeps its CAN port. A low level on HRST_N does the same to the host die: its elements read their Defaults, no session and no request is left, and the motion side of the field die is as it was. A release with locked PLLs starts the die; without lock the die waits. (R51, R52, R55, R59, R516) -/
def Obligations.ResetOfADieLeavesItsDefaults : Prop :=
  (∀ (s : State) (t width : Nat),
    2 * us ≤ width →
    s.dev.md.fieldReset = false →
    s.dev.st.breath = none →
    RunsKeep (.frstNLow t width) s fun e =>
      e.md.fieldReset = true ∧ e.md.fieldFw = false ∧ e.md.hostReset = s.dev.md.hostReset ∧
      FieldDefaults e ∧ e.segs = [] ∧ e.eng = {} ∧ e.line = {} ∧ e.prof = {} ∧ e.safe = {} ∧
      e.bar.link = 0 ∧ e.bar.training = true ∧ e.hcan = s.dev.hcan) ∧
  (∀ (s : State) (t ssc plls up down : Nat),
    s.dev.md.fieldReset = true →
    plls % 8 = 7 →
    RunsKeep (.frstNRelease t ssc plls up down) s fun e =>
      e.md.fieldReset = false ∧ e.ld.rollback = rollbackOf s.nv ∧ e.clk.straps = (ssc, up, down) ∧
      e.rd 0x20 7 0 = (rollbackOf s.nv : Int) ∧ SameCan s.dev e) ∧
  (∀ (s : State) (t ssc plls up down : Nat),
    s.dev.md.fieldReset = true →
    plls % 8 ≠ 7 →
    RunsKeep (.frstNRelease t ssc plls up down) s fun e =>
      e.md = s.dev.md ∧ e.clk.fieldWait = some (ssc, up, down) ∧ SameRegs [] s.dev e ∧ SameHostRegs [] s.dev e ∧ SameMotion s.dev e) ∧
  (∀ (s : State) (t width : Nat),
    2 * us ≤ width →
    s.dev.md.hostReset = false →
    RunsKeep (.hrstNLow t width) s fun e =>
      e.md.hostReset = true ∧ e.md.hostFw = false ∧ e.ld.session = none ∧ e.ob.outstanding = [] ∧
      HostDefaults e ∧ e.bar.link = 0 ∧ e.bar.training = true ∧
      e.md.fieldReset = s.dev.md.fieldReset ∧ SameMotion s.dev e) ∧
  (∀ (s : State) (t width : Nat),
    width < us →
    RunsKeep (.frstNLow t width) s fun e => e = s.dev.advance t) ∧
  (∀ (s : State) (t width : Nat),
    width < us →
    RunsKeep (.hrstNLow t width) s fun e => e = s.dev.advance t) ∧
  (∀ (s : State) (t : Nat),
    s.dev.md.hostReset = true →
    RunsKeep (.hrstNRelease t true) s fun e =>
      e.md = { s.dev.md with hostReset := false } ∧ SameRegs [] s.dev e ∧ SameHostRegs [] s.dev e ∧ SameMotion s.dev e) ∧
  (∀ (s : State) (t : Nat),
    s.dev.md.hostReset = true →
    RunsKeep (.hrstNRelease t false) s fun e =>
      e.md = s.dev.md ∧ e.clk.hostWait = true ∧ SameRegs [] s.dev e ∧ SameHostRegs [] s.dev e ∧ SameMotion s.dev e)

/-- When the self-tests at power-up end with a passing Judge, the Judge is running and the active blade is A where A passed, otherwise B where B passed, otherwise none; each blade that failed raises event 82h. A Judge that failed leaves arbitration lost with event 85h. (R288, R289, R290) -/
def Obligations.PowerUpSelfTestsChooseTheActiveBlade : Prop :=
  (∀ (s : State) (t bitsA bitsB : Nat),
    s.dev.md.fieldReset = false →
    s.dev.rn 0x9020 2 0 = 0 →
    RunsKeep (.powerUpSelfTestComplete t true bitsA bitsB) s fun e =>
      e.rn 0x9020 2 0 = 1 ∧ (bitsA = 0 → e.rn 0x9020 1 0 = 0 ∧ e.rn 0x9030 1 0 = 4) ∧
      (bitsA ≠ 0 → bitsB = 0 → e.rn 0x9020 1 0 = 1 ∧ e.rn 0x9031 1 0 = 4) ∧
      (bitsA ≠ 0 → bitsB ≠ 0 → e.rn 0x9020 1 0 = 0xFF) ∧
      (bitsA ≠ 0 → Raised s.dev e 0x82 (leBytes 0 1)) ∧ (bitsB ≠ 0 → Raised s.dev e 0x82 (leBytes 1 1))) ∧
  (∀ (s : State) (t bitsA bitsB : Nat),
    s.dev.md.fieldReset = false →
    s.dev.rn 0x9020 2 0 = 0 →
    RunsKeep (.powerUpSelfTestComplete t false bitsA bitsB) s fun e => e.rn 0x9020 2 0 = 2 ∧ Raised s.dev e 0x85 [])

/-- A training that completes brings the barrier up: sequence numbers restart at 0 in both directions, 8110h:1 reads 1, FieldState reads 00h and event 20h is raised. A training that fails is counted and repeated; the third failure in a row marks the barrier down with event 22h; while it is down a new training begins when its timer ends and is counted in 8110h:2. (R15, R24, R52) -/
def Obligations.BarrierTrainingBringsTheLinkUpOrDown : Prop :=
  (∀ (s : State) (t : Nat),
    s.dev.bar.training = true →
    s.dev.md.hostReset = false →
    s.dev.md.fieldReset = false →
    RunsKeep (.trainingComplete t) s fun e =>
      e.bar.link = 1 ∧ e.bar.training = false ∧ e.bar.fails = 0 ∧ e.bar.host.next = 0 ∧ e.bar.field.next = 0 ∧
      e.bar.host.expected = 0 ∧ e.bar.field.expected = 0 ∧ e.rn 0x8110 1 0 = 1 ∧ e.hrd 0x30 10 0 = 0 ∧
      Raised s.dev e 0x20 [0] ∧ SameMotion s.dev e ∧ SameRegs [(0x8110, 1)] s.dev e) ∧
  (∀ (s : State) (t : Nat),
    s.dev.bar.training = true →
    s.dev.bar.link ≠ 2 →
    s.dev.bar.fails + 1 < 3 →
    RunsKeep (.trainingTimeout t) s fun e =>
      e.bar = { s.dev.bar with fails := s.dev.bar.fails + 1 } ∧
      (s.dev.md.fieldReset = false → e.rd 0x8110 2 0 = ((sat32 (s.dev.rn 0x8110 2 0 + 1) : Nat) : Int)) ∧
      SameRegs [(0x8110, 2)] s.dev e ∧ SameHostRegs [] s.dev e ∧ SameMotion s.dev e) ∧
  (∀ (s : State) (t : Nat),
    s.dev.bar.training = true →
    s.dev.bar.link ≠ 2 →
    s.dev.bar.fails = 2 →
    s.dev.md.fieldReset = false →
    RunsKeep (.trainingTimeout t) s fun e =>
      e.bar.link = 2 ∧ e.bar.training = false ∧ e.bar.fails = 0 ∧ e.rn 0x8110 1 0 = 2 ∧ Raised s.dev e 0x22 [] ∧
      SameRegs [(0x8110, 1)] s.dev e ∧ SameHostRegs [(0x30, 10)] s.dev e ∧ SameMotion s.dev e) ∧
  (∀ (s : State) (t : Nat),
    s.dev.bar.link = 2 →
    s.dev.bar.training = false →
    RunsKeep (.retrainTimer t) s fun e =>
      e.bar = { s.dev.bar with training := true } ∧
      (s.dev.md.fieldReset = false → e.rd 0x8110 2 0 = ((sat32 (s.dev.rn 0x8110 2 0 + 1) : Nat) : Int)) ∧
      SameRegs [(0x8110, 2)] s.dev e ∧ SameHostRegs [] s.dev e ∧ SameMotion s.dev e)

/-- When the barrier is up and no field Heartbeat arrives within 4 ms, elements 1 to 9 of 0030h read their Default at the host die. When the barrier has been down for 1 s, FieldState reads 02h. The hold time that the host die reports at Prepare stands in 0030h:9 and goes into event 25h. (R548, R52, R53) -/
def Obligations.HostDieJudgesAnAbsentFieldDie : Prop :=
  (∀ (s : State) (t : Nat),
    s.dev.bar.fieldDue = true →
    s.dev.bar.link = 1 →
    s.dev.bar.since + 4 * ms ≤ t →
    s.dev.bar.host.started = false →
    s.dev.md.hostReset = false →
    RunsKeep (.fieldHeartbeatWait t) s fun e =>
      (∀ k ∈ List.range 9, e.hrd 0x30 (k + 1) 0 = dfltNum 0x30 (k + 1)) ∧ e.md.fieldReported = false ∧
      SameHostRegs ((List.range 9).map fun k => (0x30, k + 1)) s.dev e ∧ SameRegs [] s.dev e ∧ SameMotion s.dev e) ∧
  (∀ (s : State) (t x : Nat),
    s.dev.bar.downAt = some x →
    x + sec ≤ t →
    s.dev.bar.link ≠ 1 →
    s.dev.md.hostReset = false →
    s.dev.md.fieldHeld = false →
    RunsKeep (.fieldHeldTimer t) s fun e =>
      e.md.fieldHeld = true ∧ e.hrd 0x30 10 0 = 2 ∧ SameHostRegs [(0x30, 10)] s.dev e ∧ SameRegs [] s.dev e ∧ SameMotion s.dev e) ∧
  (∀ (s : State) (t holdMs : Nat),
    s.dev.md.fieldReset = false →
    RunsKeep (.resetHoldReport t holdMs) s fun e =>
      e.rd 0x30 9 0 = ((holdMs % 2 ^ 32 : Nat) : Int) ∧ Raised s.dev e 0x25 (leBytes holdMs 4) ∧ SameRegs [(0x30, 9)] s.dev e ∧
      SameHostRegs [] s.dev e ∧ SameMotion s.dev e)

/-- With the barrier up and room in the window, a cell slot of a die with nothing to resend sends its pending Heartbeat; with no Heartbeat, the next cell of the oldest message; with no message, an Idle cell. The cell carries the next sequence number and acknowledges the last cell delivered; a cell that is not Idle is held until it is acknowledged. A held cell that was not acknowledged within 20 us becomes due for its one resend. (R16, R19, R28, R30) -/
def Obligations.BarrierSenderPicksItsNextCell : Prop :=
  (∀ (s : State) (t : Nat) (die : Die),
    s.dev.bar.link = 1 →
    s.dev.inReset die = false →
    (s.dev.bd die).ctl = [] →
    (s.dev.bd die).idleAgain = [] →
    (s.dev.bd die).held = [] →
    (s.dev.bd die).hb = none →
    (s.dev.bd die).queue = [] →
    RunsKeep (.cellSlot t die) s fun e =>
      e.out = s.dev.out ++ [.cell die (cellBytes 0 0 (s.dev.bd die).next (((s.dev.bd die).expected + 65535) % 65536) [])] ∧
      (e.bd die).next = ((s.dev.bd die).next + 1) % 65536 ∧ (e.bd die).held = [] ∧ SameRegs [] s.dev e ∧ SameHostRegs [] s.dev e ∧
      SameMotion s.dev e) ∧
  (∀ (s : State) (t : Nat) (die : Die) (p : Bytes),
    s.dev.bar.link = 1 →
    s.dev.inReset die = false →
    (s.dev.bd die).ctl = [] →
    (s.dev.bd die).idleAgain = [] →
    (s.dev.bd die).held = [] →
    (s.dev.bd die).hb = some p →
    RunsKeep (.cellSlot t die) s fun e =>
      e.out = s.dev.out ++ [.cell die (cellBytes 2 0 (s.dev.bd die).next (((s.dev.bd die).expected + 65535) % 65536) p)] ∧
      (e.bd die).hb = none ∧ (e.bd die).held.map HeldCell.seq = [(s.dev.bd die).next] ∧ SameRegs [] s.dev e ∧
      SameHostRegs [] s.dev e ∧ SameMotion s.dev e) ∧
  (∀ (s : State) (t : Nat) (die : Die) (m : TxMsg) (c : Bytes) (cs : List Bytes),
    s.dev.bar.link = 1 →
    s.dev.inReset die = false →
    (s.dev.bd die).ctl = [] →
    (s.dev.bd die).idleAgain = [] →
    (s.dev.bd die).held = [] →
    (s.dev.bd die).hb = none →
    nextMsg (s.dev.bd die).queue = some m →
    m.rest = c :: cs →
    RunsKeep (.cellSlot t die) s fun e =>
      e.out = s.dev.out ++ [.cell die (cellBytes 16 (m.mbx + (if m.sent = [] then 16 else 0) + (if cs = [] then 32 else 0))
        (s.dev.bd die).next (((s.dev.bd die).expected + 65535) % 65536) c)] ∧
      (e.bd die).held.map HeldCell.seq = [(s.dev.bd die).next] ∧ SameRegs [] s.dev e ∧ SameHostRegs [] s.dev e ∧ SameMotion s.dev e) ∧
  (∀ (s : State) (t seq : Nat) (die : Die) (c : HeldCell),
    c ∈ (s.dev.bd die).held →
    c.seq = seq →
    c.resent = false →
    c.sentAt + 20 * us ≤ t →
    RunsKeep (.cellAckTimeout t die seq) s fun e =>
      ({ c with due := true } : HeldCell) ∈ (e.bd die).held ∧ (e.bd die).held.length = (s.dev.bd die).held.length ∧
      SameRegs [] s.dev e ∧ SameHostRegs [] s.dev e ∧ SameMotion s.dev e)

/-- A cell whose CRC does not match is answered with a NAK for the sequence number expected, once, and changes no element. When the resent cell does not come within 20 us at the field die, the incident is lasting: 8100h:2 and 8100h:4 count it, event 21h is raised and the barrier trains again. A good Heartbeat cell in sequence with a new count starts the silence test of the die that takes it. (R20, R22, R26, R31, R46) -/
def Obligations.BarrierReceiverChecksCells : Prop :=
  (∀ (s : State) (t : Nat) (die : Die) (cell : Bytes),
    s.dev.now ≤ t →
    s.dev.bar.link = 1 →
    s.dev.inReset die = false →
    leAt cell 60 4 ≠ crc32 (cell.take 60) →
    (s.dev.bd die).nak = none →
    RunsKeep (.receiveCell t die true cell) s fun e =>
      (e.bd die).nak = some ((s.dev.bd die).expected, t) ∧ (e.bd die).ctl = (s.dev.bd die).ctl ++ [(1, (s.dev.bd die).expected)] ∧
      (e.bd die).expected = (s.dev.bd die).expected ∧ SameRegs [] s.dev e ∧ SameHostRegs [] s.dev e ∧ SameMotion s.dev e) ∧
  (∀ (s : State) (t : Nat) (cell : Bytes),
    s.dev.now ≤ t →
    s.dev.bar.link = 1 →
    s.dev.md.fieldReset = false →
    cell.length = 64 →
    leAt cell 60 4 = crc32 (cell.take 60) →
    leAt cell 2 2 = s.dev.bar.field.expected →
    s.dev.bar.field.reorder = [] →
    s.dev.bar.field.nak = none →
    byteAt cell 0 = 2 →
    byteAt cell 1 = 0 →
    allZero ((slice cell 6 54).drop 5) = true →
    s.dev.bar.field.hbLast ≠ some (leAt (slice cell 6 54) 0 4) →
    RunsKeep (.receiveCell t .field true cell) s fun e =>
      e.bar.field.started = true ∧ e.bar.field.silent = false ∧ e.bar.field.hbAt = t ∧
      e.bar.field.expected = (s.dev.bar.field.expected + 1) % 65536 ∧ SameRegs [(0x30, 8)] s.dev e ∧ SameMotion s.dev e) ∧
  (∀ (s : State) (t n x : Nat),
    s.dev.bar.link = 1 →
    s.dev.md.fieldReset = false →
    s.dev.bar.field.nak = some (n, x) →
    x + 20 * us ≤ t →
    s.dev.mode ≠ 1 →
    RunsKeep (.nakWaitTimeout t .field) s fun e =>
      e.bar.link = 0 ∧ e.bar.training = true ∧ e.bar.lasting = true ∧
      e.rd 0x8100 2 0 = ((sat32 (s.dev.rn 0x8100 2 0 + 1) : Nat) : Int) ∧
      e.rd 0x8100 4 0 = ((sat32 (s.dev.rn 0x8100 4 0 + 1) : Nat) : Int) ∧ Raised s.dev e 0x21 [] ∧ SameMotion s.dev e ∧
      SameRegs [(0x8100, 2), (0x8100, 4), (0x8100, 6), (0x8110, 1), (0x8110, 2)] s.dev e)

/-- The firmware of a die that is out of reset puts a Heartbeat with the next count and its mode byte before its sender. The field die that finds no good Heartbeat for 3 ms raises event 23h, reads 0030h:8 as 02h and no longer counts the host as accepted; in Dormant, Prepare and Safe-hold nothing else changes and no grace timer starts, in Run and Ride-through the grace timer of 0030h:7 starts. The host die takes the silence of the field die likewise and keeps its elements. (R26, R37, R46, R55, R56) -/
def Obligations.HeartbeatsTellEachDieOfItsPartner : Prop :=
  (∀ (s : State) (t : Nat) (die : Die),
    s.dev.inReset die = false →
    s.dev.bar.link = 1 →
    die = .field → s.dev.md.fieldFw = true →
    RunsKeep (.heartbeatSend t die) s fun e =>
      (e.bd die).hbCount = ((s.dev.bd die).hbCount + 1) % 2 ^ 32 ∧
      (e.bd die).hb = some (leBytes (((s.dev.bd die).hbCount + 1) % 2 ^ 32) 4 ++ leBytes (s.dev.modeByte die) 1) ∧
      SameRegs [] s.dev e ∧ SameHostRegs [] s.dev e ∧ SameMotion s.dev e) ∧
  (∀ (s : State) (t : Nat),
    s.dev.md.fieldReset = false →
    s.dev.bar.field.started = true →
    s.dev.bar.field.silent = false →
    s.dev.bar.field.hbAt + 3 * ms ≤ t →
    s.dev.mode = 0 ∨ s.dev.mode = 2 ∨ s.dev.mode = 5 →
    RunsKeep (.heartbeatSilenceCheck t .field) s fun e =>
      e.rd 0x30 8 0 = 2 ∧ e.md = { s.dev.md with hostAccepted := false } ∧ Raised s.dev e 0x23 [] ∧ SameRegs [(0x30, 8)] s.dev e ∧
      SameHostRegs [] s.dev e ∧ SameMotion s.dev e) ∧
  (∀ (s : State) (t : Nat),
    s.dev.now ≤ t →
    s.dev.md.fieldReset = false →
    s.dev.bar.field.started = true →
    s.dev.bar.field.silent = false →
    s.dev.bar.field.hbAt + 3 * ms ≤ t →
    s.dev.mode = 3 ∨ s.dev.mode = 4 →
    s.dev.rn 0x30 7 0 ≠ 0 →
    RunsKeep (.heartbeatSilenceCheck t .field) s fun e =>
      e.rd 0x30 8 0 = 2 ∧ e.md = { s.dev.md with hostAccepted := false, grace := some (t + s.dev.rn 0x30 7 0 * ms) } ∧
      Raised s.dev e 0x23 [] ∧ SameRegs [(0x30, 8)] s.dev e ∧ SameMotion s.dev e) ∧
  (∀ (s : State) (t : Nat),
    s.dev.md.hostReset = false →
    s.dev.bar.host.started = true →
    s.dev.bar.host.silent = false →
    s.dev.bar.host.hbAt + 3 * ms ≤ t →
    RunsKeep (.heartbeatSilenceCheck t .host) s fun e =>
      e.bar.host.silent = true ∧ SameRegs [] s.dev e ∧ SameHostRegs [] s.dev e ∧ SameMotion s.dev e ∧ e.md = s.dev.md)

/-- Every 100 ms the firmware of a die queues its status report in barrier mailbox 9. The field die takes elements 4 to 7 of 1000h from the host report; the host die takes elements 1 to 9 of 0030h from the field report and counts the field die as having reported. (R27, R34, R114, R548) -/
def Obligations.StatusReportsCarryTheElements : Prop :=
  (∀ (s : State) (t : Nat),
    s.dev.md.hostReset = false →
    s.dev.md.hostFw = true →
    RunsKeep (.statusReportTimer t .host) s fun e =>
      e.bar.host.queue.dropLast = s.dev.bar.host.queue ∧ e.bar.host.queue.getLast?.map TxMsg.mbx = some 9 ∧ SameRegs [] s.dev e ∧ SameHostRegs [] s.dev e ∧
      SameMotion s.dev e) ∧
  (∀ (s : State) (t : Nat),
    s.dev.md.fieldReset = false →
    s.dev.md.fieldFw = true →
    RunsKeep (.statusReportTimer t .field) s fun e =>
      e.bar.field.queue.dropLast = s.dev.bar.field.queue ∧ e.bar.field.queue.getLast?.map TxMsg.mbx = some 9 ∧ SameRegs [] s.dev e ∧ SameHostRegs [] s.dev e ∧
      SameMotion s.dev e) ∧
  (∀ (s : State) (t : Nat) (rep : StatusReport),
    s.dev.md.fieldReset = false →
    RunsKeep (.hostStatusReport t rep) s fun e =>
      (∀ w ∈ rep.vals.take 1, ∀ k ∈ List.range 4, w.1 = okey 0x1000 (k + 4) 0 → e.rd 0x1000 (k + 4) 0 = w.2) ∧
      (rep.clear = true → e.bar.clearWait = false) ∧ SameHostRegs [] s.dev e ∧ SameMotion s.dev e) ∧
  (∀ (s : State) (t : Nat) (rep : StatusReport),
    s.dev.md.hostReset = false →
    RunsKeep (.fieldStatusReport t rep) s fun e =>
      (∀ w ∈ rep.vals.take 1, ∀ k ∈ List.range 9, w.1 = okey 0x30 (k + 1) 0 → e.hrd 0x30 (k + 1) 0 = w.2) ∧
      e.md.fieldReported = true ∧ SameRegs [] s.dev e ∧ SameMotion s.dev e)

/-- An admitted write of TRUE to ClearCounts of 8100h to 8109h or of 2720h waits for the next cycle boundary and changes no element before; at the boundary the counts of that object read 0. The write to 8101h:7 makes the field die carry the clear of the host die's barrier counts with its next status report. (R33, R34, R98) -/
def Obligations.ClearingCountsTakesEffectAtTheBoundary : Prop :=
  (∀ (s : State) (t obj inst : Nat) (req : Req),
    obj = 0x2720 ∨ (0x8100 ≤ obj ∧ obj ≤ 0x8109) →
    s.dev.Admits req obj (if obj == 0x2720 then 8 else 7) inst [1] = true →
    RunsKeep (.clearCounts t req obj inst) s fun e =>
      DueAtBoundary s.dev e req obj (if obj == 0x2720 then 8 else 7) inst (.num 1) ∧
      (e.dueApply obj (if obj == 0x2720 then 8 else 7) inst (.num 1)).rd obj 1 inst = 0 ∧
      (e.dueApply obj (if obj == 0x2720 then 8 else 7) inst (.num 1)).rd obj 2 inst = 0 ∧
      (e.dueApply obj (if obj == 0x2720 then 8 else 7) inst (.num 1)).rd obj 5 inst = 0 ∧
      (e.dueApply obj (if obj == 0x2720 then 8 else 7) inst (.num 1)).rd obj 6 inst = 0 ∧
      SameRegs [] s.dev e ∧ SameHostRegs [] s.dev e ∧ SameMotion s.dev e) ∧
  (∀ (s : State) (t : Nat) (req : Req),
    s.dev.Admits req 0x8101 7 0 [1] = true →
    RunsKeep (.clearHostBarrierCounts t req) s fun e =>
      DueAtBoundary s.dev e req 0x8101 7 0 (.num 1) ∧ (e.dueApply 0x8101 7 0 (.num 1)).bar.clearDue = true ∧
      (e.dueApply 0x8101 7 0 (.num 1)).rd 0x8101 1 0 = 0 ∧
      (e.dueApply 0x8101 7 0 (.num 1)).rd 0x8101 2 0 = 0 ∧
      (e.dueApply 0x8101 7 0 (.num 1)).rd 0x8101 5 0 = 0 ∧
      (e.dueApply 0x8101 7 0 (.num 1)).rd 0x8101 6 0 = 0 ∧
      SameRegs [] s.dev e ∧ SameHostRegs [] s.dev e ∧ SameMotion s.dev e)

/-- An admitted write of ModeRequest that R40 does not refuse stands in 0030h:3 until the transition. A write of a value other than 02h or 03h changes no element. Request 02h in Run begins the controlled stop. When every enabled axis stands still the stop is complete, to take effect at the next boundary. (R40, R41) -/
def Obligations.ModeRequestsAndTheStop : Prop :=
  (∀ (s : State) (t : Nat) (req : Req),
    s.dev.Admits req 0x30 3 0 [3] = true →
    s.dev.modeJudge 3 = 0 →
    RunsKeep (.writeModeRequest t req 3) s fun e =>
      e.rd 0x30 3 0 = 3 ∧ e.md = s.dev.md ∧ SameRegs [(0x30, 3)] s.dev e ∧ SameHostRegs [] s.dev e ∧ SameMotion s.dev e) ∧
  (∀ (s : State) (t value : Nat) (req : Req),
    s.dev.Admits req 0x30 3 0 (leBytes value 1) = true →
    value < 256 →
    value ≠ 2 →
    value ≠ 3 →
    RunsKeep (.writeModeRequest t req value) s fun e =>
      e.md = s.dev.md ∧ SameRegs [] s.dev e ∧ SameHostRegs [] s.dev e ∧ SameMotion s.dev e) ∧
  (∀ (s : State) (t : Nat) (req : Req),
    s.dev.Admits req 0x30 3 0 [2] = true →
    s.dev.mode = 3 →
    s.dev.rn 0x30 3 0 = 0xFF →
    s.dev.md.stopping = false →
    RunsKeep (.writeModeRequest t req 2) s fun e =>
      e.rd 0x30 3 0 = 2 ∧ e.md.stopping = true ∧ e.md.stopDone = false ∧ e.segs = s.dev.segs ∧ e.eng = s.dev.eng ∧ e.line = s.dev.line ∧
      e.safe = s.dev.safe ∧ SameHostRegs [] s.dev e) ∧
  (∀ (s : State) (t : Nat),
    s.dev.md.fieldReset = false →
    s.dev.md.stopping = true →
    s.dev.mode = 3 →
    s.dev.enabledAxes.all s.dev.standstill = true →
    RunsKeep (.controlledStopComplete t) s fun e => e = { s.dev.advance t with md.stopDone := true })

/-- In Safe-hold an admitted write of SafeHoldAck that names the cycle of entry, with no torque on any axis and no cause that persists, is accepted: it reads back and event 04h is raised. Any other value is refused and changes nothing. When the grace timer ends, event 05h is raised; in Run, Safe-hold follows at the next boundary, in Ride-through it is deferred to the end of Ride-through. (R42, R56, R57, R40) -/
def Obligations.SafeHoldIsAcknowledgedAndHostLossEndsInIt : Prop :=
  (∀ (s : State) (t value : Nat) (req : Req),
    s.dev.Admits req 0x30 6 0 (leBytes value 4) = true →
    value < 2 ^ 32 →
    s.dev.mode = 5 →
    value = s.dev.rn 0x30 5 0 →
    s.dev.torqueAllOff = true →
    s.dev.causePersists = false →
    RunsKeep (.writeSafeHoldAck t req value) s fun e =>
      e.md = { s.dev.md with ackAccepted := true } ∧ e.rd 0x30 6 0 = (value : Int) ∧ Raised s.dev e 4 [] ∧ SameRegs [(0x30, 6)] s.dev e ∧
      SameHostRegs [] s.dev e ∧ SameMotion s.dev e) ∧
  (∀ (s : State) (t value : Nat) (req : Req),
    s.dev.Admits req 0x30 6 0 (leBytes value 4) = true →
    value < 2 ^ 32 →
    value ≠ s.dev.rn 0x30 5 0 →
    RunsKeep (.writeSafeHoldAck t req value) s fun e =>
      e.md = s.dev.md ∧ SameRegs [] s.dev e ∧ SameHostRegs [] s.dev e ∧ SameMotion s.dev e) ∧
  (∀ (s : State) (t x : Nat),
    s.dev.md.grace = some x →
    x ≤ t →
    s.dev.md.fieldReset = false →
    s.dev.mode = 3 →
    s.dev.md.cause = none →
    RunsKeep (.hostLossGraceExpiry t) s fun e =>
      e.md = { s.dev.md with grace := none, cause := some 5 } ∧ Raised s.dev e 5 [] ∧ SameRegs [] s.dev e ∧ SameHostRegs [] s.dev e ∧
      SameMotion s.dev e) ∧
  (∀ (s : State) (t x : Nat),
    s.dev.md.grace = some x →
    x ≤ t →
    s.dev.md.fieldReset = false →
    s.dev.mode = 4 →
    RunsKeep (.hostLossGraceExpiry t) s fun e =>
      e.md = { s.dev.md with grace := none, deferred := some (s.dev.md.deferred.getD 5) } ∧ Raised s.dev e 5 [] ∧ SameRegs [] s.dev e ∧
      SameHostRegs [] s.dev e ∧ SameMotion s.dev e)

/-- A Block 0 whose header fails its checks of form is answered 10h and leaves no session. A further table block of the session is taken: its bytes are kept, 0020h:1 counts it and the Result is 00h. End of a session whose blocks are all accepted is answered 00h, closes the session and sends load control End. Abort is answered 1Ah and closes the session. With no session, a block other than 0 is answered 05h. (R66, R67, R68, R69) -/
def Obligations.DownloadPacketsAreAnswered : Prop :=
  (∀ (s : State) (t : Nat) (src : Source) (packet : Bytes),
    s.dev.md.hostReset = false →
    s.dev.md.hostFw = false →
    s.dev.ld.session = none →
    s.dev.ld.running = false →
    leAt packet 4 4 = 0 →
    hdrFieldsOk (packetData packet) = false →
    RunsKeep (.downloadBlock t src packet) s fun e =>
      e.out = s.dev.out ++ [.result src (resultPacket 0x10 (leAt packet 2 2) 0)] ∧ e.ld.session = none ∧ e.hrd 0x20 3 0 = 0x10 ∧
      e.hrd 0x20 4 0 = 0 ∧ SameHostRegs [(0x20, 1), (0x20, 2), (0x20, 3), (0x20, 4)] s.dev e ∧ SameRegs [] s.dev e ∧ SameMotion s.dev e) ∧
  (∀ (s : State) (t : Nat) (src : Source) (packet : Bytes) (x : Session),
    s.dev.md.hostReset = false →
    s.dev.md.hostFw = false →
    s.dev.ld.session = some x →
    x.src = src →
    leAt packet 2 2 = x.num →
    x.next = leAt packet 4 4 →
    leAt packet 4 4 ≠ 0 →
    leAt packet 4 4 < hdrN s.dev.ld.header →
    leAt packet 4 4 < hdrT s.dev.ld.header →
    x.accepted = List.range (leAt packet 4 4) →
    x.held = [] →
    leAt packet 4 4 < 9000 →
    RunsKeep (.downloadBlock t src packet) s fun e =>
      e.out = s.dev.out ++ [.result src (resultPacket 0 x.num (leAt packet 4 4))] ∧
      Tab.find e.ld.blocks (leAt packet 4 4) = some (packetData packet) ∧ e.hrd 0x20 1 0 = ((leAt packet 4 4 + 1 : Nat) : Int) ∧
      SameHostRegs [(0x20, 1)] s.dev e ∧ SameRegs [] s.dev e ∧ SameMotion s.dev e) ∧
  (∀ (s : State) (t : Nat) (src : Source) (packet : Bytes),
    s.dev.md.hostReset = false →
    s.dev.md.hostFw = false →
    s.dev.ld.session = none →
    leAt packet 4 4 ≠ 0 →
    RunsKeep (.downloadBlock t src packet) s fun e =>
      e = { s.dev.advance t with out := s.dev.out ++ [.result src (resultPacket 5 (leAt packet 2 2) (leAt packet 4 4))] }) ∧
  (∀ (s : State) (t : Nat) (src : Source) (packet : Bytes) (x : Session),
    s.dev.md.hostReset = false →
    s.dev.md.hostFw = false →
    s.dev.ld.session = some x →
    x.src = src →
    leAt packet 2 2 = x.num →
    hdrN s.dev.ld.header ≤ x.accepted.length →
    x.tableOk = true →
    x.rejoin = false →
    x.beginOk = true →
    s.dev.ld.accepted.length = hdrF s.dev.ld.header →
    RunsKeep (.downloadEnd t src packet) s fun e =>
      e.out = s.dev.out ++ [.result src (resultPacket 0 x.num 0)] ∧ e.ld.session = none ∧ e.ld.running = true ∧ e.hrd 0x20 4 0 = 0 ∧
      e.bar.host.queue.dropLast = s.dev.bar.host.queue ∧ e.bar.host.queue.getLast?.map TxMsg.mbx = some 2 ∧
      SameHostRegs [(0x20, 2), (0x20, 4)] s.dev e ∧ SameRegs [] s.dev e ∧ SameMotion s.dev e) ∧
  (∀ (s : State) (t : Nat) (src : Source) (packet : Bytes) (x : Session),
    s.dev.md.hostReset = false →
    s.dev.md.hostFw = false →
    s.dev.ld.session = some x →
    x.src = src →
    leAt packet 2 2 = x.num →
    RunsKeep (.downloadAbort t src packet) s fun e =>
      e.out = s.dev.out ++ [.result src (resultPacket 0x1A x.num 0)] ∧ e.ld.session = none ∧ e.hrd 0x20 3 0 = 0x1A ∧ e.hrd 0x20 4 0 = 0 ∧
      SameHostRegs [(0x20, 2), (0x20, 3), (0x20, 4)] s.dev e ∧ SameRegs [] s.dev e ∧ SameMotion s.dev e) ∧
  (∀ (s : State) (t : Nat) (x : Session),
    s.dev.ld.session = some x →
    x.last + sec ≤ t →
    RunsKeep (.downloadSessionTimeout t) s fun e =>
      e.out = s.dev.out ++ [.result x.src (resultPacket 0x19 x.num 0)] ∧ e.ld.session = none ∧ e.hrd 0x20 3 0 = 0x19 ∧ e.hrd 0x20 4 0 = 0 ∧
      SameHostRegs [(0x20, 2), (0x20, 3), (0x20, 4)] s.dev e ∧ SameRegs [] s.dev e ∧ SameMotion s.dev e)

/-- The host die sends the next checked field block in mailbox 0 or 1, by the parity of its number, as attempt 1. The field die stores the block; when its digest matches, the answer is 00h; a first mismatch is answered 01h and noted, a second one is a lasting incident of 8109h, answered 02h, and returns the field die to Dormant. Answer 00h counts the block as accepted; answer 01h makes the host die send it again as attempt 2. (R71, R72, R73) -/
def Obligations.FirmwareBlocksCrossTheBarrier : Prop :=
  (∀ (s : State) (t : Nat) (x : Session),
    s.dev.ld.session = some x →
    x.beginOk = true →
    s.dev.md.hostReset = false →
    s.dev.ld.toForward = [] →
    s.dev.ld.fwdNext < hdrF s.dev.ld.header →
    hdrT s.dev.ld.header + hdrH s.dev.ld.header + 1 + s.dev.ld.fwdNext ∈ x.accepted →
    s.dev.sendBusy .host (s.dev.ld.fwdNext % 2) = false →
    RunsKeep (.forwardFieldBlock t) s fun e =>
      e.ld = { s.dev.ld with fwdNext := s.dev.ld.fwdNext + 1, crossing := s.dev.ld.crossing ++ [(s.dev.ld.fwdNext, 1)] } ∧
      e.bar.host.queue.dropLast = s.dev.bar.host.queue ∧ e.bar.host.queue.getLast?.map TxMsg.mbx = some (s.dev.ld.fwdNext % 2) ∧
      SameRegs [] s.dev e ∧ SameHostRegs [] s.dev e ∧ SameMotion s.dev e) ∧
  (∀ (s : State) (t mailbox : Nat) (msg readback : Bytes),
    s.dev.md.fieldReset = false →
    s.dev.mode = 1 →
    s.dev.rn 0x30 2 0 = 1 →
    sha256 (fit readback 1024) = slice msg 8 32 →
    leAt msg 0 4 ∉ s.dev.ld.fFailed →
    RunsKeep (.firmwareBlock t mailbox msg readback) s fun e =>
      Tab.find e.ld.fw (leAt msg 0 4) = some (fit readback 1024) ∧ e.ld.fDone = s.dev.ld.fDone ++ [leAt msg 0 4] ∧
      e.bar.field.queue.dropLast = s.dev.bar.field.queue ∧ e.bar.field.queue.getLast?.map TxMsg.mbx = some mailbox ∧
      SameRegs [] s.dev e ∧ SameHostRegs [] s.dev e ∧ SameMotion s.dev e) ∧
  (∀ (s : State) (t mailbox : Nat) (msg readback : Bytes),
    s.dev.md.fieldReset = false →
    s.dev.mode = 1 →
    s.dev.rn 0x30 2 0 = 1 →
    sha256 (fit readback 1024) ≠ slice msg 8 32 →
    leAt msg 0 4 ∉ s.dev.ld.fFailed →
    byteAt msg 4 = 1 →
    RunsKeep (.firmwareBlock t mailbox msg readback) s fun e =>
      e.ld.fFailed = s.dev.ld.fFailed ++ [leAt msg 0 4] ∧ e.ld.fDone = s.dev.ld.fDone ∧ e.bar.field.queue.getLast?.map TxMsg.mbx = some mailbox ∧
      SameRegs [] s.dev e ∧ SameHostRegs [] s.dev e ∧ SameMotion s.dev e) ∧
  (∀ (s : State) (t mailbox : Nat) (msg readback : Bytes),
    s.dev.md.fieldReset = false →
    s.dev.mode = 1 →
    s.dev.rn 0x30 2 0 = 1 →
    sha256 (fit readback 1024) ≠ slice msg 8 32 →
    leAt msg 0 4 ∈ s.dev.ld.fFailed →
    RunsKeep (.firmwareBlock t mailbox msg readback) s fun e =>
      e.rd 0x8109 2 0 = ((sat32 (s.dev.rn 0x8109 2 0 + 1) : Nat) : Int) ∧ e.rd 0x30 1 0 = 0 ∧ Raised s.dev e 1 [0x15] ∧
      SameHostRegs [] s.dev e) ∧
  (∀ (s : State) (t mailbox k att : Nat) (x : Session),
    s.dev.md.hostReset = false →
    s.dev.ld.session = some x →
    s.dev.ld.crossing = [(k, att)] →
    k % 2 = mailbox →
    RunsKeep (.blockResult t mailbox 1) s fun e =>
      e.ld = { s.dev.ld with crossing := [], toForward := s.dev.ld.toForward ++ [(k, 2)] } ∧ SameRegs [] s.dev e ∧ SameHostRegs [] s.dev e ∧
      SameMotion s.dev e) ∧
  (∀ (s : State) (t mailbox k att : Nat) (x : Session),
    s.dev.md.hostReset = false →
    s.dev.ld.session = some x →
    x.endWait = false →
    s.dev.ld.crossing = [(k, att)] →
    k % 2 = mailbox →
    RunsKeep (.blockResult t mailbox 0) s fun e =>
      e.ld = { s.dev.ld with crossing := [], accepted := s.dev.ld.accepted ++ [k] } ∧ SameRegs [] s.dev e ∧ SameHostRegs [] s.dev e ∧
      SameMotion s.dev e)

/-- Begin in Dormant brings the field die into Load, phase 1, with the number of blocks, identity, security version and digest of the message, and raises event 00h; in another mode it is refused and no element changes. End in phase 1 begins the verification, phase 2. Abort returns the field die to Dormant with events 08h and 01h. Rejoin that names the running identity ends the grace timer and raises event 06h, any other is refused with event 07h. A digest that matches, for a security version not below the counter, starts the firmware; a first mismatch is computed again. (R58, R60, R70, R73, R74, R75, R76) -/
def Obligations.LoadControlMovesTheFieldDie : Prop :=
  (∀ (s : State) (t : Nat) (msg : Bytes),
    s.dev.md.fieldReset = false →
    s.dev.mode = 0 →
    RunsKeep (.loadControlBegin t msg) s fun e =>
      e.rd 0x30 1 0 = 1 ∧ e.rd 0x30 2 0 = 1 ∧ e.ld.fBlocks = leAt msg 4 4 ∧ e.ld.fIdentity = leAt msg 8 8 ∧ e.ld.fSecurity = leAt msg 16 4 ∧
      e.ld.fDigest = slice msg 20 32 ∧ Raised s.dev e 0 [0, 1, 0] ∧ SameRegs [(0x30, 1), (0x30, 2)] s.dev e ∧ SameHostRegs [] s.dev e ∧
      SameMotion s.dev e) ∧
  (∀ (s : State) (t : Nat) (msg : Bytes),
    s.dev.md.fieldReset = false →
    s.dev.mode ≠ 0 →
    RunsKeep (.loadControlBegin t msg) s fun e =>
      e.ld = s.dev.ld ∧ SameRegs [] s.dev e ∧ SameHostRegs [] s.dev e ∧ SameMotion s.dev e ∧ Quiet s.dev e ∧
      e.bar.field.queue.getLast?.map TxMsg.mbx = some 2) ∧
  (∀ (s : State) (t : Nat) (msg : Bytes),
    s.dev.md.fieldReset = false →
    s.dev.mode = 1 →
    s.dev.rn 0x30 2 0 = 1 →
    RunsKeep (.loadControlEnd t msg) s fun e =>
      e.rd 0x30 2 0 = 2 ∧ e.ld = { s.dev.ld with endSeen := true, verifyAgain := false } ∧
      SameRegs [(0x30, 2), (0x8109, 1), (0x8109, 3), (0x8109, 5)] s.dev e ∧ SameHostRegs [] s.dev e ∧ SameMotion s.dev e) ∧
  (∀ (s : State) (t : Nat) (msg : Bytes),
    s.dev.md.fieldReset = false →
    s.dev.mode = 1 →
    RunsKeep (.loadControlAbort t msg) s fun e =>
      e.rd 0x30 1 0 = 0 ∧ e.rd 0x30 2 0 = 0 ∧ Raised s.dev e 8 [] ∧ Raised s.dev e 1 (leBytes (byteAt msg 1) 1) ∧ Raised s.dev e 0 [1, 0, 8] ∧
      SameHostRegs [] s.dev e) ∧
  (∀ (s : State) (t : Nat) (msg : Bytes),
    s.dev.md.fieldReset = false →
    s.dev.md.fieldFw = true →
    leAt msg 8 8 = s.dev.ld.fIdentity →
    RunsKeep (.loadControlRejoin t msg) s fun e =>
      e.md = { s.dev.md with grace := none, hostAccepted := true } ∧ Raised s.dev e 6 [] ∧
      SameRegs [(0x8109, 1), (0x8109, 3), (0x8109, 5)] s.dev e ∧ SameHostRegs [] s.dev e ∧ SameMotion s.dev e) ∧
  (∀ (s : State) (t : Nat) (msg : Bytes),
    s.dev.md.fieldReset = false →
    leAt msg 8 8 ≠ s.dev.ld.fIdentity →
    RunsKeep (.loadControlRejoin t msg) s fun e =>
      e.md = s.dev.md ∧ Raised s.dev e 7 [] ∧ SameRegs [] s.dev e ∧ SameHostRegs [] s.dev e ∧ SameMotion s.dev e) ∧
  (∀ (s : State) (t : Nat),
    s.dev.mode = 1 →
    s.dev.rn 0x30 2 0 = 2 →
    s.dev.ld.verifyAgain = false →
    RunsKeep (.verifyDigestComplete t true) s fun e =>
      e.ld = { s.dev.ld with verifyAgain := true } ∧ SameRegs [] s.dev e ∧ SameHostRegs [] s.dev e ∧ SameMotion s.dev e) ∧
  (∀ (s : State) (t : Nat),
    s.dev.mode = 1 →
    s.dev.rn 0x30 2 0 = 2 →
    s.dev.ld.verifyAgain = false →
    s.dev.ld.rollback ≤ s.dev.ld.fSecurity →
    sha256 ((List.range s.dev.ld.fBlocks).map fun k => Tab.get s.dev.ld.fw k (zeros 1024)).flatten = s.dev.ld.fDigest →
    RunsKeep (.verifyDigestComplete t false) s fun e =>
      e.rd 0x30 2 0 = 3 ∧ e.md.fieldFw = true ∧ e.st.recovering = true ∧ e.tm.running = true ∧ e.rd 0x30 1 0 = s.dev.rd 0x30 1 0 ∧
      SameHostRegs [] s.dev e) ∧
  (∀ (s : State) (t : Nat) (msg : Bytes) (x : Session),
    s.dev.md.hostReset = false →
    byteAt msg 1 = 0 →
    s.dev.ld.session = some x →
    x.rejoin = false →
    RunsKeep (.loadStatus t msg) s fun e =>
      e.ld = { s.dev.ld with session := some { x with beginOk := true } } ∧ e.hrd 0x30 2 0 = (byteAt msg 2 : Int) ∧
      SameHostRegs [(0x30, 2)] s.dev e ∧ SameRegs [] s.dev e ∧ SameMotion s.dev e) ∧
  (∀ (s : State) (t : Nat) (msg : Bytes),
    s.dev.md.hostReset = false →
    byteAt msg 1 = 1 →
    byteAt msg 2 = 3 →
    s.dev.ld.running = true →
    RunsKeep (.loadStatus t msg) s fun e =>
      e.md.hostFw = true ∧ e.ld.runIdentity = leAt s.dev.ld.header 16 8 ∧ e.hrd 0x20 5 0 = ((leAt s.dev.ld.header 8 4 : Nat) : Int) ∧
      e.hrd 0x30 2 0 = 3 ∧ SameRegs [] s.dev e ∧ SameMotion s.dev e) ∧
  (∀ (s : State) (t : Nat),
    s.dev.md.fieldReset = false →
    s.dev.mode = 1 →
    s.dev.rn 0x30 2 0 = 1 →
    s.dev.ld.lastCell + 100 * ms ≤ t →
    RunsKeep (.loadTransferTimeout t) s fun e =>
      e.rd 0x30 1 0 = 0 ∧ e.rd 0x30 2 0 = 0 ∧ Raised s.dev e 8 [] ∧ Raised s.dev e 1 [0x19] ∧ Raised s.dev e 0 [1, 0, 8] ∧
      e.bar.field.queue.getLast?.map TxMsg.mbx = some 2 ∧ SameHostRegs [] s.dev e)

/-- A field firmware that sends no Heartbeat for 100 ms after its start returns the field die to Dormant with Result code 1Ch. A host part that sends none for 100 ms is stopped with 1Dh and the HCAN port is reset. A Rejoin without a status for 100 ms ends its session with Result 19h. (R77, R78, R76) -/
def Obligations.LoadTimersEndTheLoad : Prop :=
  (∀ (s : State) (t : Nat),
    s.dev.md.fieldReset = false →
    s.dev.mode = 1 →
    s.dev.rn 0x30 2 0 = 3 →
    s.dev.md.fieldBeat = false →
    s.dev.ld.phaseAt + 100 * ms ≤ t →
    RunsKeep (.fieldFirmwareHeartbeatTimeout t) s fun e =>
      e.rd 0x30 1 0 = 0 ∧ e.rd 0x30 2 0 = 0 ∧ e.md.fieldFw = false ∧ Raised s.dev e 8 [] ∧ Raised s.dev e 1 [0x1C] ∧
      Raised s.dev e 0 [1, 0, 8] ∧ e.bar.field.queue.getLast?.map TxMsg.mbx = some 2 ∧ SameHostRegs [] s.dev e) ∧
  (∀ (s : State) (t x : Nat),
    s.dev.ld.hostStartAt = some x →
    s.dev.md.hostFw = true →
    s.dev.md.hostBeat = false →
    x + 100 * ms ≤ t →
    RunsKeep (.hostPartHeartbeatTimeout t) s fun e =>
      e.md = { s.dev.md with hostFw := false } ∧ e.ld = { s.dev.ld with hostStartAt := none, running := false } ∧
      e.hrd 0x20 3 0 = 0x1D ∧ e.hcan = State.reset.dev.hcan ∧ SameHostRegs [(0x20, 3)] s.dev e ∧ SameRegs [] s.dev e ∧ SameMotion s.dev e) ∧
  (∀ (s : State) (t x : Nat) (y : Session),
    s.dev.ld.rejoinAt = some x →
    x + 100 * ms ≤ t →
    s.dev.ld.session = some y →
    y.rejoin = true →
    RunsKeep (.rejoinStatusTimeout t) s fun e =>
      e.out = s.dev.out ++ [.result y.src (resultPacket 0x19 y.num 0)] ∧ e.ld.session = none ∧ e.ld.rejoinAt = none ∧ e.hrd 0x20 3 0 = 0x19 ∧
      SameHostRegs [(0x20, 2), (0x20, 3), (0x20, 4)] s.dev e ∧ SameRegs [] s.dev e ∧ SameMotion s.dev e)

/-- In Dormant with no session, 32 bytes not all zero written to a blank 0040h:2 become key slot 1 and the answer is 00h. An admitted write of TRUE to 0020h:8 raises the anti-rollback counter to the security version of the running field part, which 0020h:7 then reads; a counter that stands there already stays. Bytes 0 to 6 of 540h that name the device wake the boot exchange. A first fragment of a block on 542h is kept for its followers. (R65, R74, R79, R80) -/
def Obligations.KeySlotCounterAndBootExchange : Prop :=
  (∀ (s : State) (t : Nat) (req : Req) (value : Bytes),
    s.dev.md.hostReset = false →
    s.dev.hostServes req.src = true →
    s.dev.ob.outstanding = [] →
    s.dev.ob.kept.any (fun k => k.src == req.src) = false →
    s.dev.ob.staging = [] →
    s.dev.hrn 0x30 1 0 = 0 →
    s.dev.ld.session = none →
    s.dev.ld.keySlot1 = [] →
    value.length = 32 →
    allZero value = false →
    RunsKeep (.writeKeySlot1 t req value) s fun e =>
      e.ld = { s.dev.ld with keySlot1 := value } ∧ e.out = s.dev.out ++ [.response .host req.src (respMsg (writeMsg req 0x40 2 0 value) 0 [] false)] ∧
      SameHostRegs [(0x1000, 4)] s.dev e ∧ SameRegs [] s.dev e ∧ SameMotion s.dev e) ∧
  (∀ (s : State) (t : Nat) (req : Req),
    s.dev.Admits req 0x20 8 0 [1] = true →
    s.dev.ld.rollback < s.dev.ld.fSecurity →
    RunsKeep (.rollbackAdvance t req) s fun e =>
      e.ld = { s.dev.ld with rollback := s.dev.ld.fSecurity } ∧ e.rd 0x20 7 0 = (s.dev.ld.fSecurity : Int) ∧
      SameRegs [(0x20, 7)] s.dev e ∧ SameHostRegs [] s.dev e ∧ SameMotion s.dev e) ∧
  (∀ (s : State) (t : Nat) (req : Req),
    s.dev.Admits req 0x20 8 0 [1] = true →
    s.dev.ld.fSecurity ≤ s.dev.ld.rollback →
    RunsKeep (.rollbackAdvance t req) s fun e =>
      e.ld = s.dev.ld ∧ e.st = s.dev.st ∧ SameRegs [] s.dev e ∧ SameHostRegs [] s.dev e ∧ SameMotion s.dev e) ∧
  (∀ (s : State) (t : Nat) (data : Bytes),
    s.dev.md.hostReset = false →
    s.dev.md.hostFw = false →
    leAt data 0 6 = Config.headIdentity % 2 ^ 48 →
    byteAt data 6 = 1 →
    RunsKeep (.hcanBootWake t data) s fun e => e = { s.dev.advance t with ld.hcanWake := true }) ∧
  (∀ (s : State) (t : Nat) (data : Bytes),
    s.dev.md.hostReset = false →
    s.dev.ld.hcanWake = true →
    data.length = 64 →
    byteAt data 3 = 0 →
    RunsKeep (.hcanDownloadFragment t data) s fun e =>
      e = { s.dev.advance t with ld.asm := some { next := leAt data 0 3 * 32 + 1, data := data.drop 4 } }) ∧
  (∀ (s : State) (t : Nat) (data : Bytes),
    s.dev.md.hostReset = false →
    s.dev.md.hostFw = false →
    s.dev.ld.hcanWake = true →
    s.dev.ld.session = none →
    data.length = 64 →
    byteAt data 3 = 0xFE →
    RunsKeep (.hcanDownloadFragment t data) s fun e =>
      e = { s.dev.advance t with out := s.dev.out ++ [.result (.hcan 0x540) (resultPacket 5 0 0)] })

/-- With firmware running in mode 2 or above, a Read of an element of fixed size is answered 00h with the element's value, Describe with the ten bytes of R91 and Next with the lowest object above; the answer leaves in mailbox 4 with the address of its requester, and no element changes. An admitted Write outside the linked groups that R92 does not refuse waits for the next cycle boundary; one to a linked group joins the edit of its group. (R86, R88, R89, R91, R92, R97, R98, R102, R106) -/
def Obligations.FieldDieServesObjects : Prop :=
  (∀ (s : State) (t n ip udp tag o el i : Nat),
    s.dev.md.fieldReset = false →
    s.dev.md.fieldFw = true →
    2 ≤ s.dev.mode →
    s.dev.mailIdle = true →
    tag < 65536 →
    o < 65536 →
    objKnown o = true →
    0x1000 ≤ o →
    instOf o i = some i →
    i < 65536 →
    el ≤ objCount o →
    el < 256 →
    tyBytes (tyOf o el) = false →
    RunsKeep (.objectRead t .field (.port n ip udp) (askMsg 1 tag o el i)) s fun e =>
      e.lastSent .field = some (4, cellsOf 64 (mail4 n ip udp
        (respMsg (askMsg 1 tag o el i) 0 ((s.dev.advance t).readEl s.sram s.nv o el i) false))) ∧
      e.ob.order = [] ∧ SameRegs [] s.dev e ∧ SameHostRegs [] s.dev e ∧ SameMotion s.dev e) ∧
  (∀ (s : State) (t n ip udp tag o el i : Nat),
    s.dev.md.fieldReset = false →
    s.dev.md.fieldFw = true →
    2 ≤ s.dev.mode →
    s.dev.mailIdle = true →
    tag < 65536 →
    o < 65536 →
    objKnown o = true →
    0x1000 ≤ o →
    instOf o i = some i →
    i < 65536 →
    el ≤ objCount o →
    el < 256 →
    RunsKeep (.objectDescribe t .field (.port n ip udp) (askMsg 3 tag o el i)) s fun e =>
      e.lastSent .field = some (4, cellsOf 64 (mail4 n ip udp (respMsg (askMsg 3 tag o el i) 0 (describe o el) false))) ∧
      e.ob.order = [] ∧ SameRegs [] s.dev e ∧ SameHostRegs [] s.dev e ∧ SameMotion s.dev e) ∧
  (∀ (s : State) (t n ip udp tag o el i : Nat),
    s.dev.md.fieldReset = false →
    s.dev.md.fieldFw = true →
    2 ≤ s.dev.mode →
    s.dev.mailIdle = true →
    tag < 65536 →
    o < 65536 →
    i < 65536 →
    el < 256 →
    RunsKeep (.objectNext t .field (.port n ip udp) (askMsg 4 tag o el i)) s fun e =>
      e.lastSent .field = some (4, cellsOf 64 (mail4 n ip udp
        (respMsg (askMsg 4 tag o el i) 0 (leBytes (nextObj (max o 0xFFF) false) 2) false))) ∧
      e.ob.order = [] ∧ SameRegs [] s.dev e ∧ SameHostRegs [] s.dev e ∧ SameMotion s.dev e) ∧
  (∀ (s : State) (t o el i : Nat) (req : Req) (v : Bytes),
    s.dev.Admits req o el i v = true →
    0x1060 ≤ o →
    groupRec o el = 0 →
    o ≠ 0x2210 →
    o ≠ 0x4040 →
    o ≠ 0x5070 →
    o = 0x5000 → el ≠ 8 →
    (s.dev.advance t).dueCheck o el i (valueOf (tyOf o el) v) = 0 →
    RunsKeep (.objectWrite t .field req.src (writeMsg req o el i v)) s fun e =>
      DueAtBoundary s.dev e req o el i (valueOf (tyOf o el) v) ∧ SameRegs [] s.dev e ∧ SameHostRegs [] s.dev e ∧ SameMotion s.dev e) ∧
  (∀ (s : State) (t o el i : Nat) (req : Req) (v : Bytes),
    s.dev.Admits req o el i v = true →
    0x1060 ≤ o →
    groupRec o el ≠ 0 →
    rangeOk (((desc? o el).map Desc.rng).getD .any) (valueOf (tyOf o el) v) = true →
    lengthOk o el (valueOf (tyOf o el) v) = true →
    s.dev.edit (groupRec o el) (groupInst (groupRec o el) i) = none →
    RunsKeep (.objectWrite t .field req.src (writeMsg req o el i v)) s fun e =>
      (e.edit (groupRec o el) (groupInst (groupRec o el) i)).map Edit.shadows = some [((o, el, i), valueOf (tyOf o el) v)] ∧
      e.rd (groupRec o el) 2 (groupInst (groupRec o el) i) = 1 ∧ SameRegs [(groupRec o el, 2), (groupRec o el, 3)] s.dev e ∧
      SameHostRegs [] s.dev e ∧ SameMotion s.dev e)

/-- A Read of a number of a boot object by a source that the host die serves, with no request outstanding and none kept of that source, is answered 00h with the value; Describe likewise; Next in the modes below 2 names the lowest boot object above. No element changes but the count of outstanding requests. (R48, R49, R86, R91, R114) -/
def Obligations.HostDieServesBootObjects : Prop :=
  (∀ (s : State) (t tag o el i : Nat) (src : Source),
    s.dev.md.hostReset = false →
    s.dev.hostServes src = true →
    s.dev.ob.outstanding = [] →
    s.dev.ob.kept.any (fun k => k.src == src) = false →
    tag < 65536 →
    o < 0x1000 →
    el < 256 →
    objKnown o = true →
    instOf o i = some 0 →
    i < 65536 →
    el ≤ objCount o →
    tyBytes (tyOf o el) = false →
    o = 0x40 → el ≠ 2 →
    RunsKeep (.objectRead t .host src (askMsg 1 tag o el i)) s fun e =>
      e.out = s.dev.out ++ [.response .host src (respMsg (askMsg 1 tag o el i) 0 (encodeNum (tyOf o el) (s.dev.hrd o el 0)) false)] ∧
      e.ob.outstanding = [] ∧ SameHostRegs [(0x1000, 4)] s.dev e ∧ SameRegs [] s.dev e ∧ SameMotion s.dev e) ∧
  (∀ (s : State) (t tag o el i : Nat) (src : Source),
    s.dev.md.hostReset = false →
    s.dev.hostServes src = true →
    s.dev.ob.outstanding = [] →
    s.dev.ob.kept.any (fun k => k.src == src) = false →
    tag < 65536 →
    o < 0x1000 →
    el < 256 →
    objKnown o = true →
    instOf o i = some 0 →
    i < 65536 →
    el ≤ objCount o →
    RunsKeep (.objectDescribe t .host src (askMsg 3 tag o el i)) s fun e =>
      e.out = s.dev.out ++ [.response .host src (respMsg (askMsg 3 tag o el i) 0 (describe o el) false)] ∧
      e.ob.outstanding = [] ∧ SameHostRegs [(0x1000, 4)] s.dev e ∧ SameRegs [] s.dev e ∧ SameMotion s.dev e) ∧
  (∀ (s : State) (t tag o el i : Nat) (src : Source),
    s.dev.md.hostReset = false →
    s.dev.hostServes src = true →
    s.dev.ob.outstanding = [] →
    s.dev.ob.kept.any (fun k => k.src == src) = false →
    tag < 65536 →
    o < 65536 →
    el < 256 →
    i < 65536 →
    s.dev.hrn 0x30 1 0 < 2 →
    RunsKeep (.objectNext t .host src (askMsg 4 tag o el i)) s fun e =>
      e.out = s.dev.out ++ [.response .host src (respMsg (askMsg 4 tag o el i) 0 (leBytes (nextObj o true) 2) false)] ∧
      e.ob.outstanding = [] ∧ SameHostRegs [(0x1000, 4)] s.dev e ∧ SameRegs [] s.dev e ∧ SameMotion s.dev e)

/-- The oldest request waiting for a barrier mailbox crosses when the mailbox is free. The response to the one request outstanding goes to its source, and is kept. After 500 ms without one the source is answered 09h and the count of 1000h:7 goes up by one. A kept response is dropped 2 s after it was kept, all others stay. A staged value untouched for 10 s is dropped. (R81, R90, R94, R95, R106, R114) -/
def Obligations.RequestsCrossAndComeBack : Prop :=
  (∀ (s : State) (t mailbox : Nat) (src : Source) (msg : Bytes) (rest : List (Source × Bytes)),
    s.dev.md.hostReset = false →
    mailbox = 4 ∨ mailbox = 5 ∨ mailbox = 6 ∨ mailbox = 7 →
    (if mailbox = 4 then s.dev.ob.fwd4 else if mailbox = 5 then s.dev.ob.fwd5 else if mailbox = 6 then s.dev.ob.fwd6 else s.dev.ob.fwd7) = (src, msg) :: rest →
    s.dev.sendBusy .host mailbox = false →
    mayForward src (mTag msg) mailbox s.dev.ob.outstanding = true →
    RunsKeep (.forwardRequest t mailbox) s fun e =>
      (if mailbox = 4 then e.ob.fwd4 else if mailbox = 5 then e.ob.fwd5 else if mailbox = 6 then e.ob.fwd6 else e.ob.fwd7) = rest ∧
      e.lastSent .host = some (mailbox, cellsOf 64 (forwardBytes mailbox src msg)) ∧
      SameHostRegs [] s.dev e ∧ SameRegs [] s.dev e ∧ SameMotion s.dev e) ∧
  (∀ (s : State) (t : Nat) (src : Source) (msg : Bytes) (x : Outstanding),
    s.dev.md.hostReset = false →
    s.dev.ob.outstanding = [x] →
    x.route ≠ 0 →
    x.resp = none →
    x.later = 0 →
    x.src = src →
    x.tag = mTag msg →
    mObj msg ≠ 0x30 →
    RunsKeep (.objectResponse t src msg) s fun e =>
      e.out = s.dev.out ++ [.response .host src (mergeNext x.msg msg)] ∧ e.ob.outstanding = [] ∧
      SameHostRegs [(0x1000, 4), (0x1000, 5)] s.dev e ∧ SameRegs [] s.dev e ∧ SameMotion s.dev e) ∧
  (∀ (s : State) (t tag : Nat) (src : Source) (x : Outstanding),
    s.dev.md.hostReset = false →
    s.dev.ob.outstanding = [x] →
    x.route ≠ 0 →
    x.resp = none →
    x.later = 0 →
    x.src = src →
    x.tag = tag →
    x.at_ + 500 * ms ≤ t →
    RunsKeep (.forwardTimeout t src tag) s fun e =>
      e.out = s.dev.out ++ [.response .host src (respMsg x.msg 9 [] false)] ∧ e.ob.outstanding = [] ∧
      e.hrd 0x1000 7 0 = ((sat32 (s.dev.hrn 0x1000 7 0 + 1) : Nat) : Int) ∧
      SameHostRegs [(0x1000, 4), (0x1000, 5), (0x1000, 7)] s.dev e ∧ SameRegs [] s.dev e ∧ SameMotion s.dev e) ∧
  (∀ (s : State) (t tag : Nat) (src : Source),
    s.dev.now ≤ t →
    RunsKeep (.responseCacheExpiry t src tag) s fun e =>
      (∀ k ∈ e.ob.kept, k ∈ s.dev.ob.kept ∧ ¬(k.src = src ∧ k.tag = tag ∧ k.at_ + 2 * sec ≤ t)) ∧
      (∀ k ∈ s.dev.ob.kept, ¬(k.src = src ∧ k.tag = tag ∧ k.at_ + 2 * sec ≤ t) → k ∈ e.ob.kept) ∧
      SameHostRegs [] s.dev e ∧ SameRegs [] s.dev e ∧ SameMotion s.dev e) ∧
  (∀ (s : State) (t obj el inst : Nat) (x : Staging),
    s.dev.staged obj el inst = some x →
    x.touched + 10 * sec ≤ t →
    RunsKeep (.stagingTimeout t obj el inst) s fun e =>
      e.staged obj el inst = none ∧
      (∀ y ∈ s.dev.ob.staging, (y.o, y.e, y.i) ≠ (obj, el, inst) → y ∈ e.ob.staging) ∧
      SameHostRegs [] s.dev e ∧ SameRegs [] s.dev e ∧ SameMotion s.dev e)

/-- An admitted 01h written to Command of a commit record whose edit belongs to the requester waits for the next cycle boundary and the record reads State 2. 02h drops the edit: the record reads State 0 with no owner, and no element of the group changes. An edit untouched for 10 s is dropped likewise. (R102, R103, R104) -/
def Obligations.EditsAreCommittedOrDropped : Prop :=
  (∀ (s : State) (t grp inst : Nat) (req : Req) (x : Edit),
    0x1020 ≤ grp →
    grp ≤ 0x1034 →
    s.dev.Admits req grp 1 inst [1] = true →
    s.dev.edit grp inst = some x →
    x.owner = req.src →
    x.pending = none →
    RunsKeep (.commit t req grp inst) s fun e =>
      DueAtBoundary s.dev e req grp 1 inst (.num 1) ∧ e.rd grp 2 inst = 2 ∧ (e.edit grp inst).map Edit.shadows = some x.shadows ∧
      SameRegs [(grp, 2)] s.dev e ∧ SameHostRegs [] s.dev e ∧ SameMotion s.dev e) ∧
  (∀ (s : State) (t grp inst : Nat) (req : Req) (x : Edit),
    0x1020 ≤ grp →
    grp ≤ 0x1034 →
    s.dev.Admits req grp 1 inst [2] = true →
    s.dev.edit grp inst = some x →
    x.owner = req.src →
    RunsKeep (.discard t req grp inst) s fun e =>
      e.ob.edits = Tab.del s.dev.ob.edits (editKey grp inst) ∧ e.rd grp 2 inst = 0 ∧ e.rd grp 3 inst = 0 ∧ e.ob.due = s.dev.ob.due ∧
      SameRegs [(grp, 2), (grp, 3)] s.dev e ∧ SameHostRegs [] s.dev e ∧ SameMotion s.dev e) ∧
  (∀ (s : State) (t grp inst : Nat) (x : Edit),
    s.dev.md.fieldReset = false →
    grp < 65536 →
    inst < 65536 →
    s.dev.edit grp inst = some x →
    x.pending = none →
    x.touched + 10 * sec ≤ t →
    RunsKeep (.editTimeout t grp inst) s fun e =>
      e.ob.edits = Tab.del s.dev.ob.edits (editKey grp inst) ∧ e.rd grp 2 inst = 0 ∧ e.rd grp 3 inst = 0 ∧
      SameRegs [(grp, 2), (grp, 3)] s.dev e ∧ SameHostRegs [] s.dev e ∧ SameMotion s.dev e)

/-- The first fragment of a message on the base identifier in use is kept with the number of its follower. On the host die a single fragment that is a whole request without a value is served as that request. A request outstanding at a gate for 2 ms is answered 09h: 1000h:8 counts it and its late response will be dropped. (R107, R108, R111, R114) -/
def Obligations.CanFragmentsAndGateRequests : Prop :=
  (∀ (s : State) (t base : Nat) (data : Bytes),
    s.dev.md.hostReset = false →
    s.dev.hostServes (.hcan base) = true →
    byteAt data 0 = 0 →
    s.dev.ob.asmHcan = none →
    RunsKeep (.canObjectFragment t .host base data) s fun e =>
      e = { s.dev.advance t with ob.asmHcan := some { next := 1, data := data.drop 1 } }) ∧
  (∀ (s : State) (t base : Nat) (data : Bytes),
    s.dev.md.fieldReset = false →
    s.dev.md.fieldFw = true →
    base = s.dev.rn 0x1000 3 0 →
    base ≠ 0xFFFF →
    byteAt data 0 = 0 →
    s.dev.ob.asmFcan = none →
    RunsKeep (.canObjectFragment t .field base data) s fun e =>
      e = { s.dev.advance t with ob.asmFcan := some { next := 1, data := data.drop 1 } }) ∧
  (∀ (s : State) (t seg pos x : Nat) (g : GateReq) (rest : List GateReq),
    s.dev.md.fieldReset = false →
    Tab.find s.dev.ob.gates (gateKey seg pos) = some (g :: rest) →
    g.at_ = some x →
    (s.dev.sg seg).up = none →
    x + 2 * ms ≤ t →
    RunsKeep (.gateResponseTimeout t seg pos) s fun e =>
      e.rd 0x1000 8 0 = ((sat32 (s.dev.rn 0x1000 8 0 + 1) : Nat) : Int) ∧
      e.ob.gateLate = (gateKey seg pos, g.req.tag) :: s.dev.ob.gateLate ∧
      SameRegs [(0x1000, 8)] s.dev e ∧ SameHostRegs [] s.dev e ∧ SameMotion s.dev e)

/-- A latch instant that is due begins the next cycle: its number goes up by one, its instant is the one planned, the next one lies a period of 7010h:1 later, and no write waits any longer. The first latch instant begins cycle 0. While the latch generator stands, nothing but time changes. In Prepare with request 03h pending the device enters Run; with a Safe-hold cause in Run it enters Safe-hold, 0030h:4 reads the cause and event 03h is raised. (R38, R40, R43, R98, R115, R117, R118) -/
def Obligations.TheCycleBoundary : Prop :=
  (∀ (s : State) (t : Nat) (sd : List SdOut),
    s.dev.md.fieldReset = false →
    s.dev.tm.running = true →
    s.dev.tm.started = true →
    s.dev.tm.nextNs * 1000 ≤ t →
    RunsKeep (.latchInstant t sd) s fun e =>
      e.tm.cycle = s.dev.tm.cycle + 1 ∧ e.tm.prevNs = s.dev.tm.latchNs ∧ e.tm.latchNs = s.dev.tm.nextNs ∧
      e.tm.nextNs = e.tm.latchNs + e.rn 0x7010 1 0 ∧ e.ob.due = [] ∧ e.tm.running = true) ∧
  (∀ (s : State) (t : Nat) (sd : List SdOut),
    s.dev.md.fieldReset = false →
    s.dev.tm.running = true →
    s.dev.tm.started = false →
    RunsKeep (.latchInstant t sd) s fun e =>
      e.tm.cycle = 0 ∧ e.tm.started = true ∧ e.tm.latchNs = max s.dev.now t / 1000 ∧
      e.tm.nextNs = e.tm.latchNs + e.rn 0x7010 1 0 ∧ e.ob.due = []) ∧
  (∀ (s : State) (t : Nat) (sd : List SdOut),
    s.dev.tm.running = false →
    RunsKeep (.latchInstant t sd) s fun e => e = s.dev.advance t) ∧
  (∀ (s : State) (t : Nat) (sd : List SdOut),
    s.dev.md.fieldReset = false →
    s.dev.tm.running = true →
    s.dev.tm.started = true →
    s.dev.tm.nextNs * 1000 ≤ t →
    s.dev.mode = 2 →
    s.dev.rn 0x30 3 0 = 3 →
    s.dev.ob.due = [] →
    s.dev.line.units = [] →
    RunsKeep (.latchInstant t sd) s fun e => e.rd 0x30 1 0 = 3 ∧ Raised s.dev e 0 [2, 3, 0]) ∧
  (∀ (s : State) (t ev : Nat) (sd : List SdOut),
    s.dev.md.fieldReset = false →
    s.dev.tm.running = true →
    s.dev.tm.started = true →
    s.dev.tm.nextNs * 1000 ≤ t →
    s.dev.mode = 3 ∨ s.dev.mode = 4 →
    s.dev.md.cause = some ev →
    s.dev.ob.due = [] →
    RunsKeep (.latchInstant t sd) s fun e =>
      e.rd 0x30 1 0 = 5 ∧ e.rd 0x30 4 0 = (ev : Int) ∧ Raised s.dev e 3 (leBytes ev 1))

/-- A frame launch at the instant the spec gives it sends, on every segment that is cyclic and has not yet got its frame of this cycle, one frame of that cycle, and the segment waits for its return; the trigger flag is used up. A launch before that instant, or without PLL_S, sends nothing. (R116, R145, R152, R518) -/
def Obligations.FramesAreLaunched : Prop :=
  (∀ (s : State) (t residual : Nat),
    s.dev.md.fieldReset = false →
    s.dev.clk.lost.contains 1 = false →
    s.dev.tm.started = true →
    (s.dev.tm.latchNs + 1000) * 1000 ≤ t →
    RunsKeep (.frameLaunch t residual) s fun e =>
      (∀ k ∈ List.range 4, s.dev.segState k = 5 → (e.sg k).launched = true ∧ (e.sg k).cycle = s.dev.tm.cycle) ∧
      e.cap.slalomNext = false ∧ s.dev.out.length ≤ e.out.length ∧ e.out.length ≤ s.dev.out.length + 4 ∧
      e.eng = s.dev.eng ∧ e.line = s.dev.line ∧ e.prof = s.dev.prof ∧ SameHostRegs [] s.dev e) ∧
  (∀ (s : State) (t residual : Nat),
    max s.dev.now t < (s.dev.tm.latchNs + 1000) * 1000 ∨ s.dev.tm.started = false →
    RunsKeep (.frameLaunch t residual) s fun e => e = s.dev.advance t)

/-- An admitted write of SetTime or Increment while Steering is 0, with an increment within 500 ppm of nominal, and one of Steering wait for the boundary. There SetTime steps device time to the value with event F4h and time quality 1, Increment is the increment of every tick, Steering reads back. (R127, R128, R129, R130, R131) -/
def Obligations.DeviceTimeIsSet : Prop :=
  (∀ (s : State) (t value : Nat) (req : Req),
    s.dev.Admits req 0x7000 3 0 (leBytes value 10) = true →
    value < 2 ^ 80 →
    s.dev.rn 0x7000 4 0 = 0 →
    RunsKeep (.writeSetTime t req value) s fun e =>
      DueAtBoundary s.dev e req 0x7000 3 0 (.num value) ∧ (e.dueApply 0x7000 3 0 (.num value)).devNs = nsOf value ∧
      (e.dueApply 0x7000 3 0 (.num value)).rd 0x7000 5 0 = 1 ∧
      SameRegs [] s.dev e ∧ SameHostRegs [] s.dev e ∧ SameMotion s.dev e) ∧
  (∀ (s : State) (t value : Nat) (req : Req),
    s.dev.Admits req 0x7000 2 0 (leBytes value 8) = true →
    3998 * 2 ^ 32 ≤ value * 1000 →
    value * 1000 ≤ 4002 * 2 ^ 32 →
    s.dev.rn 0x7000 4 0 = 0 →
    RunsKeep (.writeIncrement t req value) s fun e =>
      DueAtBoundary s.dev e req 0x7000 2 0 (.num value) ∧ (e.dueApply 0x7000 2 0 (.num value)).tm.inc = value ∧
      (e.dueApply 0x7000 2 0 (.num value)).rd 0x7000 2 0 = (value : Int) ∧
      SameRegs [] s.dev e ∧ SameHostRegs [] s.dev e ∧ SameMotion s.dev e) ∧
  (∀ (s : State) (t value : Nat) (req : Req),
    s.dev.Admits req 0x7000 4 0 (leBytes value 1) = true →
    value ≤ 1 →
    RunsKeep (.writeSteering t req value) s fun e =>
      DueAtBoundary s.dev e req 0x7000 4 0 (.num value) ∧ (e.dueApply 0x7000 4 0 (.num value)).rd 0x7000 4 0 = (value : Int) ∧
      SameRegs [] s.dev e ∧ SameHostRegs [] s.dev e ∧ SameMotion s.dev e)

/-- On the port of 7020h:1 a first Announce of the domain makes its sender the best master: 7020h:4 reads its grandmaster and 7020h:3 the listening state. A two-step Sync of the best master opens an exchange; its Follow_Up closes it with the difference of times. A Delay_Resp sets the mean path delay of 7020h:6 and leads from uncalibrated to slave state. Without Announce the best master is dropped and 7020h:10 counts it. A message of another domain is counted in 7020h:9. (R134, R135, R136) -/
def Obligations.PlantTimeFollowsTheBestMaster : Prop :=
  (∀ (s : State) (t port : Nat) (a : Announce),
    s.dev.md.hostReset = false →
    s.dev.md.hostFw = true →
    s.dev.hrn 0x7020 1 0 = port + 1 →
    a.domain = s.dev.hrn 0x7020 2 0 →
    s.dev.tm.best = none →
    RunsKeep (.ptpAnnounce t port a) s fun e =>
      e.tm.best = some a ∧ e.hrd 0x7020 4 0 = (a.grandmaster : Int) ∧ e.hrd 0x7020 3 0 = 2 ∧
      SameHostRegs [(0x7020, 3), (0x7020, 4)] s.dev e ∧ SameRegs [] s.dev e ∧ SameMotion s.dev e) ∧
  (∀ (s : State) (t port : Nat) (a : Announce),
    s.dev.md.hostReset = false →
    s.dev.md.hostFw = true →
    s.dev.hrn 0x7020 1 0 = port + 1 →
    a.domain ≠ s.dev.hrn 0x7020 2 0 →
    RunsKeep (.ptpAnnounce t port a) s fun e =>
      e.hrd 0x7020 9 0 = ((sat32 (s.dev.hrn 0x7020 9 0 + 1) : Nat) : Int) ∧ e.tm = (s.dev.advance t).tm ∧
      SameHostRegs [(0x7020, 3), (0x7020, 9)] s.dev e ∧ SameRegs [] s.dev e ∧ SameMotion s.dev e) ∧
  (∀ (s : State) (t port : Nat) (m : PtpMsg) (b : Announce),
    s.dev.md.hostReset = false →
    s.dev.md.hostFw = true →
    s.dev.hrn 0x7020 1 0 = port + 1 →
    m.domain = s.dev.hrn 0x7020 2 0 →
    m.twoStep = true →
    m.unsupported = false →
    s.dev.tm.best = some b →
    b.sender = m.sender →
    RunsKeep (.ptpSync t port m) s fun e =>
      e.tm = { (s.dev.advance t).tm with syncSeq := m.seq, syncRx := max s.dev.now t / 1000, syncCorr := m.correction, syncOpen := true } ∧
      SameHostRegs [(0x7020, 3)] s.dev e ∧ SameRegs [] s.dev e ∧ SameMotion s.dev e) ∧
  (∀ (s : State) (t port : Nat) (m : PtpMsg) (b : Announce),
    s.dev.md.hostReset = false →
    s.dev.md.hostFw = true →
    s.dev.hrn 0x7020 1 0 = port + 1 →
    m.domain = s.dev.hrn 0x7020 2 0 →
    m.unsupported = false →
    s.dev.tm.best = some b →
    b.sender = m.sender →
    s.dev.tm.syncOpen = true →
    m.seq = s.dev.tm.syncSeq →
    RunsKeep (.ptpFollowUp t port m) s fun e =>
      e.tm.syncOpen = false ∧ e.tm.t2mt1 = (s.dev.tm.syncRx : Int) - ((m.stamp : Int) + m.correction + s.dev.tm.syncCorr) ∧
      (s.dev.hrn 0x7020 3 0 = 3 → e.tm.offset = some (s.dev.tm.syncRx, e.tm.t2mt1 - s.dev.hrn 0x7020 6 0)) ∧
      SameHostRegs [(0x7020, 3), (0x7020, 7)] s.dev e ∧ SameRegs [] s.dev e ∧ SameMotion s.dev e) ∧
  (∀ (s : State) (t port : Nat) (m : PtpMsg) (b : Announce),
    s.dev.md.hostReset = false →
    s.dev.md.hostFw = true →
    s.dev.hrn 0x7020 1 0 = port + 1 →
    m.domain = s.dev.hrn 0x7020 2 0 →
    m.unsupported = false →
    s.dev.tm.best = some b →
    b.sender = m.sender →
    s.dev.tm.delayOpen = true →
    m.seq = s.dev.tm.delaySeq →
    RunsKeep (.ptpDelayResp t port m) s fun e =>
      e.tm.delayOpen = false ∧
      e.hrd 0x7020 6 0 = ((min ((s.dev.tm.t2mt1 + ((m.stamp : Int) - m.correction - s.dev.tm.delayTx)) / 2).toNat 0xFFFFFFFF : Nat) : Int) ∧
      (s.dev.hrn 0x7020 3 0 = 2 → e.hrd 0x7020 3 0 = 3) ∧
      SameHostRegs [(0x7020, 3), (0x7020, 6)] s.dev e ∧ SameRegs [] s.dev e ∧ SameMotion s.dev e) ∧
  (∀ (s : State) (t : Nat),
    s.dev.md.hostReset = false →
    s.dev.md.hostFw = true →
    s.dev.hrn 0x7020 1 0 ≠ 0 →
    s.dev.hrn 0x7020 3 0 = 2 ∨ s.dev.hrn 0x7020 3 0 = 3 →
    RunsKeep (.ptpDelayReqTimer t) s fun e =>
      e.out = s.dev.out ++ [.delayReq (s.dev.hrn 0x7020 1 0 - 1) ((s.dev.tm.delaySeq + 1) % 65536)] ∧ e.tm.delayOpen = true ∧
      e.tm.delaySeq = (s.dev.tm.delaySeq + 1) % 65536 ∧ SameHostRegs [] s.dev e ∧ SameRegs [] s.dev e ∧ SameMotion s.dev e) ∧
  (∀ (s : State) (t : Nat),
    s.dev.md.hostReset = false →
    s.dev.md.hostFw = true →
    s.dev.tm.best.isSome = true →
    RunsKeep (.announceTimeout t) s fun e =>
      e.tm.best = none ∧ e.hrd 0x7020 3 0 = 1 ∧ e.hrd 0x7020 10 0 = ((sat32 (s.dev.hrn 0x7020 10 0 + 1) : Nat) : Int) ∧
      SameHostRegs [(0x7020, 3), (0x7020, 10)] s.dev e ∧ SameRegs [] s.dev e ∧ SameMotion s.dev e)

/-- Outside slave state the host die sends a time message in mailbox 3 every second. With steering on, the field die runs free (7000h:5 reads 3) on a message of another PTP state, takes a new grandmaster with event F5h and lets eight messages pass. Every second it reports device time and the cycle number in mailbox 3, which the host die keeps as the base of its estimate. Three seconds without a time message make it run free. (R136, R137, R138, R139, R140) -/
def Obligations.TimeCrossesTheBarrier : Prop :=
  (∀ (s : State) (t : Nat),
    s.dev.md.hostReset = false →
    s.dev.md.hostFw = true →
    s.dev.hrn 0x7020 3 0 ≠ 3 →
    RunsKeep (.timeMessageTimer t) s fun e =>
      e.bar.host.queue.dropLast = s.dev.bar.host.queue ∧ e.bar.host.queue.getLast?.map TxMsg.mbx = some 3 ∧
      SameHostRegs [(0x7020, 3)] s.dev e ∧ SameRegs [] s.dev e ∧ SameMotion s.dev e) ∧
  (∀ (s : State) (t : Nat) (msg : Bytes),
    s.dev.md.fieldReset = false →
    s.dev.rn 0x7000 4 0 = 1 →
    byteAt msg 1 ≠ 3 →
    RunsKeep (.timeMessage t msg) s fun e =>
      e.rd 0x7000 5 0 = 3 ∧ e.tm.lastPlant = nsOf (leAt msg 4 10) ∧ SameRegs [(0x7000, 5)] s.dev e ∧ SameHostRegs [] s.dev e ∧
      SameMotion s.dev e) ∧
  (∀ (s : State) (t : Nat) (msg : Bytes),
    s.dev.md.fieldReset = false →
    s.dev.rn 0x7000 4 0 = 1 →
    byteAt msg 1 = 3 →
    leAt msg 14 8 ≠ s.dev.tm.lastGm →
    RunsKeep (.timeMessage t msg) s fun e =>
      e.rd 0x7000 5 0 = 3 ∧ e.tm.lastGm = leAt msg 14 8 ∧ e.tm.settle = 8 ∧ Raised s.dev e 0xF5 [] ∧
      e.rd 0x7020 8 0 = ((sat32 (s.dev.rn 0x7020 8 0 + 1) : Nat) : Int) ∧
      SameRegs [(0x7000, 5), (0x7020, 8)] s.dev e ∧ SameHostRegs [] s.dev e ∧ SameMotion s.dev e) ∧
  (∀ (s : State) (t : Nat) (msg : Bytes),
    s.dev.md.fieldReset = false →
    s.dev.rn 0x7000 4 0 = 1 →
    byteAt msg 1 = 3 →
    leAt msg 14 8 = s.dev.tm.lastGm →
    0 < s.dev.tm.settle →
    RunsKeep (.timeMessage t msg) s fun e =>
      e.tm.settle = s.dev.tm.settle - 1 ∧ SameRegs [] s.dev e ∧ SameHostRegs [] s.dev e ∧ SameMotion s.dev e) ∧
  (∀ (s : State) (t : Nat),
    s.dev.md.fieldReset = false →
    s.dev.md.fieldFw = true →
    RunsKeep (.deviceTimeReportTimer t) s fun e =>
      e.lastSent .field = some (3, cellsOf 64 ([0x81] ++ leBytes (s.dev.rn 0x7000 5 0) 1 ++ [0, 0] ++ leBytes (s.dev.advance t).devTime 10 ++
        leBytes s.dev.tm.cycle 8)) ∧ SameRegs [] s.dev e ∧ SameHostRegs [] s.dev e ∧ SameMotion s.dev e) ∧
  (∀ (s : State) (t : Nat) (msg : Bytes),
    s.dev.md.hostReset = false →
    RunsKeep (.deviceTimeReport t msg) s fun e =>
      e.tm.hostBase = some (nsOf (leAt msg 4 10), byteAt msg 1, max s.dev.now t) ∧ SameRegs [] s.dev e ∧ SameHostRegs [] s.dev e ∧
      SameMotion s.dev e) ∧
  (∀ (s : State) (t : Nat),
    s.dev.md.fieldReset = false →
    s.dev.rn 0x7000 4 0 = 1 →
    s.dev.tm.lastMsg + 3 * sec ≤ t →
    s.dev.md.fieldFw = true →
    RunsKeep (.plantTimeTimeout t) s fun e =>
      e.rd 0x7000 5 0 = 3 ∧ SameRegs [(0x7000, 5)] s.dev e ∧ SameHostRegs [] s.dev e ∧ SameMotion s.dev e)

/-- The SOF of the head's own frame that returns in time marks the copy as begun. A block of it that fails its checks is noted as bad, a good one as good, by its place in the frame. The EOF ends the copy; a copy of good blocks whose CRC-32 does not match raises event 43h and is counted in 1100h:12. A copy whose SOF does not return within 1 us of its expected return is taken as absent. No other segment changes. (R144, R147, R149, R150, R163, R199) -/
def Obligations.ReturningFramesAreTaken : Prop :=
  (∀ (s : State) (t seg : Nat) (ch : Chan) (port : Port),
    s.dev.md.fieldReset = false →
    seg < 4 →
    (s.dev.sg seg).launched = true →
    s.dev.segState seg ≠ 1 →
    ((s.dev.sg seg).chan ch).copy.sof = false →
    ((s.dev.sg seg).chan ch).copy.timedOut = false →
    s.dev.inUse seg ch = true →
    ((s.dev.sg seg).chan ch).latency ≠ 0 →
    max s.dev.now t ≤ (s.dev.sg seg).launchAt + ((s.dev.sg seg).chan ch).latency + 50000 →
    RunsKeep (.receiveSof t seg ch port headId) s fun e =>
      ((e.sg seg).chan ch).copy.sof = true ∧ ((e.sg seg).chan ch).copy.sofAt = max s.dev.now t ∧ SameRegs [] s.dev e ∧ SameUnits s.dev e ∧ SameSegs seg s.dev e ∧ SameHostRegs [] s.dev e) ∧
  (∀ (s : State) (t seg : Nat) (ch : Chan) (port : Port) (block : Bytes) (corrupted : Bool),
    s.dev.md.fieldReset = false →
    seg < 4 →
    s.dev.segState seg ≠ 7 →
    (s.dev.sg seg).launched = true →
    ((s.dev.sg seg).chan ch).copy.sof = true →
    ((s.dev.sg seg).chan ch).copy.done = false →
    ((s.dev.sg seg).chan ch).copy.idx < (s.dev.sg seg).blocks →
    s.dev.inUse seg ch = true →
    blockGood block ((s.dev.sg seg).chan ch).copy.idx (s.dev.sg seg).blocks corrupted = false →
    (s.dev.sg seg).asg = [] →
    RunsKeep (.receiveFrameBlock t seg ch port block corrupted) s fun e =>
      ((e.sg seg).chan ch).copy.idx = ((s.dev.sg seg).chan ch).copy.idx + 1 ∧ ((e.sg seg).chan ch).copy.bad = ((s.dev.sg seg).chan ch).copy.idx :: ((s.dev.sg seg).chan ch).copy.bad ∧ ((e.sg seg).chan ch).copy.good = ((s.dev.sg seg).chan ch).copy.good ∧
      SameRegs [] s.dev e ∧ SameUnits s.dev e ∧ SameSegs seg s.dev e ∧ SameHostRegs [] s.dev e) ∧
  (∀ (s : State) (t seg : Nat) (ch : Chan) (port : Port) (block : Bytes) (corrupted : Bool),
    s.dev.md.fieldReset = false →
    seg < 4 →
    s.dev.segState seg ≠ 7 →
    (s.dev.sg seg).launched = true →
    ((s.dev.sg seg).chan ch).copy.sof = true →
    ((s.dev.sg seg).chan ch).copy.done = false →
    ((s.dev.sg seg).chan ch).copy.idx < (s.dev.sg seg).blocks →
    s.dev.inUse seg ch = true →
    blockGood block ((s.dev.sg seg).chan ch).copy.idx (s.dev.sg seg).blocks corrupted = true →
    (s.dev.sg seg).judged = true →
    RunsKeep (.receiveFrameBlock t seg ch port block corrupted) s fun e =>
      ((e.sg seg).chan ch).copy.idx = ((s.dev.sg seg).chan ch).copy.idx + 1 ∧ ((e.sg seg).chan ch).copy.good = ((s.dev.sg seg).chan ch).copy.idx :: ((s.dev.sg seg).chan ch).copy.good ∧ ((e.sg seg).chan ch).copy.bad = ((s.dev.sg seg).chan ch).copy.bad ∧
      SameRegs [] s.dev e ∧ SameUnits s.dev e ∧ SameSegs seg s.dev e ∧ SameHostRegs [] s.dev e) ∧
  (∀ (s : State) (t seg crc blocks : Nat) (ch : Chan),
    s.dev.md.fieldReset = false →
    seg < 4 →
    (s.dev.sg seg).launched = true →
    (s.dev.sg seg).judged = true →
    ((s.dev.sg seg).chan ch).copy.sof = true →
    ((s.dev.sg seg).chan ch).copy.done = false →
    ((s.dev.sg seg).chan ch).copy.bad = [] →
    ((s.dev.sg seg).chan ch).copy.idx = (s.dev.sg seg).blocks →
    Nat.xor ((s.dev.sg seg).chan ch).copy.crc 0xFFFFFFFF ≠ crc →
    RunsKeep (.receiveEof t seg ch crc blocks) s fun e =>
      ((e.sg seg).chan ch).copy.done = true ∧ Raised s.dev e 0x43 (leBytes seg 1 ++ leBytes (chNum ch) 1) ∧
      e.rd (0x1100 + seg) 12 0 = ((sat32 (s.dev.rn (0x1100 + seg) 12 0 + 1) : Nat) : Int) ∧
      SameRegs [(0x1100 + seg, 12)] s.dev e ∧ SameUnits s.dev e ∧ SameSegs seg s.dev e ∧ SameHostRegs [] s.dev e) ∧
  (∀ (s : State) (t seg crc blocks : Nat) (ch : Chan),
    s.dev.md.fieldReset = false →
    seg < 4 →
    (s.dev.sg seg).launched = true →
    (s.dev.sg seg).judged = true →
    ((s.dev.sg seg).chan ch).copy.sof = true →
    ((s.dev.sg seg).chan ch).copy.done = false →
    Nat.xor ((s.dev.sg seg).chan ch).copy.crc 0xFFFFFFFF = crc →
    RunsKeep (.receiveEof t seg ch crc blocks) s fun e =>
      ((e.sg seg).chan ch).copy.done = true ∧ Quiet s.dev e ∧ SameRegs [] s.dev e ∧ SameUnits s.dev e ∧ SameSegs seg s.dev e ∧ SameHostRegs [] s.dev e) ∧
  (∀ (s : State) (t seg : Nat) (ch : Chan),
    s.dev.md.fieldReset = false →
    seg < 4 →
    (s.dev.sg seg).launched = true →
    (s.dev.sg seg).judged = true →
    ((s.dev.sg seg).chan ch).copy.sof = false →
    (s.dev.sg seg).launchAt + ((s.dev.sg seg).chan ch).latency + us ≤ t →
    RunsKeep (.sofReturnTimeout t seg ch) s fun e =>
      ((e.sg seg).chan ch).copy.timedOut = true ∧ SameRegs [] s.dev e ∧ SameUnits s.dev e ∧ SameSegs seg s.dev e ∧ SameHostRegs [] s.dev e) ∧
  (∀ (s : State) (t seg pos : Nat),
    s.dev.md.fieldReset = false →
    seg < 4 →
    (s.dev.sg seg).launched = true →
    ((s.dev.sg seg).gate pos).waiting = true →
    ((s.dev.sg seg).gate pos).decided = false →
    (s.dev.sg seg).launchAt + max ((s.dev.sg seg).chan .a).latency ((s.dev.sg seg).chan .b).latency + s.dev.ser (1 + 33 * ((Tab.get (s.dev.sg seg).asg pos ⟨0, 0, 0, 0, 0, 0⟩).inOff / 256 + 1)) + 200000 ≤ t →
    RunsKeep (.windowWaitExpiry t seg pos) s fun e =>
      ((e.sg seg).gate pos).decided = true ∧ ((e.sg seg).gate pos).data = none ∧ SameSegs seg s.dev e ∧ SameHostRegs [] s.dev e)

/-- A segment that is due to start and enabled enters state 1. When every channel in use locks, or 100 ms after the start when one has, the head sends its CLAIM of round 1; with no lock the segment fails with code 01h. Rounds 2 and 3 follow 1.0 ms apart; 1.0 ms after round 3 the segment enters state 2 and a Number block leaves. A foreign SOF in state 1 makes the head concede: state 7, event 40h. A foreign CLAIM with a higher identity is counted in 1120h:9; the head's own returns on the port noted. (R182, R183, R184, R185, R188) -/
def Obligations.SegmentsStartAndClaim : Prop :=
  (∀ (s : State) (t seg : Nat),
    s.dev.md.fieldReset = false →
    seg < 4 →
    s.dev.clk.lost.contains 1 = false →
    (s.dev.sg seg).startDue = true →
    s.dev.rb (0x1100 + seg) 1 0 = true →
    RunsKeep (.segmentStart t seg) s fun e =>
      e.segState seg = 1 ∧ (e.sg seg).startAt = max s.dev.now t ∧ (e.sg seg).startDue = false ∧ (e.sg seg).round = 0 ∧ e.rd (0x1120 + seg) 8 0 = 0 ∧
      SameRegs [(0x1120 + seg, 1), (0x1120 + seg, 3), (0x1120 + seg, 8), (0x1100 + seg, 6), (0x1100 + seg, 7)] s.dev e ∧
      SameUnits s.dev e ∧ SameSegs seg s.dev e ∧ SameHostRegs [] s.dev e) ∧
  (∀ (s : State) (t seg : Nat) (ch : Chan),
    s.dev.md.fieldReset = false →
    seg < 4 →
    s.dev.segState seg = 1 →
    (s.dev.sg seg).round = 0 →
    (s.dev.sg seg).startDue = false →
    s.dev.inUse seg ch = true →
    s.dev.inUse seg (chOther ch) = true → ((s.dev.sg seg).chan (chOther ch)).locked = true →
    RunsKeep (.blockLockAcquired t seg ch) s fun e =>
      ((e.sg seg).chan ch).locked = true ∧ (e.sg seg).round = 1 ∧ e.out = s.dev.out ++ [.claim seg 1 headId] ∧
      SameRegs [(0x1120 + seg, 3)] s.dev e ∧ SameUnits s.dev e ∧ SameSegs seg s.dev e ∧ SameHostRegs [] s.dev e) ∧
  (∀ (s : State) (t seg : Nat) (ch : Chan),
    s.dev.md.fieldReset = false →
    seg < 4 →
    s.dev.segState seg = 1 →
    (s.dev.sg seg).round = 0 →
    (s.dev.sg seg).startDue = false →
    (s.dev.sg seg).startAt + 100 * ms ≤ t →
    s.dev.inUse seg ch = true →
    ((s.dev.sg seg).chan ch).locked = true →
    RunsKeep (.blockLockTimeout t seg) s fun e =>
      (e.sg seg).round = 1 ∧ e.out = s.dev.out ++ [.claim seg 1 headId] ∧
      SameRegs [(0x1120 + seg, 3)] s.dev e ∧ SameUnits s.dev e ∧ SameSegs seg s.dev e ∧ SameHostRegs [] s.dev e) ∧
  (∀ (s : State) (t seg : Nat),
    s.dev.md.fieldReset = false →
    seg < 4 →
    s.dev.segState seg = 1 →
    (s.dev.sg seg).round = 0 →
    (s.dev.sg seg).startDue = false →
    (s.dev.sg seg).startAt + 100 * ms ≤ t →
    (s.dev.sg seg).a.locked = false →
    (s.dev.sg seg).b.locked = false →
    s.dev.gateCount seg = 0 →
    RunsKeep (.blockLockTimeout t seg) s fun e =>
      e.segState seg = 6 ∧ e.rd (0x1120 + seg) 8 0 = 1 ∧ e.out = s.dev.out ∧
      SameRegs [(0x1120 + seg, 1), (0x1120 + seg, 8)] s.dev e ∧ SameUnits s.dev e ∧ SameSegs seg s.dev e ∧ SameHostRegs [] s.dev e) ∧
  (∀ (s : State) (t seg : Nat),
    s.dev.md.fieldReset = false →
    seg < 4 →
    s.dev.segState seg = 1 →
    (s.dev.sg seg).round = 1 ∨ (s.dev.sg seg).round = 2 →
    (s.dev.sg seg).roundAt + ms ≤ t →
    RunsKeep (.claimRound t seg) s fun e =>
      (e.sg seg).round = (s.dev.sg seg).round + 1 ∧ e.out = s.dev.out ++ [.claim seg ((s.dev.sg seg).round + 1) headId] ∧
      SameRegs [] s.dev e ∧ SameUnits s.dev e ∧ SameSegs seg s.dev e ∧ SameHostRegs [] s.dev e) ∧
  (∀ (s : State) (t seg round : Nat) (ch : Chan) (port : Port),
    s.dev.md.fieldReset = false →
    seg < 4 →
    1 ≤ s.dev.segState seg →
    s.dev.segState seg ≤ 5 →
    RunsKeep (.receiveClaim t seg ch port headId round) s fun e =>
      ((e.sg seg).chan ch).back = some port ∧ SameRegs [] s.dev e ∧ SameUnits s.dev e ∧ SameSegs seg s.dev e ∧ SameHostRegs [] s.dev e) ∧
  (∀ (s : State) (t seg ident round : Nat) (ch : Chan) (port : Port),
    s.dev.md.fieldReset = false →
    seg < 4 →
    1 ≤ s.dev.segState seg →
    s.dev.segState seg ≤ 5 →
    headId < ident →
    RunsKeep (.receiveClaim t seg ch port ident round) s fun e =>
      e.rd (0x1120 + seg) 9 0 = ((sat32 (s.dev.rn (0x1120 + seg) 9 0 + 1) : Nat) : Int) ∧ e.segs = s.dev.segs ∧
      SameRegs [(0x1120 + seg, 9)] s.dev e ∧ SameUnits s.dev e ∧ SameHostRegs [] s.dev e) ∧
  (∀ (s : State) (t seg ident : Nat) (ch : Chan) (port : Port),
    s.dev.md.fieldReset = false →
    seg < 4 →
    s.dev.segState seg = 1 →
    ident ≠ headId →
    RunsKeep (.receiveSof t seg ch port ident) s fun e =>
      e.segState seg = 7 ∧ (e.sg seg).round = 0 ∧ Raised s.dev e 0x40 (leBytes ident 6) ∧
      SameRegs [(0x1120 + seg, 1), (0x1120 + seg, 8)] s.dev e ∧ SameUnits s.dev e ∧ SameSegs seg s.dev e ∧ SameHostRegs [] s.dev e) ∧
  (∀ (s : State) (t seg : Nat) (ch : Chan),
    s.dev.md.fieldReset = false →
    seg < 4 →
    s.dev.segState seg = 1 →
    (s.dev.sg seg).round = 3 →
    (s.dev.sg seg).roundAt + ms ≤ t →
    (s.dev.upChans seg).head? = some ch →
    RunsKeep (.claimWon t seg) s fun e =>
      e.segState seg = 2 ∧ (e.sg seg).round = 0 ∧ (e.sg seg).numStage = 1 ∧ (e.sg seg).numCh = ch ∧
      e.out = s.dev.out ++ [.number seg false (2 ^ chNum ch) 1] ∧ SameUnits s.dev e ∧ SameSegs seg s.dev e ∧ SameHostRegs [] s.dev e)

/-- A Number block that returns with a value from 2 to 4096 makes the head verify it; a return of 1 is failure code 02h. A Verify that returns with the same value sets GateCount to it minus 1; a block that does not return in 1.0 ms makes the head number once more. A delay response of the gate asked joins its sums and the next request leaves; the sixteenth sets the gate's delay to half the difference of the means. A request not answered in 1.0 ms is sent once more. (R188, R189, R190, R191) -/
def Obligations.GatesAreNumberedAndMeasured : Prop :=
  (∀ (s : State) (t seg value : Nat) (ch : Chan) (port : Port),
    s.dev.md.fieldReset = false →
    seg < 4 →
    s.dev.segState seg = 2 →
    (s.dev.sg seg).numStage = 1 →
    (s.dev.sg seg).numCh = ch →
    2 ≤ value →
    value ≤ 4096 →
    RunsKeep (.receiveLinkNumber t seg ch port value) s fun e =>
      (e.sg seg).numStage = 2 ∧ (e.sg seg).numValue = value ∧ e.out = s.dev.out ++ [.number seg true (2 ^ chNum ch) 1] ∧
      SameRegs [] s.dev e ∧ SameUnits s.dev e ∧ SameSegs seg s.dev e ∧ SameHostRegs [] s.dev e) ∧
  (∀ (s : State) (t seg : Nat) (ch : Chan) (port : Port),
    s.dev.md.fieldReset = false →
    seg < 4 →
    s.dev.segState seg = 2 →
    (s.dev.sg seg).numStage = 1 →
    (s.dev.sg seg).numCh = ch →
    RunsKeep (.receiveLinkNumber t seg ch port 1) s fun e => e.segState seg = 6 ∧ e.rd (0x1120 + seg) 8 0 = 2 ∧ SameSegs seg s.dev e) ∧
  (∀ (s : State) (t seg value : Nat) (ch : Chan) (port : Port),
    s.dev.md.fieldReset = false →
    seg < 4 →
    s.dev.segState seg = 2 →
    (s.dev.sg seg).numStage = 2 →
    (s.dev.sg seg).numCh = ch →
    (s.dev.sg seg).numValue = value →
    (s.dev.upChans seg).contains (chOther ch) = true →
    RunsKeep (.receiveLinkVerify t seg ch port value) s fun e =>
      e.rd (0x1120 + seg) 2 0 = ((value - 1 : Nat) : Int) ∧ (e.sg seg).numStage = 3 ∧ (e.sg seg).numCh = chOther ch ∧
      e.out = s.dev.out ++ [.number seg true (2 ^ chNum (chOther ch)) 1] ∧ SameUnits s.dev e ∧ SameSegs seg s.dev e ∧ SameHostRegs [] s.dev e) ∧
  (∀ (s : State) (t seg : Nat),
    s.dev.md.fieldReset = false →
    seg < 4 →
    s.dev.segState seg = 2 →
    (s.dev.sg seg).numStage = 1 ∨ (s.dev.sg seg).numStage = 2 →
    (s.dev.sg seg).numTry = 0 →
    (s.dev.sg seg).linkAt + ms ≤ t →
    RunsKeep (.linkReturnTimeout t seg) s fun e =>
      (e.sg seg).numStage = 1 ∧ (e.sg seg).numTry = 1 ∧ e.out = s.dev.out ++ [.number seg false (2 ^ chNum (s.dev.sg seg).numCh) 1] ∧
      SameRegs [] s.dev e ∧ SameUnits s.dev e ∧ SameSegs seg s.dev e ∧ SameHostRegs [] s.dev e) ∧
  (∀ (s : State) (t seg pos trt turnaround : Nat) (ch : Chan) (x : DelayRun),
    s.dev.md.fieldReset = false →
    seg < 4 →
    ((s.dev.sg seg).chan ch).run = some x →
    x.pos = pos →
    x.drift = false →
    pos ≤ s.dev.gateCount seg →
    x.n < 15 →
    RunsKeep (.receiveDelayResponse t seg ch pos true trt turnaround) s fun e =>
      ((e.sg seg).chan ch).run = some { x with n := x.n + 1, sumT := x.sumT + trt, sumTa := x.sumTa + turnaround, silent := false } ∧
      e.out = s.dev.out ++ [.delay seg ch pos] ∧ SameRegs [] s.dev e ∧ SameUnits s.dev e ∧ SameSegs seg s.dev e ∧ SameHostRegs [] s.dev e) ∧
  (∀ (s : State) (t seg pos trt turnaround : Nat) (ch : Chan) (x : DelayRun),
    s.dev.md.fieldReset = false →
    seg < 4 →
    ((s.dev.sg seg).chan ch).run = some x →
    x.pos = pos →
    x.drift = false →
    pos ≤ s.dev.gateCount seg →
    pos < 65536 →
    pos < x.last →
    x.n = 15 →
    RunsKeep (.receiveDelayResponse t seg ch pos true trt turnaround) s fun e =>
      e.rd (0x1140 + seg) (5 + chNum ch) pos = ((((x.sumT + trt) - (x.sumTa + turnaround) + 16) / 32 : Nat) : Int) ∧
      e.out = s.dev.out ++ [.link seg ch 3 pos (((x.sumT + trt) - (x.sumTa + turnaround) + 16) / 32), .delay seg ch (pos + 1)] ∧
      SameRegs [(0x1140 + seg, 5 + chNum ch)] s.dev e ∧ SameUnits s.dev e ∧ SameSegs seg s.dev e ∧ SameHostRegs [] s.dev e) ∧
  (∀ (s : State) (t seg : Nat) (ch : Chan) (x : DelayRun),
    s.dev.md.fieldReset = false →
    seg < 4 →
    ((s.dev.sg seg).chan ch).run = some x →
    x.silent = false →
    RunsKeep (.delayTimeout t seg ch) s fun e =>
      ((e.sg seg).chan ch).run = some { x with silent := true } ∧ e.out = s.dev.out ++ [.delay seg ch x.pos] ∧
      SameRegs [] s.dev e ∧ SameUnits s.dev e ∧ SameSegs seg s.dev e ∧ SameHostRegs [] s.dev e)

/-- A segment still in state 4 after 64 frames fails with code 07h. An admitted write of TRUE to Restart waits for the boundary; there the segment enters state 1 with event 4Dh and is due to start. A failed segment with automatic restart enabled does the same when its timer ends. A port report without downstream lock, and a port query that is not answered, give the position of the break in 1120h:10 or 1120h:11; a report with lock moves the query to the next gate. (R195, R196, R197, R200, R203) -/
def Obligations.SegmentsFailAndRestart : Prop :=
  (∀ (s : State) (t seg : Nat),
    s.dev.md.fieldReset = false →
    seg < 4 →
    s.dev.segState seg = 4 →
    (s.dev.sg seg).tagged = true →
    64 ≤ (s.dev.sg seg).frames →
    RunsKeep (.cyclicWaitExpiry t seg) s fun e => e.segState seg = 6 ∧ e.rd (0x1120 + seg) 8 0 = 7 ∧ SameSegs seg s.dev e ∧ SameHostRegs [] s.dev e) ∧
  (∀ (s : State) (t seg : Nat) (req : Req),
    seg < 4 →
    s.dev.Admits req (0x1120 + seg) 5 0 [1] = true →
    s.dev.segState seg = 5 ∨ s.dev.segState seg = 6 →
    s.dev.mode = 2 →
    RunsKeep (.writeRestart t req seg) s fun e =>
      DueAtBoundary s.dev e req (0x1120 + seg) 5 0 (.num 1) ∧ (e.dueApply (0x1120 + seg) 5 0 (.num 1)).segState seg = 1 ∧
      ((e.dueApply (0x1120 + seg) 5 0 (.num 1)).sg seg).startDue = true ∧ Raised e (e.dueApply (0x1120 + seg) 5 0 (.num 1)) 0x4D (leBytes seg 1) ∧
      SameRegs [] s.dev e ∧ SameHostRegs [] s.dev e ∧ SameMotion s.dev e) ∧
  (∀ (s : State) (t seg : Nat),
    s.dev.md.fieldReset = false →
    seg < 4 →
    s.dev.segState seg = 6 →
    bit (s.dev.rn (0x1120 + seg) 6 0) 8 = true →
    (s.dev.sg seg).autoAt ≤ t →
    2 ≤ s.dev.mode →
    RunsKeep (.autoRestartTimer t seg) s fun e =>
      e.segState seg = 1 ∧ (e.sg seg).startDue = true ∧ (e.sg seg).autoAt = max s.dev.now t + sec ∧ Raised s.dev e 0x4D (leBytes seg 1) ∧
      SameSegs seg s.dev e ∧ SameHostRegs [] s.dev e) ∧
  (∀ (s : State) (t seg pos lockBits corrupted : Nat) (ch : Chan) (looped : Bool),
    s.dev.md.fieldReset = false →
    seg < 4 →
    ((s.dev.sg seg).chan ch).query = some pos →
    bit lockBits 1 = false →
    RunsKeep (.receivePortReport t seg ch pos lockBits corrupted looped) s fun e =>
      e.rd (0x1120 + seg) (10 + chNum ch) 0 = (pos : Int) ∧ ((e.sg seg).chan ch).query = none ∧ e.out = s.dev.out ∧
      SameRegs [(0x1120 + seg, 10 + chNum ch)] s.dev e ∧ SameUnits s.dev e ∧ SameSegs seg s.dev e ∧ SameHostRegs [] s.dev e) ∧
  (∀ (s : State) (t seg pos lockBits corrupted : Nat) (ch : Chan) (looped : Bool),
    s.dev.md.fieldReset = false →
    seg < 4 →
    ((s.dev.sg seg).chan ch).query = some pos →
    bit lockBits 1 = true →
    pos < s.dev.gateCount seg →
    RunsKeep (.receivePortReport t seg ch pos lockBits corrupted looped) s fun e =>
      ((e.sg seg).chan ch).query = some (pos + 1) ∧ e.out = s.dev.out ++ [.link seg ch 5 (pos + 1) 0] ∧
      SameRegs [] s.dev e ∧ SameUnits s.dev e ∧ SameSegs seg s.dev e ∧ SameHostRegs [] s.dev e) ∧
  (∀ (s : State) (t seg x : Nat) (ch : Chan),
    s.dev.md.fieldReset = false →
    seg < 4 →
    ((s.dev.sg seg).chan ch).query = some x →
    RunsKeep (.portQueryTimeout t seg ch) s fun e =>
      e.rd (0x1120 + seg) (10 + chNum ch) 0 = (x : Int) ∧ ((e.sg seg).chan ch).query = none ∧
      SameRegs [(0x1120 + seg, 10 + chNum ch)] s.dev e ∧ SameUnits s.dev e ∧ SameSegs seg s.dev e ∧ SameHostRegs [] s.dev e)

/-- A stage that ends without a residue error advances the run by one stage and keeps y for the cycle. An error in the first evaluation counts as transient in 8106h or 8107h and the stage counts all the same. An error in both is lasting: counted there, raised as event 8Ch, reported to the Judge, and the law ends for the cycle. When the last stage has ended the output is complete; the active blade's goes to the frame writer with 2160h:9 set, unless its check fails: then it is asked for once more. (R217, R246, R264, R265, R266, R274) -/
def Obligations.LawsRunStageByStage : Prop :=
  (∀ (s : State) (t a : Nat) (b : Blade) (x : LawRun),
    s.dev.md.fieldReset = false →
    (s.dev.axLaw b a).run = some x →
    s.dev.evaluates b = true →
    (s.dev.bl b).jobs = [] →
    x.stage < s.dev.stageCount a →
    RunsKeep (.stageComplete t b a .none) s fun e =>
      (e.axLaw b a).run.map LawRun.stage = some (x.stage + 1) ∧ (e.axLaw b a).run.map LawRun.job = some x.job ∧
      (e.axLaw b a).run = some (evalStage (s.dev.advance t) a x (Tab.get (s.dev.axLaw b a).ys x.job.cycle [])
        (fun q => ((s.dev.advance t).source b x.job.cycle q).getD none) (s.dev.stepField a x.job.sp.pos)).1 ∧
      Tab.find (Tab.get (e.axLaw b a).ys x.job.cycle []) x.stage = some (evalStage (s.dev.advance t) a x
        (Tab.get (s.dev.axLaw b a).ys x.job.cycle []) (fun q => ((s.dev.advance t).source b x.job.cycle q).getD none)
        (s.dev.stepField a x.job.sp.pos)).2 ∧
      SameRegs [] s.dev e ∧ e.eng.outs = s.dev.eng.outs ∧ e.segs = s.dev.segs ∧ e.gov = s.dev.gov ∧ e.line = s.dev.line ∧ e.prof = s.dev.prof ∧ e.safe = s.dev.safe ∧ e.fb = s.dev.fb ∧ SameHostRegs [] s.dev e) ∧
  (∀ (s : State) (t a : Nat) (b : Blade) (x : LawRun),
    s.dev.md.fieldReset = false →
    (s.dev.axLaw b a).run = some x →
    s.dev.evaluates b = true →
    (s.dev.bl b).jobs = [] →
    x.stage < s.dev.stageCount a →
    RunsKeep (.stageComplete t b a .once) s fun e =>
      (e.axLaw b a).run.map LawRun.stage = some (x.stage + 1) ∧
      e.rd (resRecord b) 1 0 = ((sat32 (s.dev.rn (resRecord b) 1 0 + 1) : Nat) : Int) ∧
      e.rd (resRecord b) 3 0 = ((sat32 (s.dev.rn (resRecord b) 3 0 + 1) : Nat) : Int) ∧
      SameRegs [(resRecord b, 1), (resRecord b, 3), (resRecord b, 5)] s.dev e ∧ e.eng.outs = s.dev.eng.outs ∧ e.segs = s.dev.segs ∧ e.gov = s.dev.gov ∧ e.line = s.dev.line ∧ e.prof = s.dev.prof ∧ e.safe = s.dev.safe ∧ e.fb = s.dev.fb ∧ SameHostRegs [] s.dev e) ∧
  (∀ (s : State) (t a : Nat) (b : Blade) (x : LawRun),
    s.dev.md.fieldReset = false →
    (s.dev.axLaw b a).run = some x →
    s.dev.evaluates b = true →
    (s.dev.bl b).jobs = [] →
    x.stage < s.dev.stageCount a →
    RunsKeep (.stageComplete t b a .twice) s fun e =>
      (e.axLaw b a).run = none ∧ (e.axLaw b a).dropped = some x.job.cycle ∧ (e.bl b).reports = (s.dev.bl b).reports ++ [2] ∧
      e.rd (resRecord b) 2 0 = ((sat32 (s.dev.rn (resRecord b) 2 0 + 1) : Nat) : Int) ∧
      e.rd (resRecord b) 4 0 = ((sat32 (s.dev.rn (resRecord b) 4 0 + 1) : Nat) : Int) ∧
      Raised s.dev e 0x8C (leBytes (bladeNum b) 1 ++ leBytes a 2 ++ leBytes x.stage 1) ∧
      SameRegs [(resRecord b, 2), (resRecord b, 4), (resRecord b, 6)] s.dev e ∧ e.eng.outs = s.dev.eng.outs ∧ e.segs = s.dev.segs ∧ e.gov = s.dev.gov ∧ e.line = s.dev.line ∧ e.prof = s.dev.prof ∧ e.safe = s.dev.safe ∧ e.fb = s.dev.fb ∧ SameHostRegs [] s.dev e) ∧
  (∀ (s : State) (t a : Nat) (b : Blade) (x : LawRun) (bad : Bool),
    s.dev.md.fieldReset = false →
    (s.dev.axLaw b a).run = some x →
    s.dev.evaluates b = true →
    (s.dev.bl b).jobs = [] →
    x.stage = s.dev.stageCount a →
    RunsKeep (.lawComplete t b a bad) s fun e =>
      (e.axLaw b a).run = none ∧ (e.axLaw b a).done = some x.job.cycle ∧ (e.axLaw b a).out = assemble (s.dev.loOf a) x.outs ∧
      (e.axLaw b a).vecs = x.vecs ∧ (e.axLaw b a).first = false ∧
      SameRegs [(0x2150, 3), (0x2150, 4), (0x2160, 9), (0x2160, 10), (0x2170, 1), (0x2170, 3), (0x2170, 4)] s.dev e ∧ e.segs = s.dev.segs ∧ e.gov = s.dev.gov ∧ e.line = s.dev.line ∧ e.prof = s.dev.prof ∧ e.safe = s.dev.safe ∧ e.fb = s.dev.fb ∧ SameHostRegs [] s.dev e) ∧
  (∀ (s : State) (t a : Nat) (b : Blade) (x : LawRun),
    s.dev.md.fieldReset = false →
    (s.dev.axLaw b a).run = some x →
    s.dev.evaluates b = true →
    (s.dev.bl b).jobs = [] →
    x.stage = s.dev.stageCount a →
    s.dev.active = some b →
    s.dev.eng.cutFor = some x.job.cycle →
    RunsKeep (.lawComplete t b a false) s fun e =>
      Tab.find e.eng.outs a = some (assemble (s.dev.loOf a) x.outs) ∧ e.eng.fresh.contains (.axis a) = true ∧
      e.rd 0x2160 9 a = ((s.dev.advance t).sinceLatch x.job.cycle : Int) ∧ e.eng.recopy = s.dev.eng.recopy) ∧
  (∀ (s : State) (t a : Nat) (b : Blade) (x : LawRun),
    s.dev.md.fieldReset = false →
    (s.dev.axLaw b a).run = some x →
    s.dev.evaluates b = true →
    (s.dev.bl b).jobs = [] →
    x.stage = s.dev.stageCount a →
    s.dev.active = some b →
    s.dev.eng.cutFor = some x.job.cycle →
    RunsKeep (.lawComplete t b a true) s fun e =>
      e.eng.recopy = s.dev.eng.recopy ++ [(b, .axis a)] ∧ e.eng.outs = s.dev.eng.outs ∧ e.eng.fresh = s.dev.eng.fresh)

/-- An output asked for once more that now passes its check counts as transient for the blade in 9030h:7 or 9031h:7 and goes to the frame writer if it is of the cycle in progress; one that fails again counts in element 8 and is reported to the Judge as cause 3. A cut-off command at L_k + P + 500 ns or later closes frame k+1 with the slots of the enabled axes, leaves no output written for the next one, and makes the cut-off of cycle k+1 the next; an earlier one changes time only. (R246, R248, R274, R278) -/
def Obligations.OutputsAreCheckedAndFramesClose : Prop :=
  (∀ (s : State) (t a k : Nat) (b : Blade),
    s.dev.md.fieldReset = false →
    s.dev.eng.recopy.contains (b, .axis a) = true →
    (s.dev.axLaw b a).done = some k →
    s.dev.eng.cutFor = some k →
    s.dev.writes b = true →
    RunsKeep (.outputRecopy t b (.axis a) true) s fun e =>
      Tab.find e.eng.outs a = some (s.dev.axLaw b a).out ∧ e.eng.fresh.contains (.axis a) = true ∧
      e.eng.recopy = s.dev.eng.recopy.erase (b, .axis a) ∧
      e.rd (0x9030 + bladeNum b) 7 0 = ((sat32 (s.dev.rn (0x9030 + bladeNum b) 7 0 + 1) : Nat) : Int) ∧
      SameRegs [(0x9030 + bladeNum b, 7), (resRecord b, 1), (resRecord b, 3), (resRecord b, 5)] s.dev e ∧ e.segs = s.dev.segs ∧ e.gov = s.dev.gov ∧ e.line = s.dev.line ∧ e.prof = s.dev.prof ∧ e.safe = s.dev.safe ∧ e.fb = s.dev.fb ∧ SameHostRegs [] s.dev e) ∧
  (∀ (s : State) (t a : Nat) (b : Blade),
    s.dev.md.fieldReset = false →
    s.dev.eng.recopy.contains (b, .axis a) = true →
    RunsKeep (.outputRecopy t b (.axis a) false) s fun e =>
      (e.bl b).reports = (s.dev.bl b).reports ++ [3] ∧ e.eng.outs = s.dev.eng.outs ∧
      e.rd (0x9030 + bladeNum b) 8 0 = ((sat32 (s.dev.rn (0x9030 + bladeNum b) 8 0 + 1) : Nat) : Int) ∧
      SameRegs [(0x9030 + bladeNum b, 8), (resRecord b, 2), (resRecord b, 4), (resRecord b, 6)] s.dev e ∧ e.segs = s.dev.segs ∧ e.gov = s.dev.gov ∧ e.line = s.dev.line ∧ e.prof = s.dev.prof ∧ e.safe = s.dev.safe ∧ e.fb = s.dev.fb ∧ SameHostRegs [] s.dev e) ∧
  (∀ (s : State) (t k : Nat),
    s.dev.md.fieldReset = false →
    s.dev.eng.cutFor = some k →
    s.dev.tm.cycle = k + 1 →
    (s.dev.tm.latchNs + 500) * 1000 ≤ t →
    RunsKeep (.outputCutoff t) s fun e =>
      e.eng.cutFor = some (k + 1) ∧ e.eng.outs = [] ∧ e.eng.uouts = [] ∧ e.eng.fresh = [] ∧
      e.eng.closed.map Prod.fst = s.dev.enabledAxes ∧ e.segs = s.dev.segs ∧ e.fb = s.dev.fb ∧ SameHostRegs [] s.dev e) ∧
  (∀ (s : State) (t k : Nat),
    s.dev.eng.cutFor = some k →
    max s.dev.now t < (s.dev.tm.latchNs + 500) * 1000 →
    RunsKeep (.outputCutoff t) s fun e => e = s.dev.advance t)

/-- FaultAck of a faulted axis whose torque is off and whose cause does not persist waits for the boundary; there State reads 1, the cause 0, and event 8Ah is raised. ForceRegion FFh, or a region the thresholds give, takes its place at the boundary. SwapRequest in Prepare with redundancy state 0 and no takeover, revocation or swap in progress is due at the next cut-off. (R251, R263, R291) -/
def Obligations.RequestsJudgedAtStepEleven : Prop :=
  (∀ (s : State) (t axis : Nat) (req : Req),
    s.dev.Admits req 0x2160 5 axis [1] = true →
    s.dev.axState axis = 3 →
    s.dev.rb 0x2000 1 axis = true →
    s.dev.torqueOff axis = true →
    s.dev.faultPersists axis = false →
    RunsKeep (.writeFaultAck t req axis) s fun e =>
      DueAtBoundary s.dev e req 0x2160 5 axis (.num 1) ∧ (e.dueApply 0x2160 5 axis (.num 1)).rd 0x2160 3 axis = 1 ∧
      (e.dueApply 0x2160 5 axis (.num 1)).rd 0x2160 4 axis = 0 ∧ Raised e (e.dueApply 0x2160 5 axis (.num 1)) 0x8A (leBytes axis 2) ∧
      SameRegs [] s.dev e ∧ SameHostRegs [] s.dev e ∧ SameMotion s.dev e) ∧
  (∀ (s : State) (t axis value : Nat) (req : Req),
    s.dev.Admits req 0x2170 2 axis (leBytes value 1) = true →
    value = 255 ∨ value < s.dev.regions axis →
    value < 256 →
    RunsKeep (.writeForceRegion t req axis value) s fun e =>
      DueAtBoundary s.dev e req 0x2170 2 axis (.num value) ∧ (e.dueApply 0x2170 2 axis (.num value)).rd 0x2170 2 axis = (value : Int) ∧
      SameRegs [] s.dev e ∧ SameHostRegs [] s.dev e ∧ SameMotion s.dev e) ∧
  (∀ (s : State) (t : Nat) (req : Req),
    s.dev.Admits req 0x9020 3 0 [1] = true →
    s.dev.mode = 2 →
    s.dev.redundancy = 0 →
    s.dev.eng.takeover = none →
    s.dev.eng.revoking = none →
    s.dev.eng.swapDue = false →
    RunsKeep (.writeSwapRequest t req) s fun e =>
      DueAtBoundary s.dev e req 0x9020 3 0 (.num 1) ∧ (e.dueApply 0x9020 3 0 (.num 1)).eng.swapDue = true ∧
      SameRegs [] s.dev e ∧ SameHostRegs [] s.dev e ∧ SameMotion s.dev e)

/-- At the end of an evaluation interval with slack below target the governor commands VCommanded + StepSize, clamped to VMin and VMax, counts a raise and sends VOUT_COMMAND. SettleTime after the write it reads READ_VOUT; a reading within 20 mV of VCommanded stands in VRead. A transaction that fails is sent again; one that fails again counts in PmbusLasting, raises event 8Fh and makes GovState 3. (R267, R268, R269, R270) -/
def Obligations.GovernorStepsTheCoreVoltage : Prop :=
  (∀ (s : State) (t : Nat) (p : Int × Int),
    s.dev.md.fieldReset = false →
    s.dev.govOn = true →
    s.dev.gov.evalAt ≤ t →
    s.dev.gov.smin = some p →
    p.1 * 100 < (s.dev.gv 4 : Int) * p.2 →
    s.dev.gov.trans = 0 →
    max (s.dev.gv 7) (min (s.dev.gv 8) (s.dev.gv 12 + s.dev.gv 6)) ≠ s.dev.gv 12 →
    RunsKeep (.governorEvalInterval t) s fun e =>
      e.rd 0x9010 12 0 = ((max (s.dev.gv 7) (min (s.dev.gv 8) (s.dev.gv 12 + s.dev.gv 6)) : Nat) : Int) ∧
      e.rd 0x9010 15 0 = ((sat32 (s.dev.gv 15 + 1) : Nat) : Int) ∧ e.gov.smin = none ∧ e.gov.raised = false ∧ e.gov.trans = 3 ∧
      e.out = s.dev.out ++ [.pmbus (s.dev.gv 2) pmCommand (voutWord (e.gv 12) s.dev.gov.exp)] ∧
      SameRegs [(0x9010, 12), (0x9010, 15)] s.dev e ∧ SameHostRegs [] s.dev e ∧ e.eng = s.dev.eng ∧ e.line = s.dev.line ∧ e.prof = s.dev.prof) ∧
  (∀ (s : State) (t x : Nat) (again : Bool) (rest : List (Nat × Bool)),
    s.dev.md.fieldReset = false →
    s.dev.gov.settles = (x, again) :: rest →
    s.dev.gov.trans = 0 →
    x ≤ t →
    RunsKeep (.governorSettle t) s fun e =>
      e.gov = { s.dev.gov with settles := rest, readAgain := again, trans := 4 } ∧ e.out = s.dev.out ++ [.pmbus (s.dev.gv 2) pmRead 0] ∧
      SameRegs [] s.dev e ∧ SameHostRegs [] s.dev e ∧ e.eng = s.dev.eng ∧ e.line = s.dev.line ∧ e.prof = s.dev.prof) ∧
  (∀ (s : State) (t data : Nat),
    s.dev.md.fieldReset = false →
    s.dev.gov.trans = 4 →
    s.dev.gov.restart = false →
    s.dev.gov.again = false →
    s.dev.gov.want = false →
    s.dev.gov.readAgain = false →
    s.dev.gv 12 ≤ voutMv data s.dev.gov.exp + 20 →
    voutMv data s.dev.gov.exp ≤ s.dev.gv 12 + 20 →
    RunsKeep (.pmbusTransactionComplete t true true data) s fun e =>
      e.rd 0x9010 13 0 = (voutMv data s.dev.gov.exp : Int) ∧ e.gov.trans = 0 ∧ e.out = s.dev.out ∧
      SameRegs [(0x9010, 13)] s.dev e ∧ SameHostRegs [] s.dev e ∧ e.eng = s.dev.eng ∧ e.line = s.dev.line ∧ e.prof = s.dev.prof) ∧
  (∀ (s : State) (t data : Nat),
    s.dev.md.fieldReset = false →
    s.dev.gov.trans = 2 →
    s.dev.gov.restart = false →
    s.dev.gov.again = false →
    bits data 7 5 = 0 →
    RunsKeep (.pmbusTransactionComplete t true true data) s fun e =>
      e.gov.linked = true ∧ e.gov.exp = toSigned 5 (data % 32) ∧ e.rd 0x9010 12 0 = (s.dev.gv 9 : Int) ∧ e.gov.trans = 3 ∧
      e.out = s.dev.out ++ [.pmbus (s.dev.gv 2) pmCommand (voutWord (s.dev.gv 9) (toSigned 5 (data % 32)))] ∧
      SameRegs [(0x9010, 12)] s.dev e ∧ SameHostRegs [] s.dev e) ∧
  (∀ (s : State) (t data : Nat) (ack pec : Bool),
    s.dev.md.fieldReset = false →
    s.dev.gov.trans = 4 →
    s.dev.gov.restart = false →
    s.dev.gov.again = false →
    (ack && pec) = false →
    RunsKeep (.pmbusTransactionComplete t ack pec data) s fun e =>
      e.gov = { s.dev.gov with again := true } ∧ e.out = s.dev.out ++ [.pmbus (s.dev.gv 2) pmRead 0] ∧
      SameRegs [] s.dev e ∧ SameHostRegs [] s.dev e) ∧
  (∀ (s : State) (t data : Nat) (ack pec : Bool),
    s.dev.md.fieldReset = false →
    s.dev.gov.trans ≠ 0 →
    s.dev.gov.restart = false →
    s.dev.gov.again = true →
    (ack && pec) = false →
    RunsKeep (.pmbusTransactionComplete t ack pec data) s fun e =>
      e.rd 0x9010 14 0 = 3 ∧ e.rd 0x9010 18 0 = ((sat32 (s.dev.gv 18 + 1) : Nat) : Int) ∧ e.gov.trans = 0 ∧ Raised s.dev e 0x8F [] ∧
      SameRegs [(0x9010, 14), (0x9010, 18)] s.dev e ∧ SameHostRegs [] s.dev e)

/-- A lost heartbeat of the active blade while the other is standby makes 9020h:1 name the other at once, with events 81h and 80h and cause 1. A fault report of an active or standby blade puts that blade into state 5 or, reset, into its self-test. The acknowledgement of a revocation, or 2.0 µs without one, ends it and resets the blade. A takeover that completes gives 9020h:8 its duration. A self-test without a failed unit makes the blade resynchronise; one with a failure makes it failed with event 82h. A lost Judge sets 9020h:2 to 2 with event 85h. (R273, R276, R277, R282, R283, R285, R287, R290) -/
def Obligations.JudgeFailsOverToTheStandby : Prop :=
  (∀ (s : State) (t : Nat) (b : Blade),
    s.dev.md.fieldReset = false →
    s.dev.rn 0x9020 2 0 = 1 →
    s.dev.active = some b →
    s.dev.blState b = 4 →
    s.dev.blState (bladeOther b) = 3 →
    RunsKeep (.bladeHeartbeatLoss t b) s fun e =>
      e.active = some (bladeOther b) ∧ e.blState (bladeOther b) = 4 ∧ e.blState b = 5 ∧ e.rd (0x9030 + bladeNum b) 2 0 = 1 ∧
      e.rd 0x9020 6 0 = 1 ∧ e.rd 0x9020 4 0 = ((sat32 (s.dev.rn 0x9020 4 0 + 1) : Nat) : Int) ∧
      e.eng.revoking = some (b, max s.dev.now t) ∧ e.out = s.dev.out ++ [.revoke b] ∧
      Raised s.dev e 0x81 (leBytes (bladeNum b) 1 ++ [1]) ∧ Raised s.dev e 0x80 [1] ∧ e.segs = s.dev.segs ∧ e.gov = s.dev.gov ∧ e.line = s.dev.line ∧ e.prof = s.dev.prof ∧ e.safe = s.dev.safe ∧ e.fb = s.dev.fb ∧ SameHostRegs [] s.dev e) ∧
  (∀ (s : State) (t cause : Nat) (b : Blade),
    s.dev.md.fieldReset = false →
    (s.dev.bl b).reports.contains cause = true →
    s.dev.active ≠ some b →
    s.dev.blState b = 3 →
    s.dev.rn (0x9030 + bladeNum b) 3 0 < s.dev.rn 0x9020 9 0 →
    s.dev.rn 0x9020 9 0 < 4294967295 →
    RunsKeep (.bladeLastingFault t b cause) s fun e =>
      e.blState b = 1 ∧ (e.bl b).testing = true ∧ e.rd (0x9030 + bladeNum b) 2 0 = (cause : Int) ∧
      e.rd (0x9030 + bladeNum b) 3 0 = ((s.dev.rn (0x9030 + bladeNum b) 3 0 + 1 : Nat) : Int) ∧ e.active = s.dev.active ∧
      Raised s.dev e 0x81 (leBytes (bladeNum b) 1 ++ leBytes cause 1) ∧ e.out = s.dev.out ∧ e.segs = s.dev.segs ∧ e.gov = s.dev.gov ∧ e.line = s.dev.line ∧ e.prof = s.dev.prof ∧ e.safe = s.dev.safe ∧ e.fb = s.dev.fb ∧ SameHostRegs [] s.dev e) ∧
  (∀ (s : State) (t x : Nat) (b : Blade),
    s.dev.md.fieldReset = false →
    s.dev.eng.revoking = some (b, x) →
    x ≤ t →
    s.dev.rn (0x9030 + bladeNum b) 3 0 ≤ s.dev.rn 0x9020 9 0 →
    RunsKeep (.revocationAck t b) s fun e =>
      e.eng.revoking = none ∧ e.blState b = 1 ∧ e.bl b = { testing := true } ∧
      e.rd (0x9030 + bladeNum b) 4 0 = ((sat32 (s.dev.rn (0x9030 + bladeNum b) 4 0 + 1) : Nat) : Int) ∧
      SameRegs [(0x9030 + bladeNum b, 1), (0x9030 + bladeNum b, 4)] s.dev e ∧ e.segs = s.dev.segs ∧ e.gov = s.dev.gov ∧ e.line = s.dev.line ∧ e.prof = s.dev.prof ∧ e.safe = s.dev.safe ∧ e.fb = s.dev.fb ∧ SameHostRegs [] s.dev e) ∧
  (∀ (s : State) (t x : Nat) (b : Blade),
    s.dev.md.fieldReset = false →
    s.dev.eng.revoking = some (b, x) →
    x + 2 * us ≤ t →
    s.dev.rn (0x9030 + bladeNum b) 3 0 ≤ s.dev.rn 0x9020 9 0 →
    RunsKeep (.revocationAckTimeout t b) s fun e => e.eng.revoking = none ∧ e.blState b = 1 ∧ e.bl b = { testing := true } ∧ e.segs = s.dev.segs ∧ e.gov = s.dev.gov ∧ e.line = s.dev.line ∧ e.prof = s.dev.prof ∧ e.safe = s.dev.safe ∧ e.fb = s.dev.fb ∧ SameHostRegs [] s.dev e) ∧
  (∀ (s : State) (t c x y : Nat) (b : Blade),
    s.dev.md.fieldReset = false →
    s.dev.eng.takeover = some (c, x, y) →
    s.dev.active = some b →
    RunsKeep (.takeoverComplete t) s fun e =>
      e.eng.takeover = none ∧ e.eng.replay = [] ∧ e.rd 0x9020 8 0 = (((max s.dev.now t - y) / 1000 : Nat) : Int) ∧
      SameRegs [(0x9020, 8)] s.dev e ∧ e.segs = s.dev.segs ∧ e.gov = s.dev.gov ∧ e.line = s.dev.line ∧ e.prof = s.dev.prof ∧ e.safe = s.dev.safe ∧ e.fb = s.dev.fb ∧ SameHostRegs [] s.dev e) ∧
  (∀ (s : State) (t : Nat) (b : Blade),
    s.dev.md.fieldReset = false →
    (s.dev.bl b).testing = true →
    RunsKeep (.bladeSelfTestComplete t b 0) s fun e =>
      e.blState b = 2 ∧ (e.bl b).testing = false ∧ (e.bl b).resync = some 0 ∧
      SameRegs [(0x9030 + bladeNum b, 1), (0x9030 + bladeNum b, 5)] s.dev e ∧ e.segs = s.dev.segs ∧ e.gov = s.dev.gov ∧ e.line = s.dev.line ∧ e.prof = s.dev.prof ∧ e.safe = s.dev.safe ∧ e.fb = s.dev.fb ∧ SameHostRegs [] s.dev e) ∧
  (∀ (s : State) (t units : Nat) (b : Blade),
    s.dev.md.fieldReset = false →
    (s.dev.bl b).testing = true →
    units ≠ 0 →
    RunsKeep (.bladeSelfTestComplete t b units) s fun e =>
      e.blState b = 5 ∧ e.rd (0x9030 + bladeNum b) 2 0 = 5 ∧ e.rd (0x9030 + bladeNum b) 5 0 = (units : Int) ∧
      Raised s.dev e 0x82 (leBytes (bladeNum b) 1) ∧ SameRegs [(0x9030 + bladeNum b, 1), (0x9030 + bladeNum b, 2), (0x9030 + bladeNum b, 5)] s.dev e ∧ e.segs = s.dev.segs ∧ e.gov = s.dev.gov ∧ e.line = s.dev.line ∧ e.prof = s.dev.prof ∧ e.safe = s.dev.safe ∧ e.fb = s.dev.fb ∧ SameHostRegs [] s.dev e) ∧
  (∀ (s : State) (t : Nat),
    s.dev.md.fieldReset = false →
    s.dev.rn 0x9020 2 0 ≠ 2 →
    RunsKeep (.judgeHeartbeatLoss t) s fun e =>
      e.rd 0x9020 2 0 = 2 ∧ Raised s.dev e 0x85 [] ∧ e.eng.swapDue = false ∧ e.bl .a = s.dev.bl .a ∧ e.bl .b = s.dev.bl .b ∧
      SameRegs [(0x9020, 2)] s.dev e ∧ e.segs = s.dev.segs ∧ e.gov = s.dev.gov ∧ e.line = s.dev.line ∧ e.prof = s.dev.prof ∧ e.safe = s.dev.safe ∧ e.fb = s.dev.fb ∧ SameHostRegs [] s.dev e)

/-- A completed law takes the oldest input of its unit, gives the state and output that the law of R307 gives, is handed to the frame writer by the active blade, and 3040h:3 to 8 read its values. A unit that has waited 100 ms on a dead bus is ready to ramp, one synchronised for 100 ms commands its breaker closed, one whose breaker does not close in BreakerTime trips, one that has met the recovery limits for RecoverTime recovers and one riding for MaxRideTime trips: each of these is noted for the next boundary. (R306, R307, R311, R313, R315, R318, R319, R321) -/
def Obligations.LineLawsAndTheirTimers : Prop :=
  (∀ (s : State) (t unit : Nat) (b : Blade) (j : LineJob) (rest : List LineJob) (bad : Bool),
    s.dev.md.fieldReset = false →
    (s.dev.units.any fun u => (s.dev.advance t).lineReady u s.dev.tm.cycle) = false →
    (s.dev.lineLaw b unit).jobs = j :: rest →
    s.dev.evaluates b = true →
    Tab.find (s.dev.bl b).lanes (28 + unit % 4) = some (.unit unit) →
    RunsKeep (.lineLawComplete t b unit bad) s fun e =>
      e.lineLaw b unit = { (lineEval (s.dev.lineLaw b unit) (s.dev.lineParam unit) j).1 with jobs := rest } ∧
      (s.dev.active ≠ some b → SameRegs [] s.dev e) ∧
      SameRegs [(0x3040, 3), (0x3040, 4), (0x3040, 5), (0x3040, 6), (0x3040, 7), (0x3040, 8), (0x3050, 1), (0x3050, 2), (0x3050, 3)] s.dev e ∧
      e.segs = s.dev.segs ∧ e.gov = s.dev.gov ∧ e.prof = s.dev.prof ∧ e.safe = s.dev.safe ∧ e.fb = s.dev.fb ∧ SameHostRegs [] s.dev e) ∧
  (∀ (s : State) (t unit : Nat) (b : Blade) (j : LineJob) (rest : List LineJob),
    s.dev.md.fieldReset = false →
    (s.dev.units.any fun u => (s.dev.advance t).lineReady u s.dev.tm.cycle) = false →
    (s.dev.lineLaw b unit).jobs = j :: rest →
    s.dev.evaluates b = true →
    Tab.find (s.dev.bl b).lanes (28 + unit % 4) = some (.unit unit) →
    s.dev.active = some b →
    s.dev.eng.cutFor = some j.cycle →
    RunsKeep (.lineLawComplete t b unit false) s fun e =>
      Tab.find e.eng.uouts unit = some (e.lineLaw b unit).out ∧ e.rd 0x3040 3 unit = (f32Of (e.lineLaw b unit).w.val : Int) ∧
      e.rd 0x3040 5 unit = (f32Of (e.lineLaw b unit).pf.val : Int) ∧ e.rd 0x3040 6 unit = (f32Of (e.lineLaw b unit).qf.val : Int)) ∧
  (∀ (s : State) (t unit x : Nat),
    s.dev.md.fieldReset = false →
    (s.dev.lu unit).deadAt = some x →
    s.dev.luState unit = 2 →
    x + 100 * ms ≤ t →
    RunsKeep (.deadBusTimer t unit) s fun e =>
      e.lu unit = { s.dev.lu unit with deadDue := true } ∧ e.out = s.dev.out ∧ SameRegs [] s.dev e ∧ e.segs = s.dev.segs ∧ e.eng = s.dev.eng ∧ e.gov = s.dev.gov ∧ e.prof = s.dev.prof ∧ e.safe = s.dev.safe ∧ e.fb = s.dev.fb ∧ SameHostRegs [] s.dev e) ∧
  (∀ (s : State) (t unit x : Nat),
    s.dev.md.fieldReset = false →
    (s.dev.lu unit).syncAt = some x →
    s.dev.luState unit = 4 →
    (s.dev.lu unit).closing = false →
    x + 100 * ms ≤ t →
    RunsKeep (.syncCloseTimer t unit) s fun e =>
      e.lu unit = { s.dev.lu unit with closing := true, closeAt := some (max s.dev.now t) } ∧ e.out = s.dev.out ∧ SameRegs [] s.dev e ∧ e.segs = s.dev.segs ∧ e.eng = s.dev.eng ∧ e.gov = s.dev.gov ∧ e.prof = s.dev.prof ∧ e.safe = s.dev.safe ∧ e.fb = s.dev.fb ∧ SameHostRegs [] s.dev e) ∧
  (∀ (s : State) (t unit x : Nat),
    s.dev.md.fieldReset = false →
    (s.dev.lu unit).closeAt = some x →
    s.dev.luState unit = 3 ∨ s.dev.luState unit = 4 →
    s.dev.rb 0x3040 10 unit = false →
    x + s.dev.rn 0x3020 8 unit * ms ≤ t →
    RunsKeep (.breakerTimeout t unit) s fun e =>
      e.lu unit = { s.dev.lu unit with breakerLate := true } ∧ e.out = s.dev.out ∧ SameRegs [] s.dev e ∧ e.segs = s.dev.segs ∧ e.eng = s.dev.eng ∧ e.gov = s.dev.gov ∧ e.prof = s.dev.prof ∧ e.safe = s.dev.safe ∧ e.fb = s.dev.fb ∧ SameHostRegs [] s.dev e) ∧
  (∀ (s : State) (t unit x : Nat),
    s.dev.md.fieldReset = false →
    (s.dev.lu unit).recAt = some x →
    s.dev.luState unit = 6 →
    x + s.dev.rn 0x3020 15 unit * ms ≤ t →
    RunsKeep (.rideRecoverTimer t unit) s fun e =>
      e.lu unit = { s.dev.lu unit with recDue := true } ∧ e.out = s.dev.out ∧ SameRegs [] s.dev e ∧ e.segs = s.dev.segs ∧ e.eng = s.dev.eng ∧ e.gov = s.dev.gov ∧ e.prof = s.dev.prof ∧ e.safe = s.dev.safe ∧ e.fb = s.dev.fb ∧ SameHostRegs [] s.dev e) ∧
  (∀ (s : State) (t unit : Nat),
    s.dev.md.fieldReset = false →
    s.dev.luState unit = 6 →
    (s.dev.lu unit).rideAt + s.dev.rn 0x3020 16 unit * ms ≤ t →
    RunsKeep (.maxRideTimeExpiry t unit) s fun e =>
      e.lu unit = { s.dev.lu unit with rideLong := true } ∧ e.out = s.dev.out ∧ SameRegs [] s.dev e ∧ e.segs = s.dev.segs ∧ e.eng = s.dev.eng ∧ e.gov = s.dev.gov ∧ e.prof = s.dev.prof ∧ e.safe = s.dev.safe ∧ e.fb = s.dev.fb ∧ SameHostRegs [] s.dev e)

/-- Start of an Idle unit in Run, Stop in states 2 to 6, and ResetTrip of a tripped unit whose cause no longer holds, are accepted and act at the next boundary; so are Resume of a released group in Run whose unit forms, and Release of a group that is Gliding, Holding or Returning. A unit exhausted for ExhaustTime raises event A9h, in Run and Ride-through the cause of Safe-hold. A stuck sigma-delta input raises event A6h, is counted at its PCC and shown faulted; 16 ms later it recovers. (R305, R312, R335, R337, R339, R43) -/
def Obligations.LineAndGlideCommands : Prop :=
  (∀ (s : State) (t unit : Nat) (req : Req),
    s.dev.Admits req 0x3030 5 unit [1] = true →
    s.dev.mode = 3 →
    s.dev.luState unit = 1 →
    RunsKeep (.lineStart t req unit) s fun e =>
      DueAtBoundary s.dev e req 0x3030 5 unit (.num 1) ∧ ((e.dueApply 0x3030 5 unit (.num 1)).lu unit).cmd = some 1 ∧
      (e.dueApply 0x3030 5 unit (.num 1)).rd 0x3030 5 unit = s.dev.rd 0x3030 5 unit ∧
      SameRegs [] s.dev e ∧ SameHostRegs [] s.dev e ∧ SameMotion s.dev e) ∧
  (∀ (s : State) (t unit : Nat) (req : Req),
    s.dev.Admits req 0x3030 5 unit [2] = true →
    2 ≤ s.dev.luState unit →
    s.dev.luState unit ≤ 6 →
    RunsKeep (.lineStop t req unit) s fun e =>
      DueAtBoundary s.dev e req 0x3030 5 unit (.num 2) ∧ ((e.dueApply 0x3030 5 unit (.num 2)).lu unit).cmd = some 2 ∧
      (e.dueApply 0x3030 5 unit (.num 2)).rd 0x3030 5 unit = s.dev.rd 0x3030 5 unit ∧
      SameRegs [] s.dev e ∧ SameHostRegs [] s.dev e ∧ SameMotion s.dev e) ∧
  (∀ (s : State) (t unit : Nat) (req : Req),
    s.dev.Admits req 0x3030 5 unit [3] = true →
    s.dev.luState unit = 7 →
    (s.dev.tripCauses unit 7).contains (s.dev.rn 0x3040 2 unit) = false →
    RunsKeep (.lineResetTrip t req unit) s fun e =>
      DueAtBoundary s.dev e req 0x3030 5 unit (.num 3) ∧ ((e.dueApply 0x3030 5 unit (.num 3)).lu unit).cmd = some 3 ∧
      (e.dueApply 0x3030 5 unit (.num 3)).rd 0x3030 5 unit = s.dev.rd 0x3030 5 unit ∧
      SameRegs [] s.dev e ∧ SameHostRegs [] s.dev e ∧ SameMotion s.dev e) ∧
  (∀ (s : State) (t group : Nat) (req : Req),
    group < 8 →
    s.dev.Admits req (0x3110 + group) 2 0 [1] = true →
    s.dev.ggState group = 5 →
    s.dev.mode = 3 →
    s.dev.luState (s.dev.ggUnit group) = 5 →
    RunsKeep (.glideResume t req group) s fun e =>
      DueAtBoundary s.dev e req (0x3110 + group) 2 0 (.num 1) ∧ ((e.dueApply (0x3110 + group) 2 0 (.num 1)).gg group).cmd = some 1 ∧
      SameRegs [] s.dev e ∧ SameHostRegs [] s.dev e ∧ SameMotion s.dev e) ∧
  (∀ (s : State) (t group : Nat) (req : Req),
    group < 8 →
    s.dev.Admits req (0x3110 + group) 2 0 [2] = true →
    2 ≤ s.dev.ggState group →
    s.dev.ggState group ≤ 4 →
    RunsKeep (.glideRelease t req group) s fun e =>
      DueAtBoundary s.dev e req (0x3110 + group) 2 0 (.num 2) ∧ ((e.dueApply (0x3110 + group) 2 0 (.num 2)).gg group).cmd = some 2 ∧
      SameRegs [] s.dev e ∧ SameHostRegs [] s.dev e ∧ SameMotion s.dev e) ∧
  (∀ (s : State) (t unit x : Nat),
    s.dev.md.fieldReset = false →
    (s.dev.lu unit).exhAt = some x →
    (s.dev.lu unit).exhausted = false →
    s.dev.exhausting unit = true →
    x + s.dev.rn 0x3060 5 unit * ms ≤ t →
    s.dev.mode = 3 ∨ s.dev.mode = 4 →
    s.dev.md.cause = none →
    RunsKeep (.glideExhaustTimer t unit) s fun e =>
      e.lu unit = { s.dev.lu unit with exhausted := true } ∧ e.md.cause = some 0xA9 ∧ Raised s.dev e 0xA9 (leBytes unit 1) ∧
      SameRegs [] s.dev e ∧ e.segs = s.dev.segs ∧ e.eng = s.dev.eng ∧ e.gov = s.dev.gov ∧ e.prof = s.dev.prof ∧ e.safe = s.dev.safe ∧ e.fb = s.dev.fb ∧ SameHostRegs [] s.dev e) ∧
  (∀ (s : State) (t input : Nat),
    s.dev.md.fieldReset = false →
    input < 16 →
    s.dev.rb 0x3080 2 0 = true →
    s.dev.line.faulted.contains input = false →
    s.dev.rn 0x3080 (3 + input) 0 / 16 = 1 →
    RunsKeep (.sigmaDeltaStuck t input) s fun e =>
      e.line.faulted = input :: s.dev.line.faulted ∧ Raised s.dev e 0xA6 (leBytes input 1) ∧
      e.rd 0x3090 6 0 = ((sat32 (s.dev.rn 0x3090 6 0 + 1) : Nat) : Int) ∧
      SameRegs [(0x3090, 1), (0x3090, 5), (0x3090, 6), (0x3091, 1), (0x3091, 5)] s.dev e ∧ e.segs = s.dev.segs ∧ e.eng = s.dev.eng ∧ e.gov = s.dev.gov ∧ e.prof = s.dev.prof ∧ e.safe = s.dev.safe ∧ e.fb = s.dev.fb ∧ SameHostRegs [] s.dev e) ∧
  (∀ (s : State) (t input : Nat),
    s.dev.md.fieldReset = false →
    Tab.get s.dev.line.stuckAt input 0 + 16 * ms ≤ t →
    RunsKeep (.sigmaDeltaRecovery t input) s fun e =>
      e.line.faulted = s.dev.line.faulted.filter (fun n => n != input) ∧ e.out = s.dev.out ∧
      SameRegs [(0x3090, 1), (0x3090, 5), (0x3091, 1), (0x3091, 5)] s.dev e ∧ e.segs = s.dev.segs ∧ e.eng = s.dev.eng ∧ e.gov = s.dev.gov ∧ e.prof = s.dev.prof ∧ e.safe = s.dev.safe ∧ e.fb = s.dev.fb ∧ SameHostRegs [] s.dev e)

/-- In Run and Ride-through, for an axis in state 2 with no stop ramp and no homing: a move within the limits of 2200h and fewer than 16 queued, a velocity command within them, gear and cam commands with a permitted master, and homing at standstill with an empty queue and what its method needs, are accepted; the stop ramp always is. Each joins the commands of its axis, which are taken at the next cycle boundary. The hard stop held for 10 ms gives the homing its reference; a homing that lasts HomingTime fails with code 10h. (R350, R351, R352, R363, R365, R367) -/
def Obligations.ProfileCommands : Prop :=
  (∀ (s : State) (t axis : Nat) (req : Req),
    s.dev.Admits req 0x2210 8 axis [1] = true →
    s.dev.mode = 3 ∨ s.dev.mode = 4 →
    s.dev.axState axis = 2 →
    s.dev.pfState axis ≠ 7 →
    s.dev.pfState axis ≠ 8 →
    (s.dev.apf axis).queue.length + (if (s.dev.apf axis).mot.kind == 1 then 1 else 0) + ((s.dev.apf axis).cmds.filter (· == 1)).length < 16 →
    inRange (s.dev.rf 0x2210 3 axis) (s.dev.rf 0x2200 1 axis) = true →
    inRange (s.dev.rf 0x2210 4 axis) (s.dev.rf 0x2200 2 axis) = true →
    inRange (s.dev.rf 0x2210 5 axis) (s.dev.rf 0x2200 2 axis) = true →
    inRange (s.dev.rf 0x2210 6 axis) (s.dev.rf 0x2200 3 axis) = true →
    RunsKeep (.moveAppend t req axis) s fun e =>
      DueAtBoundary s.dev e req 0x2210 8 axis (.num 1) ∧ e.apf axis = { s.dev.apf axis with cmds := (s.dev.apf axis).cmds ++ [1] } ∧
      (∀ k ∈ List.range 512, k ≠ axis → e.apf k = s.dev.apf k) ∧ SameRegs [] s.dev e ∧ e.segs = s.dev.segs ∧ e.eng = s.dev.eng ∧ e.gov = s.dev.gov ∧ e.line = s.dev.line ∧ e.safe = s.dev.safe ∧ e.fb = s.dev.fb ∧ SameHostRegs [] s.dev e) ∧
  (∀ (s : State) (t axis : Nat) (req : Req),
    s.dev.Admits req 0x2210 8 axis [2] = true →
    s.dev.mode = 3 ∨ s.dev.mode = 4 →
    s.dev.axState axis = 2 →
    s.dev.pfState axis ≠ 7 →
    s.dev.pfState axis ≠ 8 →
    (s.dev.rf 0x2200 1 axis).lt (s.dev.rf 0x2210 3 axis).abs = false →
    inRange (s.dev.rf 0x2210 4 axis) (s.dev.rf 0x2200 2 axis) = true →
    inRange (s.dev.rf 0x2210 5 axis) (s.dev.rf 0x2200 2 axis) = true →
    inRange (s.dev.rf 0x2210 6 axis) (s.dev.rf 0x2200 3 axis) = true →
    RunsKeep (.runVelocity t req axis) s fun e =>
      DueAtBoundary s.dev e req 0x2210 8 axis (.num 2) ∧ e.apf axis = { s.dev.apf axis with cmds := (s.dev.apf axis).cmds ++ [2] } ∧
      (∀ k ∈ List.range 512, k ≠ axis → e.apf k = s.dev.apf k) ∧ SameRegs [] s.dev e ∧ e.segs = s.dev.segs ∧ e.eng = s.dev.eng ∧ e.gov = s.dev.gov ∧ e.line = s.dev.line ∧ e.safe = s.dev.safe ∧ e.fb = s.dev.fb ∧ SameHostRegs [] s.dev e) ∧
  (∀ (s : State) (t axis : Nat) (req : Req),
    s.dev.Admits req 0x2210 8 axis [3] = true →
    s.dev.mode = 3 ∨ s.dev.mode = 4 →
    s.dev.axState axis = 2 →
    s.dev.pfState axis ≠ 7 →
    s.dev.pfState axis ≠ 8 →
    s.dev.gearBad axis 3 = false →
    RunsKeep (.engageGear t req axis) s fun e =>
      DueAtBoundary s.dev e req 0x2210 8 axis (.num 3) ∧ e.apf axis = { s.dev.apf axis with cmds := (s.dev.apf axis).cmds ++ [3] } ∧
      (∀ k ∈ List.range 512, k ≠ axis → e.apf k = s.dev.apf k) ∧ SameRegs [] s.dev e ∧ e.segs = s.dev.segs ∧ e.eng = s.dev.eng ∧ e.gov = s.dev.gov ∧ e.line = s.dev.line ∧ e.safe = s.dev.safe ∧ e.fb = s.dev.fb ∧ SameHostRegs [] s.dev e) ∧
  (∀ (s : State) (t axis : Nat) (req : Req),
    s.dev.Admits req 0x2210 8 axis [4] = true →
    s.dev.mode = 3 ∨ s.dev.mode = 4 →
    s.dev.axState axis = 2 →
    s.dev.pfState axis ≠ 7 →
    s.dev.pfState axis ≠ 8 →
    s.dev.gearBad axis 4 = false →
    RunsKeep (.engageCam t req axis) s fun e =>
      DueAtBoundary s.dev e req 0x2210 8 axis (.num 4) ∧ e.apf axis = { s.dev.apf axis with cmds := (s.dev.apf axis).cmds ++ [4] } ∧
      (∀ k ∈ List.range 512, k ≠ axis → e.apf k = s.dev.apf k) ∧ SameRegs [] s.dev e ∧ e.segs = s.dev.segs ∧ e.eng = s.dev.eng ∧ e.gov = s.dev.gov ∧ e.line = s.dev.line ∧ e.safe = s.dev.safe ∧ e.fb = s.dev.fb ∧ SameHostRegs [] s.dev e) ∧
  (∀ (s : State) (t axis : Nat) (req : Req),
    s.dev.Admits req 0x2210 8 axis [5] = true →
    s.dev.mode = 3 ∨ s.dev.mode = 4 →
    s.dev.axState axis = 2 →
    s.dev.pfState axis ≠ 7 →
    s.dev.pfState axis ≠ 8 →
    s.dev.standstill axis = true →
    (s.dev.apf axis).queue = [] →
    (s.dev.apf axis).mot.kind ≠ 1 →
    s.dev.homeLacks axis = false →
    RunsKeep (.home t req axis) s fun e =>
      DueAtBoundary s.dev e req 0x2210 8 axis (.num 5) ∧ e.apf axis = { s.dev.apf axis with cmds := (s.dev.apf axis).cmds ++ [5] } ∧
      (∀ k ∈ List.range 512, k ≠ axis → e.apf k = s.dev.apf k) ∧ SameRegs [] s.dev e ∧ e.segs = s.dev.segs ∧ e.eng = s.dev.eng ∧ e.gov = s.dev.gov ∧ e.line = s.dev.line ∧ e.safe = s.dev.safe ∧ e.fb = s.dev.fb ∧ SameHostRegs [] s.dev e) ∧
  (∀ (s : State) (t axis : Nat) (req : Req),
    s.dev.Admits req 0x2210 8 axis [6] = true →
    s.dev.mode = 3 ∨ s.dev.mode = 4 →
    s.dev.axState axis = 2 →
    RunsKeep (.stopRamp t req axis) s fun e =>
      DueAtBoundary s.dev e req 0x2210 8 axis (.num 6) ∧ e.apf axis = { s.dev.apf axis with cmds := (s.dev.apf axis).cmds ++ [6] } ∧
      (∀ k ∈ List.range 512, k ≠ axis → e.apf k = s.dev.apf k) ∧ SameRegs [] s.dev e ∧ e.segs = s.dev.segs ∧ e.eng = s.dev.eng ∧ e.gov = s.dev.gov ∧ e.line = s.dev.line ∧ e.safe = s.dev.safe ∧ e.fb = s.dev.fb ∧ SameHostRegs [] s.dev e) ∧
  (∀ (s : State) (t axis : Nat) (req : Req),
    s.dev.Admits req 0x2210 8 axis [7] = true →
    s.dev.mode = 3 ∨ s.dev.mode = 4 →
    s.dev.axState axis = 2 →
    s.dev.pfState axis ≠ 7 →
    s.dev.pfState axis ≠ 8 →
    RunsKeep (.flush t req axis) s fun e =>
      DueAtBoundary s.dev e req 0x2210 8 axis (.num 7) ∧ e.apf axis = { s.dev.apf axis with cmds := (s.dev.apf axis).cmds ++ [7] } ∧
      (∀ k ∈ List.range 512, k ≠ axis → e.apf k = s.dev.apf k) ∧ SameRegs [] s.dev e ∧ e.segs = s.dev.segs ∧ e.eng = s.dev.eng ∧ e.gov = s.dev.gov ∧ e.line = s.dev.line ∧ e.safe = s.dev.safe ∧ e.fb = s.dev.fb ∧ SameHostRegs [] s.dev e) ∧
  (∀ (s : State) (t axis x : Nat) (h : HomeSt),
    s.dev.md.fieldReset = false →
    (s.dev.apf axis).homing = some h →
    h.hardAt = some x →
    h.step = 5 →
    h.ref = none →
    x + 10 * ms ≤ t →
    RunsKeep (.hardStopTimer t axis) s fun e =>
      e.apf axis = { s.dev.apf axis with homing := some { h with ref := some ((s.dev.apf axis).ext.getD 0) } } ∧
      (∀ k ∈ List.range 512, k ≠ axis → e.apf k = s.dev.apf k) ∧ SameRegs [] s.dev e ∧ e.segs = s.dev.segs ∧ e.eng = s.dev.eng ∧ e.gov = s.dev.gov ∧ e.line = s.dev.line ∧ e.safe = s.dev.safe ∧ e.fb = s.dev.fb ∧ SameHostRegs [] s.dev e) ∧
  (∀ (s : State) (t axis : Nat) (h : HomeSt),
    s.dev.md.fieldReset = false →
    (s.dev.apf axis).homing = some h →
    h.startedAt + h.timeMs * ms ≤ t →
    RunsKeep (.homingTimeout t axis) s fun e =>
      e.apf axis = { s.dev.apf axis with homeFail := some 0x10 } ∧
      (∀ k ∈ List.range 512, k ≠ axis → e.apf k = s.dev.apf k) ∧ SameRegs [] s.dev e ∧ e.segs = s.dev.segs ∧ e.eng = s.dev.eng ∧ e.gov = s.dev.gov ∧ e.line = s.dev.line ∧ e.safe = s.dev.safe ∧ e.fb = s.dev.fb ∧ SameHostRegs [] s.dev e)

/-- In reset a channel follows its lines. An edge of A accepted at Source 1 or 2, with no other line accepted, counts one up or down by the level of B, and the filtered level follows. An edge of A that comes less than MinEdge after the last accepted one counts an edge fault and changes no level and no position; when MinEdge has passed and the line still differs it is accepted without a fault. Arm waits for the boundary. (R33, R375, R376, R377, R378, R382) -/
def Obligations.FeedbackLinesAreFiltered : Prop :=
  (∀ (s : State) (t channel levels : Nat),
    channel < 8 →
    s.dev.md.fieldReset = true →
    RunsKeep (.feedbackTransition t channel levels) s fun e =>
      e.fbc channel = { s.dev.fbc channel with pins := levels % 64, raw := levels % 64, level := levels % 64 } ∧ SameRegs [] s.dev e ∧ e.segs = s.dev.segs ∧ e.eng = s.dev.eng ∧ e.gov = s.dev.gov ∧ e.line = s.dev.line ∧ e.prof = s.dev.prof ∧ e.safe = s.dev.safe ∧ SameHostRegs [] s.dev e ∧ (∀ k ∈ List.range 8, k ≠ channel → e.fbc k = s.dev.fbc k)) ∧
  (∀ (s : State) (t channel levels : Nat),
    s.dev.md.fieldReset = false →
    channel < 8 →
    levels < 64 →
    s.dev.rn 0x2700 2 channel = 1 ∨ s.dev.rn 0x2700 2 channel = 2 →
    s.dev.rn 0x2700 4 channel = 0 →
    (s.dev.advance t).accepted channel levels = [3] →
    RunsKeep (.feedbackTransition t channel levels) s fun e =>
      (e.fbc channel).pos = wrapI64 ((s.dev.fbc channel).pos +
        (if (bit levels 3 != bit (s.dev.fbc channel).level 4) != s.dev.rb 0x2700 5 channel then 1 else -1)) ∧
      (e.fbc channel).level = setBit (s.dev.fbc channel).level 3 (bit levels 3) ∧ (e.fbc channel).pins = levels ∧
      Tab.find (e.fbc channel).lastAt 3 = some (max s.dev.now t) ∧ e.segs = s.dev.segs ∧ e.eng = s.dev.eng ∧ e.gov = s.dev.gov ∧ e.line = s.dev.line ∧ e.prof = s.dev.prof ∧ e.safe = s.dev.safe ∧ SameHostRegs [] s.dev e ∧ (∀ k ∈ List.range 8, k ≠ channel → e.fbc k = s.dev.fbc k)) ∧
  (∀ (s : State) (t channel : Nat),
    s.dev.md.fieldReset = false →
    channel < 8 →
    s.dev.rn 0x2700 4 channel = 0 →
    (s.dev.fbc channel).level = 0 →
    (s.dev.fbc channel).raw = 0 →
    (s.dev.advance t).accepted channel 8 = [] →
    RunsKeep (.feedbackTransition t channel 8) s fun e =>
      e.fbc channel = { s.dev.fbc channel with pins := 8, raw := 8 } ∧
      e.rd 0x2720 1 channel = ((sat32 (s.dev.rn 0x2720 1 channel + 1) : Nat) : Int) ∧ SameRegs [(0x2720, 1)] s.dev e ∧ e.segs = s.dev.segs ∧ e.eng = s.dev.eng ∧ e.gov = s.dev.gov ∧ e.line = s.dev.line ∧ e.prof = s.dev.prof ∧ e.safe = s.dev.safe ∧ SameHostRegs [] s.dev e ∧ (∀ k ∈ List.range 8, k ≠ channel → e.fbc k = s.dev.fbc k)) ∧
  (∀ (s : State) (t channel line : Nat),
    s.dev.md.fieldReset = false →
    channel < 8 →
    line = 3 →
    s.dev.rn 0x2700 2 channel = 1 ∨ s.dev.rn 0x2700 2 channel = 2 →
    s.dev.rn 0x2700 4 channel = 0 →
    (s.dev.advance t).accepted channel (s.dev.fbc channel).pins = [3] →
    RunsKeep (.minedgeExpiry t channel line) s fun e =>
      (e.fbc channel).pos = wrapI64 ((s.dev.fbc channel).pos +
        (if (bit (s.dev.fbc channel).pins 3 != bit (s.dev.fbc channel).level 4) != s.dev.rb 0x2700 5 channel then 1 else -1)) ∧
      (e.fbc channel).level = setBit (s.dev.fbc channel).level 3 (bit (s.dev.fbc channel).pins 3) ∧
      SameRegs [] s.dev e ∧ Quiet s.dev e ∧ e.segs = s.dev.segs ∧ e.eng = s.dev.eng ∧ e.gov = s.dev.gov ∧ e.line = s.dev.line ∧ e.prof = s.dev.prof ∧ e.safe = s.dev.safe ∧ SameHostRegs [] s.dev e ∧ (∀ k ∈ List.range 8, k ≠ channel → e.fbc k = s.dev.fbc k)) ∧
  (∀ (s : State) (t channel : Nat) (req : Req),
    s.dev.Admits req 0x2710 14 channel [1] = true →
    RunsKeep (.writeArm t req channel) s fun e =>
      DueAtBoundary s.dev e req 0x2710 14 channel (.num 1) ∧
      (e.dueApply 0x2710 14 channel (.num 1)).fbc channel = { s.dev.fbc channel with armDue := true } ∧
      SameRegs [] s.dev e ∧ SameHostRegs [] s.dev e ∧ SameMotion s.dev e)

/-- With records waiting, the line write in progress ends as the next line of the head segment: the record with Seq one above its predecessor's; a full head segment first gets the header of the next one. With events waiting instead, the oldest entry takes its place in the event ring. Every other byte of the array keeps its value. A first failed verify repeats the write; a second counts in 8108h, retires the line and raises event C6h. (R395, R396, R401, R402, R403, R407, R424, R429) -/
def Obligations.LinesAreWritten : Prop :=
  (∀ (s : State) (t kind key flags : Nat) (payload : Bytes) (rest : List StJob),
    s.dev.md.fieldReset = false →
    s.dev.stReady = true →
    s.dev.st.jobs = .record kind key flags payload :: rest →
    s.dev.st.breath = none →
    s.dev.st.again = false →
    s.dev.st.used ≠ 0 →
    s.dev.st.used < 64 →
    Runs (.lineWriteComplete t true) s fun e =>
      LineWritten s e (64 * s.dev.st.head + s.dev.st.used) (recordBytes kind flags key (match Tab.find s.dev.st.cur (recKey kind key) with | some r => (recSeq r.bytes + 1) % 2 ^ 32 | none => 1) payload) ∧
      Tab.find e.dev.st.cur (recKey kind key) = some { line := 64 * s.dev.st.head + s.dev.st.used, bytes := recordBytes kind flags key (match Tab.find s.dev.st.cur (recKey kind key) with | some r => (recSeq r.bytes + 1) % 2 ^ 32 | none => 1) payload } ∧
      e.dev.st.used = s.dev.st.used + 1 ∧ e.dev.st.w = s.dev.st.w + 1 ∧
      SameRegs [(0x5000, 10)] s.dev e.dev ∧ SameMotion s.dev e.dev ∧ SameHostRegs [] s.dev e.dev) ∧
  (∀ (s : State) (t kind key flags : Nat) (payload : Bytes) (rest : List StJob),
    s.dev.md.fieldReset = false →
    s.dev.stReady = true →
    s.dev.st.jobs = .record kind key flags payload :: rest →
    s.dev.st.breath = none →
    s.dev.st.again = false →
    64 ≤ s.dev.st.used →
    Runs (.lineWriteComplete t true) s fun e =>
      LineWritten s e (64 * nextSegN s.dev.st 3504 s.dev.st.head) (sealLine (ascii "SJNL" ++ leBytes (s.dev.st.segSeq + 1) 4 ++
        leBytes (if nextSegN s.dev.st 3504 s.dev.st.head ≤ s.dev.st.head then s.dev.st.pass + 1 else s.dev.st.pass) 4)) ∧
      e.dev.st.head = nextSegN s.dev.st 3504 s.dev.st.head ∧ e.dev.st.used = 1 ∧ e.dev.st.segSeq = (s.dev.st.segSeq + 1) % 2 ^ 32 ∧
      e.dev.st.cur = s.dev.st.cur ∧ SameRegs [(0x5002, 3), (0x5000, 10)] s.dev e.dev ∧ SameMotion s.dev e.dev) ∧
  (∀ (s : State) (t : Nat) (x : EvEntry),
    s.dev.md.fieldReset = false →
    s.dev.stReady = true →
    s.dev.st.jobs = [] →
    s.dev.st.breath = none →
    s.dev.st.again = false →
    s.dev.ring.queue = [x] →
    s.dev.ring.recent = [] →
    s.dev.ring.repeats = [] →
    s.dev.ring.taken < s.dev.rn 0x5001 4 0 →
    Runs (.lineWriteComplete t true) s fun e =>
      LineWritten s e (ringLine s.dev.st.ringIdx) (splice (s.dev.st.readLine s.nv (ringLine s.dev.st.ringIdx))
        (32 * (s.dev.st.ringIdx % 2)) (entryBytes s.dev.ring.nextSeq 0 x)) ∧
      e.dev.ring.queue = [] ∧ e.dev.rd 0x5060 2 0 = (s.dev.ring.nextSeq : Int) ∧ e.dev.st.ringIdx = (s.dev.st.ringIdx + 1) % 65536 ∧
      SameRegs [(0x5060, 1), (0x5060, 2), (0x5002, 4)] s.dev e.dev ∧ SameMotion s.dev e.dev) ∧
  (∀ (s : State) (t n : Nat),
    s.dev.md.fieldReset = false →
    s.dev.stReady = true →
    s.dev.lineInProgress = some n →
    s.dev.st.again = false →
    RunsKeep (.lineWriteComplete t false) s fun e =>
      e.st = { s.dev.st with again := true } ∧ SameRegs [] s.dev e ∧ SameMotion s.dev e ∧ e.ring.queue = s.dev.ring.queue ∧ SameHostRegs [] s.dev e) ∧
  (∀ (s : State) (t n spare : Nat),
    s.dev.md.fieldReset = false →
    s.dev.stReady = true →
    s.dev.lineInProgress = some n →
    s.dev.st.again = true →
    s.dev.st.freeSpare = some spare →
    RunsKeep (.lineWriteComplete t false) s fun e =>
      e.st.phys n = 1024 + spare ∧ e.rd 0x5000 6 0 = (s.dev.rn 0x5000 6 0 + 1 : Nat) ∧ Raised s.dev e 0xC6 (leBytes n 4) ∧
      e.rd 0x8108 2 0 = ((sat32 (s.dev.rn 0x8108 2 0 + 1) : Nat) : Int) ∧
      SameRegs [(0x5000, 6), (0x8108, 2), (0x8108, 4), (0x8108, 6)] s.dev e ∧ SameMotion s.dev e)

/-- A due checkpoint queues the changed position records and begins the next interval; a due life interval queues the life, energy, device, incident and wear records. A key whose record changed within the second of its last is written when that second ends. At the end of an accounting hour its counts start again. A scrubbed line that reads clean at the nominal reference is rewritten and counts as transient; one that needs correction there is retired with its data and event C6h. (R407, R408, R427, R428, R430, R431) -/
def Obligations.StoreTimersAndScrub : Prop :=
  (∀ (s : State) (t : Nat),
    s.dev.md.fieldReset = false →
    s.dev.stReady = true →
    s.dev.st.ckAt + s.dev.rn 0x5001 1 0 * 2 ^ s.dev.throttle * ms ≤ t →
    RunsKeep (.checkpointTimer t) s fun e =>
      e.st = { s.dev.st with ckAt := max s.dev.now t, jobs := s.dev.st.jobs ++ (s.dev.advance t).checkpointJobs } ∧
      SameRegs [(0x5002, 6)] s.dev e ∧ SameMotion s.dev e ∧ SameHostRegs [] s.dev e) ∧
  (∀ (s : State) (t : Nat),
    s.dev.md.fieldReset = false →
    s.dev.stReady = true →
    s.dev.st.lifeAt + s.dev.rn 0x5001 2 0 * 2 ^ s.dev.throttle * sec ≤ t →
    RunsKeep (.lifeIntervalTimer t) s fun e =>
      e.st.lifeAt = max s.dev.now t ∧ e.st.jobs.length = s.dev.st.jobs.length + 532 ∧ e.st.jobs.take s.dev.st.jobs.length = s.dev.st.jobs ∧
      SameRegs [] s.dev e ∧ SameMotion s.dev e ∧ e.ring.queue = s.dev.ring.queue ∧ SameHostRegs [] s.dev e) ∧
  (∀ (s : State) (t x : Nat) (key : PosKey),
    s.dev.md.fieldReset = false →
    Tab.find s.dev.st.proofAt (posNum key) = some x →
    x + sec ≤ t →
    s.dev.st.proofDue.contains (posNum key) = true →
    RunsKeep (.proofRecordSecondEnd t key) s fun e =>
      e.st.jobs = s.dev.st.jobs ++ [(s.dev.advance t).posJob (posNum key)] ∧ e.st.proofDue = s.dev.st.proofDue.filter (fun n => n != posNum key) ∧
      Tab.find e.st.proofAt (posNum key) = some (max s.dev.now t) ∧ SameRegs [] s.dev e ∧ SameMotion s.dev e ∧ e.ring.queue = s.dev.ring.queue ∧ SameHostRegs [] s.dev e) ∧
  (∀ (s : State) (t : Nat),
    s.dev.md.fieldReset = false →
    s.dev.stReady = true →
    s.dev.st.hourStart + 3600 ≤ (s.dev.advance t).opTime →
    RunsKeep (.accountingHour t) s fun e =>
      e.st.w = 0 ∧ e.st.hourR = 0 ∧ e.st.hourA = 0 ∧ e.st.hourStart = (s.dev.advance t).opTime ∧
      e.st.hist = ((s.dev.st.w, s.dev.st.hourR, s.dev.st.hourA) :: s.dev.st.hist).take 720 ∧
      e.rd 0x5002 5 0 = 0 ∧ e.rd 0x5070 8 0 = 0 ∧ e.ring.taken = 0 ∧ e.ring.leftOut = 0 ∧
      SameRegs [(0x5002, 1), (0x5002, 2), (0x5002, 5), (0x5002, 7), (0x5070, 8)] s.dev e ∧ SameMotion s.dev e ∧ SameHostRegs [] s.dev e) ∧
  (∀ (s : State) (t line : Nat) (again : ReadResult),
    s.dev.md.fieldReset = false →
    s.dev.stReady = true →
    s.dev.st.breath = none →
    line < 524288 →
    RunsKeep (.scrubLine t line false .clean again) s fun e =>
      e.st = { s.dev.st with jobs := s.dev.st.jobs ++ [.refresh line] } ∧
      e.rd 0x8108 1 0 = ((sat32 (s.dev.rn 0x8108 1 0 + 1) : Nat) : Int) ∧
      SameRegs [(0x8108, 1), (0x8108, 3), (0x8108, 5)] s.dev e ∧ SameMotion s.dev e ∧ e.ring.queue = s.dev.ring.queue ∧ SameHostRegs [] s.dev e) ∧
  (∀ (s : State) (t line spare : Nat) (again : ReadResult),
    s.dev.md.fieldReset = false →
    s.dev.stReady = true →
    s.dev.st.breath = none →
    line < 524288 →
    s.dev.st.freeSpare = some spare →
    RunsKeep (.scrubLine t line false .corrected again) s fun e =>
      e.st.phys line = 1024 + spare ∧ e.st.jobs.head? = some (.fixed line (s.dev.st.readLine s.nv line)) ∧
      Raised s.dev e 0xC6 (leBytes line 4) ∧ e.rd 0x8108 2 0 = ((sat32 (s.dev.rn 0x8108 2 0 + 1) : Nat) : Int) ∧
      SameRegs [(0x5000, 6), (0x8108, 2), (0x8108, 4), (0x8108, 6)] s.dev e ∧ SameMotion s.dev e) ∧
  (∀ (s : State) (t line : Nat) (nominal again : ReadResult),
    RunsKeep (.scrubLine t line true nominal again) s fun e => e = s.dev.advance t)

/-- A fall of PFAIL_N that follows 10 µs at high, or a trip of the VNV monitor, starts a last-breath commit with the breath buffer frozen: trigger 1 or 2, no record written yet, nothing else waiting. 8050h:7 follows the ball; its rise starts the 10 µs. At the write limit a commit in progress ends after the line in progress with result 3 in 5000h:7 and its duration in 5000h:9; without a commit nothing changes. (R409, R410, R411, R524, R525) -/
def Obligations.LastBreath : Prop :=
  (∀ (s : State) (t : Nat),
    s.dev.md.fieldReset = false →
    s.dev.stReady = true →
    s.dev.st.breath = none →
    s.dev.st.jobs = [] →
    s.dev.ring.queue = [] →
    s.dev.st.pfail = false →
    s.dev.st.pfailAt + 10 * us ≤ t →
    RunsKeep (.pfailNFall t) s fun e =>
      e.st = { s.dev.st with pfail := true, again := false, breath := some (1, max s.dev.now t, s.dev.st.bufCycle, 0) } ∧
      e.rd 0x8050 7 0 = 0 ∧ SameRegs [(0x8050, 7)] s.dev e ∧ SameMotion s.dev e ∧ e.ring.queue = s.dev.ring.queue ∧ SameHostRegs [] s.dev e) ∧
  (∀ (s : State) (t : Nat),
    s.dev.md.fieldReset = false →
    s.dev.stReady = true →
    s.dev.st.pfail = false →
    max s.dev.now t < s.dev.st.pfailAt + 10 * us →
    RunsKeep (.pfailNFall t) s fun e =>
      e.st = { s.dev.st with pfail := true } ∧ e.rd 0x8050 7 0 = 0 ∧ SameRegs [(0x8050, 7)] s.dev e ∧ SameMotion s.dev e ∧ e.ring.queue = s.dev.ring.queue ∧ SameHostRegs [] s.dev e) ∧
  (∀ (s : State) (t : Nat),
    s.dev.md.fieldReset = false →
    s.dev.st.pfail = true →
    RunsKeep (.pfailNRise t) s fun e =>
      e.st = { s.dev.st with pfail := false, pfailAt := max s.dev.now t } ∧ e.rd 0x8050 7 0 = 1 ∧
      SameRegs [(0x8050, 7)] s.dev e ∧ SameMotion s.dev e ∧ e.ring.queue = s.dev.ring.queue ∧ SameHostRegs [] s.dev e) ∧
  (∀ (s : State) (t : Nat),
    s.dev.md.fieldReset = false →
    s.dev.stReady = true →
    s.dev.st.breath = none →
    s.dev.st.jobs = [] →
    s.dev.ring.queue = [] →
    RunsKeep (.vnvMonitorTrip t) s fun e =>
      e.st = { s.dev.st with again := false, breath := some (2, max s.dev.now t, s.dev.st.bufCycle, 0) } ∧
      SameRegs [] s.dev e ∧ SameMotion s.dev e ∧ e.ring.queue = s.dev.ring.queue ∧ SameHostRegs [] s.dev e) ∧
  (∀ (s : State) (t : Nat) (b : Nat × Nat × Nat × Nat),
    s.dev.st.breath = some b →
    b.2.2.2 < 520 →
    s.dev.st.used ≠ 0 →
    s.dev.st.used < 64 →
    Runs (.vnvWriteLimit t) s fun e =>
      e.dev.st.breath = none ∧ e.dev.st.result = 3 ∧ e.dev.st.logDue = true ∧ e.dev.rd 0x5000 7 0 = 3 ∧
      e.dev.rd 0x5000 9 0 = (((max s.dev.now t - b.2.1) / us : Nat) : Int) ∧ e.dev.st.used = s.dev.st.used + 1 ∧
      SameRegs [(0x5000, 7), (0x5000, 9)] s.dev e.dev ∧ SameMotion s.dev e.dev ∧ e.sram = s.sram) ∧
  (∀ (s : State) (t : Nat),
    s.dev.st.breath = none →
    RunsKeep (.vnvWriteLimit t) s fun e => e = s.dev.advance t)

/-- Store with the store ready, none running and fewer than 60 in the hour is accepted and takes its snapshot in the free area. Restores in Prepare take the previous or the factory set if its image is valid and passes its checks. A written set becomes active, 5070h:4 names its Seq, event CAh is raised and 5070h:2 reads 0; one whose write fails ends with 5070h:2 at 0 and the directory as it was. Format in Prepare with the serial number rewrites the array. ReadFrom takes a value from Oldest to Newest at the boundary. (R419, R420, R421, R422, R426, R432) -/
def Obligations.ParameterSets : Prop :=
  (∀ (s : State) (t : Nat) (req : Req),
    s.dev.Admits req 0x5070 1 0 [1] = true →
    s.dev.rn 0x5070 8 0 < 60 →
    s.dev.stReady = true →
    s.dev.st.cmd = none →
    s.dev.st.breath = none →
    RunsKeep (.setStore t req) s fun e =>
      (e.st.cmd.map SetCmd.code) = some 1 ∧ (e.st.cmd.map SetCmd.area) = some s.dev.st.freeArea ∧ (e.st.cmd.map SetCmd.seq) = some s.dev.nextSetSeq ∧
      e.rd 0x5070 2 0 = 1 ∧ SameRegs [(0x5070, 2)] s.dev e ∧ SameMotion s.dev e ∧ e.ring.queue = s.dev.ring.queue ∧ SameHostRegs [] s.dev e) ∧
  (∀ (s : State) (t : Nat) (req : Req) (img : Bytes × Bytes) (x : List ((Nat × Nat × Nat) × Val) × Nat),
    s.dev.Admits req 0x5070 1 0 [2] = true →
    s.dev.mode = 2 →
    s.dev.stReady = true →
    s.dev.st.cmd = none →
    s.dev.st.breath = none →
    s.dev.st.image s.nv [] s.dev.st.previous = some img →
    (s.dev.advance t).checkSet img = some x →
    RunsKeep (.setRestorePrevious t req) s fun e =>
      (e.st.cmd.map SetCmd.code) = some 2 ∧ (e.st.cmd.map SetCmd.area) = some s.dev.st.previous ∧ (e.st.cmd.map SetCmd.load) = some (some x.1) ∧
      e.rd 0x5070 2 0 = 1 ∧ SameRegs [(0x5070, 2)] s.dev e ∧ SameMotion s.dev e ∧ e.ring.queue = s.dev.ring.queue ∧ SameHostRegs [] s.dev e) ∧
  (∀ (s : State) (t : Nat) (req : Req) (img : Bytes × Bytes) (x : List ((Nat × Nat × Nat) × Val) × Nat),
    s.dev.Admits req 0x5070 1 0 [3] = true →
    s.dev.mode = 2 →
    s.dev.stReady = true →
    s.dev.st.cmd = none →
    s.dev.st.breath = none →
    s.dev.rn 0x5070 8 0 < 60 →
    s.dev.st.image s.nv [] s.dev.st.factory = some img →
    (s.dev.advance t).checkSet img = some x →
    RunsKeep (.setRestoreFactory t req) s fun e =>
      (e.st.cmd.map SetCmd.code) = some 3 ∧ (e.st.cmd.map SetCmd.area) = some s.dev.st.freeArea ∧ (e.st.cmd.map SetCmd.load) = some (some x.1) ∧
      e.rd 0x5070 2 0 = 1 ∧ SameRegs [(0x5070, 2)] s.dev e ∧ SameMotion s.dev e ∧ e.ring.queue = s.dev.ring.queue ∧ SameHostRegs [] s.dev e) ∧
  (∀ (s : State) (t : Nat) (x : SetCmd) (v : Tab Int × Tab Bytes),
    s.dev.md.fieldReset = false →
    s.dev.stReady = true →
    s.dev.st.cmd = some x →
    x.snap = some v →
    x.code = 1 →
    Runs (.setWriteComplete t true) s fun e =>
      e.dev.rd 0x5070 4 0 = (x.seq : Int) ∧ e.dev.rd 0x5070 5 0 = s.dev.rd 0x5070 4 0 ∧ e.dev.rd 0x5070 2 0 = 0 ∧ e.dev.st.active = x.area ∧
      e.dev.st.previous = s.dev.st.active ∧ Raised s.dev e.dev 0xCA (leBytes x.area 1) ∧
      SameRegs [(0x5070, 2), (0x5070, 3), (0x5070, 4), (0x5070, 5), (0x5070, 7), (0x5070, 8), (0x5002, 3), (0x5000, 10), (0x1000, 5), (0x1000, 6)] s.dev e.dev ∧
      SameMotion s.dev e.dev ∧ e.sram = s.sram) ∧
  (∀ (s : State) (t : Nat) (x : SetCmd) (v : Tab Int × Tab Bytes),
    s.dev.md.fieldReset = false →
    s.dev.stReady = true →
    s.dev.st.cmd = some x →
    x.snap = some v →
    RunsKeep (.setWriteComplete t false) s fun e =>
      e.st = { s.dev.st with cmd := none } ∧ e.rd 0x5070 2 0 = 0 ∧ SameMotion s.dev e) ∧
  (∀ (s : State) (t : Nat) (req : Req),
    s.dev.Admits req 0x5000 8 0 (leBytes (Config.serial % 2 ^ 32) 4) = true →
    s.dev.mode = 2 →
    Runs (.writeFormat t req (Config.serial % 2 ^ 32)) s fun e =>
      e.dev.rd 0x5000 1 0 = 1 ∧ e.dev.rd 0x5070 6 0 = 1 ∧ e.dev.rd 0x5070 4 0 = 0 ∧ e.dev.rd 0x5060 2 0 = 0 ∧ e.dev.ring.queue.any (fun x => x.num == 0xC0) = true ∧
      e.dev.st.jobs = [] ∧ e.dev.st.factory = 0 ∧ e.sram = s.sram ∧ SameMotion s.dev e.dev) ∧
  (∀ (s : State) (t value : Nat) (req : Req),
    s.dev.Admits req 0x5060 3 0 (leBytes value 4) = true →
    s.dev.rn 0x5060 1 0 ≤ value →
    value ≤ s.dev.rn 0x5060 2 0 →
    value < 2 ^ 32 →
    RunsKeep (.writeReadFrom t req value) s fun e =>
      DueAtBoundary s.dev e req 0x5060 3 0 (.num value) ∧ (e.dueApply 0x5060 3 0 (.num value)).rd 0x5060 3 0 = (value : Int) ∧
      SameRegs [] s.dev e ∧ SameHostRegs [] s.dev e ∧ SameMotion s.dev e)

/-- A safety input takes a new level when its raw level has held it for Filter, counted over samples, and not before; a sample at its level starts the count again. With every input and every off output as expected a sample leaves every element as it was. A safe stop that outlasts StopTime is done, latched and raises event B3h. Reset of an axis in state 3 without a held demand in its group is accepted: the latched demands of the group are cleared, event BEh is raised, and the release stands for the boundary. The seal balls are read at each SEAL_READ. (R444, R448, R451, R457, R458) -/
def Obligations.SafetyInputsAndStops : Prop :=
  (∀ (s : State) (t input levels readback : Nat) (upset : Upset),
    s.dev.md.fieldReset = false →
    input < 16 →
    (s.dev.sin input).testBad = false →
    s.dev.rn 0x4010 4 input = 0 →
    bit levels input = (s.dev.sin input).level →
    RunsKeep (.safetyInputSample t levels readback upset) s fun e =>
      e.sin input = { s.dev.sin input with raw := bit levels input, heldUs := 0 } ∧ e.segs = s.dev.segs ∧ e.gov = s.dev.gov ∧ e.line = s.dev.line ∧ e.fb = s.dev.fb ∧ SameHostRegs [] s.dev e) ∧
  (∀ (s : State) (t input levels readback : Nat) (upset : Upset),
    s.dev.md.fieldReset = false →
    input < 16 →
    (s.dev.sin input).testBad = false →
    s.dev.rn 0x4010 4 input = 0 →
    bit levels input ≠ (s.dev.sin input).level →
    0 < (s.dev.sin input).heldUs →
    (s.dev.sin input).heldUs + 99 < s.dev.rn 0x4010 3 input →
    RunsKeep (.safetyInputSample t levels readback upset) s fun e =>
      e.sin input = { s.dev.sin input with raw := bit levels input, heldUs := (s.dev.sin input).heldUs + 100 } ∧ e.segs = s.dev.segs ∧ e.gov = s.dev.gov ∧ e.line = s.dev.line ∧ e.fb = s.dev.fb ∧ SameHostRegs [] s.dev e) ∧
  (∀ (s : State) (t input levels readback : Nat) (upset : Upset),
    s.dev.md.fieldReset = false →
    input < 16 →
    (s.dev.sin input).testBad = false →
    s.dev.rn 0x4010 4 input = 0 →
    bit levels input ≠ (s.dev.sin input).level →
    0 < (s.dev.sin input).heldUs →
    s.dev.rn 0x4010 3 input ≤ (s.dev.sin input).heldUs + 99 →
    RunsKeep (.safetyInputSample t levels readback upset) s fun e =>
      (e.sin input).level = bit levels input ∧ (e.sin input).raw = bit levels input ∧ e.segs = s.dev.segs ∧ e.gov = s.dev.gov ∧ e.line = s.dev.line ∧ e.fb = s.dev.fb ∧ SameHostRegs [] s.dev e) ∧
  (∀ (s : State) (t levels readback : Nat),
    s.dev.md.fieldReset = false →
    (List.range 16).all (fun i => bit levels i == (s.dev.sin i).level) = true →
    (List.range 8).all (fun n => (s.dev.sout n).on || !s.dev.rb 0x4020 1 n) = true →
    RunsKeep (.safetyInputSample t levels readback .none) s fun e =>
      SameRegs [] s.dev e ∧ e.safe.outs = s.dev.safe.outs ∧ e.safe.axes = s.dev.safe.axes ∧ Quiet s.dev e ∧ e.segs = s.dev.segs ∧ e.eng = s.dev.eng ∧ e.gov = s.dev.gov ∧ e.line = s.dev.line ∧ e.prof = s.dev.prof ∧ e.fb = s.dev.fb ∧ SameHostRegs [] s.dev e) ∧
  (∀ (s : State) (t axis : Nat),
    s.dev.md.fieldReset = false →
    s.dev.saf axis = 2 →
    (s.dev.asf axis).done = false →
    (s.dev.asf axis).ls + s.dev.rn 0x4030 14 axis * ms ≤ t →
    RunsKeep (.stopTimeExpiry t axis) s fun e =>
      e.asf axis = { s.dev.asf axis with done := true, latched := true } ∧ Raised s.dev e 0xB3 (leBytes axis 2) ∧
      SameRegs [(0x4020, 2), (0x4040, 1), (0x4040, 8)] s.dev e ∧ e.segs = s.dev.segs ∧ e.eng = s.dev.eng ∧ e.gov = s.dev.gov ∧ e.line = s.dev.line ∧ e.prof = s.dev.prof ∧ e.fb = s.dev.fb ∧ SameHostRegs [] s.dev e) ∧
  (∀ (s : State) (t axis : Nat) (req : Req),
    s.dev.Admits req 0x4040 5 axis [1] = true →
    s.dev.saf axis = 3 →
    (s.dev.groupOf axis).any s.dev.heldDemand = false →
    RunsKeep (.safetyReset t req axis) s fun e =>
      DueAtBoundary s.dev e req 0x4040 5 axis (.num 1) ∧ Raised s.dev e 0xBE (leBytes axis 2) ∧
      (∀ k ∈ s.dev.groupOf axis, (e.asf k).latched = false ∧ (e.asf k).release = (s.dev.saf k == 3)) ∧ e.segs = s.dev.segs ∧ e.gov = s.dev.gov ∧ e.line = s.dev.line ∧ e.fb = s.dev.fb ∧ SameHostRegs [] s.dev e) ∧
  (∀ (s : State) (t sealUp sealDown : Nat),
    s.dev.md.fieldReset = false →
    RunsKeep (.sealRead t sealUp sealDown) s fun e =>
      e.clk.straps = (s.dev.clk.straps.1, sealUp, sealDown) ∧ e.safe.sealRead = true ∧
      e.rd 0x4000 1 0 = ((Nat.land (sealUp % 65536) (sealDown % 65536) : Nat) : Int) ∧
      e.rd 0x4000 9 0 = ((Nat.xor (sealUp % 65536) (sealDown % 65536) : Nat) : Int) ∧ e.segs = s.dev.segs ∧ e.gov = s.dev.gov ∧ e.line = s.dev.line ∧ e.fb = s.dev.fb ∧ SameHostRegs [] s.dev e)

/-- An input that reads 1 in the pulse of its source is due for one repeat; a repeat that passes counts in 4010h:6, one that fails counts there too, raises event B8h and the input reads 0. An output that is on is driven off for its pulse and checked off, then on; a failed check is repeated once. A good repeat counts in 4020h:3 with event B6h; a bad one counts in 4020h:4, raises event B7h and latches the kind in 4020h:5 with the output off. Kind 1 ends after 1 s of good readback. (R452, R453, R455) -/
def Obligations.SafetyPulsesAreChecked : Prop :=
  (∀ (s : State) (t source input levels : Nat),
    s.dev.md.fieldReset = false →
    input < 16 →
    s.dev.rn 0x4010 4 input = source + 1 →
    bit levels input = true →
    RunsKeep (.testPulse t source levels) s fun e =>
      (e.sin input).testOnce = true ∧ (e.sin input).blankUntil = max s.dev.now t + 500 * us ∧ (e.sin input).level = (s.dev.sin input).level ∧
      SameRegs [] s.dev e ∧ Quiet s.dev e ∧ e.segs = s.dev.segs ∧ e.eng = s.dev.eng ∧ e.gov = s.dev.gov ∧ e.line = s.dev.line ∧ e.prof = s.dev.prof ∧ e.fb = s.dev.fb ∧ SameHostRegs [] s.dev e) ∧
  (∀ (s : State) (t source input : Nat),
    s.dev.md.fieldReset = false →
    s.dev.rn 0x4010 4 input = source + 1 →
    (s.dev.sin input).testOnce = true →
    RunsKeep (.testPulseRepeat t source input false) s fun e =>
      (e.sin input).testOnce = false ∧ (e.sin input).testBad = false ∧
      e.rd 0x4010 6 input = ((sat32 (s.dev.rn 0x4010 6 input + 1) : Nat) : Int) ∧ SameRegs [(0x4010, 6)] s.dev e ∧ Quiet s.dev e ∧ e.segs = s.dev.segs ∧ e.eng = s.dev.eng ∧ e.gov = s.dev.gov ∧ e.line = s.dev.line ∧ e.prof = s.dev.prof ∧ e.fb = s.dev.fb ∧ SameHostRegs [] s.dev e) ∧
  (∀ (s : State) (t source input : Nat),
    s.dev.md.fieldReset = false →
    s.dev.rn 0x4010 4 input = source + 1 →
    (s.dev.sin input).testOnce = true →
    RunsKeep (.testPulseRepeat t source input true) s fun e =>
      (e.sin input).testBad = true ∧ (e.sin input).level = false ∧ Raised s.dev e 0xB8 (leBytes input 1) ∧
      e.rd 0x4010 6 input = ((sat32 (s.dev.rn 0x4010 6 input + 1) : Nat) : Int) ∧ e.segs = s.dev.segs ∧ e.gov = s.dev.gov ∧ e.line = s.dev.line ∧ e.fb = s.dev.fb ∧ SameHostRegs [] s.dev e) ∧
  (∀ (s : State) (t output : Nat),
    s.dev.md.fieldReset = false →
    (s.dev.sout output).on = true →
    (s.dev.sout output).check = 0 →
    s.dev.rn 0x4020 5 output = 0 →
    RunsKeep (.outputTestPulse t output) s fun e =>
      e.sout output = { s.dev.sout output with check := 1 } ∧ e.rd 0x4020 2 output = 2 ∧ e.rd 0x4020 6 output = ((s.dev.advance t).devTime : Int) ∧
      SameRegs [(0x4020, 2), (0x4020, 6)] s.dev e ∧ Quiet s.dev e ∧ e.segs = s.dev.segs ∧ e.eng = s.dev.eng ∧ e.gov = s.dev.gov ∧ e.line = s.dev.line ∧ e.prof = s.dev.prof ∧ e.fb = s.dev.fb ∧ SameHostRegs [] s.dev e) ∧
  (∀ (s : State) (t output : Nat),
    s.dev.md.fieldReset = false →
    (s.dev.sout output).on = true →
    (s.dev.sout output).check = 1 →
    (s.dev.sout output).repeating = false →
    RunsKeep (.outputReadbackCheck t output false) s fun e =>
      e.sout output = { s.dev.sout output with check := 2 } ∧ SameRegs [] s.dev e ∧ Quiet s.dev e ∧ e.segs = s.dev.segs ∧ e.eng = s.dev.eng ∧ e.gov = s.dev.gov ∧ e.line = s.dev.line ∧ e.prof = s.dev.prof ∧ e.fb = s.dev.fb ∧ SameHostRegs [] s.dev e) ∧
  (∀ (s : State) (t output : Nat),
    s.dev.md.fieldReset = false →
    (s.dev.sout output).check = 1 →
    (s.dev.sout output).repeating = false →
    RunsKeep (.outputReadbackCheck t output true) s fun e =>
      e.sout output = { s.dev.sout output with repeating := true } ∧ SameRegs [] s.dev e ∧ Quiet s.dev e ∧ e.segs = s.dev.segs ∧ e.eng = s.dev.eng ∧ e.gov = s.dev.gov ∧ e.line = s.dev.line ∧ e.prof = s.dev.prof ∧ e.fb = s.dev.fb ∧ SameHostRegs [] s.dev e) ∧
  (∀ (s : State) (t output : Nat),
    s.dev.md.fieldReset = false →
    (s.dev.sout output).check = 2 →
    (s.dev.sout output).on = true →
    s.dev.rn 0x4020 5 output = 0 →
    RunsKeep (.outputReadbackCheck t output true) s fun e =>
      e.sout output = { s.dev.sout output with check := 0, repeating := false } ∧ e.rd 0x4020 2 output = 1 ∧
      SameRegs [(0x4020, 2)] s.dev e ∧ Quiet s.dev e ∧ e.segs = s.dev.segs ∧ e.eng = s.dev.eng ∧ e.gov = s.dev.gov ∧ e.line = s.dev.line ∧ e.prof = s.dev.prof ∧ e.fb = s.dev.fb ∧ SameHostRegs [] s.dev e) ∧
  (∀ (s : State) (t output : Nat),
    s.dev.md.fieldReset = false →
    (s.dev.sout output).repeating = true →
    (s.dev.sout output).check ≠ 0 →
    RunsKeep (.outputTestRepeat t output true) s fun e =>
      e.sout output = { s.dev.sout output with check := 0, repeating := false } ∧ Raised s.dev e 0xB6 (leBytes output 1) ∧
      e.rd 0x4020 3 output = ((sat32 (s.dev.rn 0x4020 3 output + 1) : Nat) : Int) ∧ SameRegs [(0x4020, 2), (0x4020, 3)] s.dev e ∧ e.segs = s.dev.segs ∧ e.eng = s.dev.eng ∧ e.gov = s.dev.gov ∧ e.line = s.dev.line ∧ e.prof = s.dev.prof ∧ e.fb = s.dev.fb ∧ SameHostRegs [] s.dev e) ∧
  (∀ (s : State) (t output : Nat),
    s.dev.md.fieldReset = false →
    output < 8 →
    (s.dev.sout output).repeating = true →
    (s.dev.sout output).check = 1 ∨ (s.dev.sout output).check = 3 →
    RunsKeep (.outputTestRepeat t output false) s fun e =>
      (e.sout output).on = false ∧ (e.sout output).check = 0 ∧ e.rd 0x4020 5 output = 1 ∧ e.rd 0x4020 2 output = 3 ∧ Raised s.dev e 0xB7 (leBytes output 1 ++ [1]) ∧
      e.rd 0x4020 4 output = ((sat32 (s.dev.rn 0x4020 4 output + 1) : Nat) : Int) ∧ e.segs = s.dev.segs ∧ e.gov = s.dev.gov ∧ e.line = s.dev.line ∧ e.fb = s.dev.fb ∧ SameHostRegs [] s.dev e) ∧
  (∀ (s : State) (t output x : Nat),
    s.dev.md.fieldReset = false →
    (s.dev.sout output).goodSince = some x →
    s.dev.rn 0x4020 5 output = 1 →
    x + sec ≤ t →
    RunsKeep (.outputFaultClear t output) s fun e =>
      e.rd 0x4020 5 output = 0 ∧ (e.sout output).goodSince = none ∧ e.segs = s.dev.segs ∧ e.gov = s.dev.gov ∧ e.line = s.dev.line ∧ e.fb = s.dev.fb ∧ SameHostRegs [] s.dev e)

/-- Writing INIT 1 with no frame on the bus sets it at once, else at the frame's end; INIT 0 clears it. PUSH copies the stage to the tail of the FIFO, or to a full one is discarded with PUSHREFUSED. CANCEL of an entry not started takes it out with result 1, of a started one is remembered; FLUSH takes out every entry not started. Reading the result takes the oldest. An armed slot whose DUE has come is a candidate with the values written to it; one that has not started by DUE + WINDOW is withdrawn with result 4. (R470, R471, R473, R474, R475) -/
def Obligations.CanPortsAreCommanded : Prop :=
  (∀ (s : State) (t : Nat) (port : Die),
    s.dev.inReset port = false →
    (s.dev.can port).onBus = none →
    RunsKeep (.canInit t port true) s fun e =>
      e.can port = { s.dev.can port with ctrl := setBit (s.dev.can port).ctrl 0 true, recovering := false } ∧ SameRegs [(canObj .field, 5), (canObj .field, 6), (canObj .field, 7)] s.dev e ∧ SameHostRegs [(canObj .host, 5), (canObj .host, 6), (canObj .host, 7)] s.dev e ∧ (port = .host → e.fcan = s.dev.fcan) ∧ (port = .field → e.hcan = s.dev.hcan) ∧ SameMotion s.dev e) ∧
  (∀ (s : State) (t : Nat) (port : Die),
    s.dev.inReset port = false →
    (s.dev.can port).onBus ≠ none →
    RunsKeep (.canInit t port true) s fun e => e.can port = { s.dev.can port with initPending := true } ∧ SameRegs [] s.dev e ∧ SameHostRegs [] s.dev e ∧ (port = .host → e.fcan = s.dev.fcan) ∧ (port = .field → e.hcan = s.dev.hcan) ∧ SameMotion s.dev e) ∧
  (∀ (s : State) (t : Nat) (port : Die),
    s.dev.inReset port = false →
    RunsKeep (.canInit t port false) s fun e =>
      (e.can port).init = false ∧ (e.can port).initPending = false ∧ (e.can port).fifo = (s.dev.can port).fifo ∧
      (e.can port).slots = (s.dev.can port).slots ∧ SameRegs [(canObj .field, 5), (canObj .field, 6), (canObj .field, 7)] s.dev e ∧ SameHostRegs [(canObj .host, 5), (canObj .host, 6), (canObj .host, 7)] s.dev e ∧ (port = .host → e.fcan = s.dev.fcan) ∧ (port = .field → e.hcan = s.dev.hcan) ∧ SameMotion s.dev e) ∧
  (∀ (s : State) (t tag : Nat) (port : Die),
    s.dev.inReset port = false →
    (s.dev.can port).fifo.length < 32 →
    RunsKeep (.canTxqPush t port tag) s fun e =>
      e.can port = { s.dev.can port with fifo := (s.dev.can port).fifo ++ [{ tag := tag % 256, image := fit (s.dev.can port).stage 72 }] } ∧ SameRegs [] s.dev e ∧ SameHostRegs [] s.dev e ∧ (port = .host → e.fcan = s.dev.fcan) ∧ (port = .field → e.hcan = s.dev.hcan) ∧ SameMotion s.dev e) ∧
  (∀ (s : State) (t tag : Nat) (port : Die),
    s.dev.inReset port = false →
    32 ≤ (s.dev.can port).fifo.length →
    RunsKeep (.canTxqPush t port tag) s fun e => e.can port = { s.dev.can port with int := setBit (s.dev.can port).int 7 true } ∧ SameRegs [] s.dev e ∧ SameHostRegs [] s.dev e ∧ (port = .host → e.fcan = s.dev.fcan) ∧ (port = .field → e.hcan = s.dev.hcan) ∧ SameMotion s.dev e) ∧
  (∀ (s : State) (t tag : Nat) (port : Die) (x : CanTx) (rest : List CanTx),
    s.dev.inReset port = false →
    (s.dev.can port).fifo = x :: rest →
    x.tag = tag →
    tag < 256 →
    x.started = false →
    (s.dev.can port).results.length < 32 →
    RunsKeep (.canTxqCancel t port tag) s fun e =>
      e.can port = { s.dev.can port with fifo := rest, results := (s.dev.can port).results ++ [tag + 256 + 2 ^ 31], int := setBit (s.dev.can port).int 1 true } ∧ SameRegs [] s.dev e ∧ SameHostRegs [] s.dev e ∧ (port = .host → e.fcan = s.dev.fcan) ∧ (port = .field → e.hcan = s.dev.hcan) ∧ SameMotion s.dev e) ∧
  (∀ (s : State) (t tag : Nat) (port : Die) (x : CanTx) (rest : List CanTx),
    s.dev.inReset port = false →
    (s.dev.can port).fifo = x :: rest →
    x.tag = tag →
    tag < 256 →
    x.started = true →
    RunsKeep (.canTxqCancel t port tag) s fun e =>
      e.can port = { s.dev.can port with fifo := { x with cancel := true } :: rest } ∧ SameRegs [] s.dev e ∧ SameHostRegs [] s.dev e ∧ (port = .host → e.fcan = s.dev.fcan) ∧ (port = .field → e.hcan = s.dev.hcan) ∧ SameMotion s.dev e) ∧
  (∀ (s : State) (t : Nat) (port : Die),
    s.dev.inReset port = false →
    RunsKeep (.canTxqFlush t port) s fun e =>
      (e.can port).fifo = (s.dev.can port).fifo.filter (fun f => f.started) ∧ (e.can port).slots = (s.dev.can port).slots ∧
      (e.can port).tec = (s.dev.can port).tec ∧ SameRegs [] s.dev e ∧ SameHostRegs [] s.dev e ∧ (port = .host → e.fcan = s.dev.fcan) ∧ (port = .field → e.hcan = s.dev.hcan) ∧ SameMotion s.dev e) ∧
  (∀ (s : State) (t : Nat) (port : Die),
    s.dev.inReset port = false →
    RunsKeep (.canTxqResultRead t port) s fun e =>
      e.can port = { s.dev.can port with results := (s.dev.can port).results.drop 1 } ∧ SameRegs [] s.dev e ∧ SameHostRegs [] s.dev e ∧ (port = .host → e.fcan = s.dev.fcan) ∧ (port = .field → e.hcan = s.dev.hcan) ∧ SameMotion s.dev e) ∧
  (∀ (s : State) (t slot : Nat) (port : Die),
    s.dev.inReset port = false →
    ((s.dev.can port).slot slot).arm = true →
    ((s.dev.can port).slot slot).flag = false →
    ((s.dev.can port).slot slot).wDue = none →
    tscReached ((s.dev.advance t).tsc port) ((s.dev.can port).slot slot).due = true →
    RunsKeep (.canSlotDue t port slot) s fun e =>
      (e.can port).slot slot = { ((s.dev.can port).slot slot).take with flag := true } ∧ (e.can port).fifo = (s.dev.can port).fifo ∧ SameRegs [] s.dev e ∧ SameHostRegs [] s.dev e ∧ (port = .host → e.fcan = s.dev.fcan) ∧ (port = .field → e.hcan = s.dev.hcan) ∧ SameMotion s.dev e) ∧
  (∀ (s : State) (t slot : Nat) (port : Die),
    s.dev.inReset port = false →
    ((s.dev.can port).slot slot).flag = true →
    ((s.dev.can port).slot slot).window ≠ 0 →
    (s.dev.can port).onBus ≠ some (some slot) →
    tscReached ((s.dev.advance t).tsc port) (((s.dev.can port).slot slot).due + ((s.dev.can port).slot slot).window) = true →
    (s.dev.can port).results.length < 32 →
    RunsKeep (.canSlotWindowExpiry t port slot) s fun e =>
      (e.can port).slot slot = ((s.dev.can port).slot slot).advance ∧ (e.can port).fifo = (s.dev.can port).fifo ∧
      (e.can port).results = (s.dev.can port).results ++ [((s.dev.can port).slot slot).tag % 256 + 1024 + 2 ^ 31] ∧ SameRegs [] s.dev e ∧ SameHostRegs [] s.dev e ∧ (port = .host → e.fcan = s.dev.fcan) ∧ (port = .field → e.hcan = s.dev.hcan) ∧ SameMotion s.dev e)

/-- At arbitration the candidate of lowest arbitration value is on the bus. A sent frame leaves the FIFO with result 0 and TEC one lower. An error adds 8 to TEC and the frame stays; a lost arbitration adds nothing. A received frame whose identifier one enabled buffer accepts stands there with NEWDATA and its time; REC goes one lower. A receive error adds one to REC. A protocol exception counts in element 12 with event D7h. After bus-off recovery TEC and REC are 0 and the port is error active. (R466, R472, R474, R475, R477) -/
def Obligations.CanFramesOnTheBus : Prop :=
  (∀ (s : State) (t : Nat) (port : Die) (y : Option Nat) (image : Bytes),
    s.dev.inReset port = false →
    (s.dev.can port).init = false →
    (s.dev.can port).listen = false →
    (s.dev.can port).state ≠ 2 →
    (s.dev.can port).onBus = none →
    (s.dev.can port).candidate = some (y, image) →
    RunsKeep (.canArbitration t port) s fun e =>
      (e.can port).onBus = some y ∧ (e.can port).slots = (s.dev.can port).slots ∧ (e.can port).tec = (s.dev.can port).tec ∧
      (e.can port).fifo.map CanTx.image = (s.dev.can port).fifo.map CanTx.image ∧ SameRegs [] s.dev e ∧ SameHostRegs [] s.dev e ∧ (port = .host → e.fcan = s.dev.fcan) ∧ (port = .field → e.hcan = s.dev.hcan) ∧ SameMotion s.dev e) ∧
  (∀ (s : State) (t tdcv : Nat) (port : Die) (x : CanTx) (rest : List CanTx),
    s.dev.inReset port = false →
    (s.dev.can port).onBus = some none →
    (s.dev.can port).fifo = x :: rest →
    x.cancel = false →
    (s.dev.can port).results.length < 32 →
    (s.dev.can port).applyPending = false →
    (s.dev.can port).state = 0 →
    (s.dev.can port).tec < 128 →
    (s.dev.can port).rxe < 128 →
    RunsKeep (.canFrameSent t port tdcv) s fun e =>
      e.out = s.dev.out ++ [.can port (frameOf x.image)] ∧ (e.can port).onBus = none ∧ (e.can port).tec = (s.dev.can port).tec - 1 ∧
      (e.can port).fifo.map CanTx.image = rest.map CanTx.image ∧ (e.can port).results = (s.dev.can port).results ++ [x.tag % 256 + 2 ^ 31] ∧
      (e.can port).slots = (s.dev.can port).slots ∧ SameRegs [(canObj .field, 5), (canObj .field, 6), (canObj .field, 7)] s.dev e ∧ SameHostRegs [(canObj .host, 5), (canObj .host, 6), (canObj .host, 7)] s.dev e ∧ (port = .host → e.fcan = s.dev.fcan) ∧ (port = .field → e.hcan = s.dev.hcan) ∧ SameMotion s.dev e) ∧
  (∀ (s : State) (t : Nat) (port : Die) (y : Option Nat),
    s.dev.inReset port = false →
    (s.dev.can port).onBus = some y →
    (s.dev.can port).applyPending = false →
    (s.dev.can port).tec < 120 →
    (s.dev.can port).rxe < 128 →
    (s.dev.can port).state = 0 →
    (y.isSome || ((s.dev.can port).fifo.head?.map CanTx.cancel) == some false) = true →
    RunsKeep (.canTxError t port .other) s fun e =>
      (e.can port).onBus = none ∧ (e.can port).tec = (s.dev.can port).tec + 8 ∧ (e.can port).results = (s.dev.can port).results ∧
      (e.can port).fifo.map CanTx.image = (s.dev.can port).fifo.map CanTx.image ∧ SameRegs [(canObj .field, 5), (canObj .field, 6), (canObj .field, 7)] s.dev e ∧ SameHostRegs [(canObj .host, 5), (canObj .host, 6), (canObj .host, 7)] s.dev e ∧ (port = .host → e.fcan = s.dev.fcan) ∧ (port = .field → e.hcan = s.dev.hcan) ∧ SameMotion s.dev e) ∧
  (∀ (s : State) (t : Nat) (port : Die) (y : Option Nat),
    s.dev.inReset port = false →
    (s.dev.can port).onBus = some y →
    (s.dev.can port).applyPending = false →
    (y.isSome || ((s.dev.can port).fifo.head?.map CanTx.cancel) == some false) = true →
    RunsKeep (.canTxError t port .arbitration) s fun e =>
      (e.can port).onBus = none ∧ (e.can port).tec = (s.dev.can port).tec ∧ (e.can port).results = (s.dev.can port).results ∧
      (e.can port).fifo.map CanTx.image = (s.dev.can port).fifo.map CanTx.image ∧ SameRegs [(canObj .field, 5), (canObj .field, 6), (canObj .field, 7)] s.dev e ∧ SameHostRegs [(canObj .host, 5), (canObj .host, 6), (canObj .host, 7)] s.dev e ∧ (port = .host → e.fcan = s.dev.fcan) ∧ (port = .field → e.hcan = s.dev.hcan) ∧ SameMotion s.dev e) ∧
  (∀ (s : State) (t sof n : Nat) (port : Die) (frame : CanFrame) (x : CanRx),
    s.dev.inReset port = false →
    (s.dev.can port).init = false →
    (s.dev.can port).state = 0 →
    (s.dev.can port).tec < 128 →
    (s.dev.can port).rxe < 128 →
    (s.dev.can port).rx = [(n, x)] →
    x.enable = true →
    x.newData = false →
    Nat.land (Nat.xor (frame.id % 2 ^ 29) (x.filter % 2 ^ 29)) (x.mask % 2 ^ 29) = 0 →
    frame.xtd = bit x.filter 29 →
    RunsKeep (.canFrameReceived t port sof frame) s fun e =>
      (e.can port).rx = [(n, { x with newData := true, time := sof % 2 ^ 32, image := imageOf frame })] ∧
      ((s.dev.can port).listen = false → (e.can port).rxe = (s.dev.can port).rxe - 1) ∧ (e.can port).fifo = (s.dev.can port).fifo ∧ SameRegs [(canObj .field, 5), (canObj .field, 6), (canObj .field, 7)] s.dev e ∧ SameHostRegs [(canObj .host, 5), (canObj .host, 6), (canObj .host, 7)] s.dev e ∧ (port = .host → e.fcan = s.dev.fcan) ∧ (port = .field → e.hcan = s.dev.hcan) ∧ SameMotion s.dev e) ∧
  (∀ (s : State) (t : Nat) (port : Die),
    s.dev.inReset port = false →
    (s.dev.can port).init = false →
    (s.dev.can port).listen = false →
    (s.dev.can port).state = 0 →
    (s.dev.can port).tec < 128 →
    (s.dev.can port).rxe < 127 →
    RunsKeep (.canReceiveError t port) s fun e =>
      (e.can port) = { s.dev.can port with rxe := (s.dev.can port).rxe + 1 } ∧ SameRegs [(canObj .field, 5), (canObj .field, 6), (canObj .field, 7)] s.dev e ∧ SameHostRegs [(canObj .host, 5), (canObj .host, 6), (canObj .host, 7)] s.dev e ∧ (port = .host → e.fcan = s.dev.fcan) ∧ (port = .field → e.hcan = s.dev.hcan) ∧ SameMotion s.dev e) ∧
  (∀ (s : State) (t : Nat),
    s.dev.md.fieldReset = false →
    s.dev.fcan.init = false →
    RunsKeep (.canProtocolException t .field) s fun e =>
      e.fcan = { s.dev.fcan with int := setBit s.dev.fcan.int 8 true } ∧ Raised s.dev e 0xD7 [] ∧
      e.rd (canObj .field) 12 0 = ((sat32 (s.dev.rn (canObj .field) 12 0 + 1) : Nat) : Int) ∧ e.hcan = s.dev.hcan ∧
      SameRegs [(canObj .field, 12)] s.dev e ∧ SameHostRegs [] s.dev e ∧ SameMotion s.dev e) ∧
  (∀ (s : State) (t : Nat),
    s.dev.md.hostReset = false →
    s.dev.hcan.init = false →
    RunsKeep (.canProtocolException t .host) s fun e =>
      e.hcan = { s.dev.hcan with int := setBit s.dev.hcan.int 8 true } ∧ e.fcan = s.dev.fcan ∧
      e.hrd (canObj .host) 12 0 = ((sat32 (s.dev.hrn (canObj .host) 12 0 + 1) : Nat) : Int) ∧
      SameRegs [] s.dev e ∧ SameHostRegs [(canObj .host, 12)] s.dev e ∧ SameMotion s.dev e) ∧
  (∀ (s : State) (t : Nat),
    s.dev.md.hostReset = false →
    s.dev.hcan.init = false →
    s.dev.hcan.state = 2 →
    s.dev.hcan.recovering = true →
    RunsKeep (.busOffRecovery t .host) s fun e =>
      e.hcan = { s.dev.hcan with int := setBit s.dev.hcan.int 4 true, tec := 0, rxe := 0, state := 0, recovering := false } ∧
      e.fcan = s.dev.fcan ∧ SameRegs [] s.dev e ∧
      SameHostRegs [(canObj .host, 5), (canObj .host, 6), (canObj .host, 7)] s.dev e ∧ SameMotion s.dev e) ∧
  (∀ (s : State) (t : Nat),
    s.dev.md.fieldReset = false →
    s.dev.fcan.init = false →
    s.dev.fcan.state = 2 →
    s.dev.fcan.recovering = true →
    RunsKeep (.busOffRecovery t .field) s fun e =>
      e.fcan = { s.dev.fcan with int := setBit s.dev.fcan.int 4 true, tec := 0, rxe := 0, state := 0, recovering := false } ∧
      Raised s.dev e 0xD2 [] ∧ e.rd (canObj .field) 6 0 = 0 ∧ e.rd (canObj .field) 7 0 = 0 ∧ e.hcan = s.dev.hcan ∧
      SameRegs [(canObj .field, 5), (canObj .field, 6), (canObj .field, 7)] s.dev e ∧ SameHostRegs [] s.dev e ∧ SameMotion s.dev e)

/-- A running core's enqueue to an enabled queue with room puts the staged item at its tail with status 1; to a full or disabled queue it is refused with status 2 or 4, and 8020h:4 counts it. LFT_GET completes the item in service and puts the item chosen in service; LFT_DONE completes it. LFT_SLEEP puts the core to sleep unless a wake is due. A queue configuration sets LIMIT and PRIORITY and drops no item. (R482, R484, R485, R486, R488, R490) -/
def Obligations.TheLiftQueuesAndServes : Prop :=
  (∀ (s : State) (t core queue : Nat),
    s.dev.coreActs core = true →
    queue < 64 →
    (s.dev.lq queue).limit ≠ 0 →
    s.dev.queueFull queue = false →
    RunsKeep (.liftEnqueue t core queue) s fun e =>
      (e.core core).enqStatus = 1 ∧ (e.lq queue).items.take ((s.dev.lq queue).items.length + 1) =
        (s.dev.lq queue).items ++ [({ flow := bits (leAt (s.dev.core core).staged 0 2) 9 0, atomic := bit (leAt (s.dev.core core).staged 0 2) 15, queue := queue, source := 0, payload := fit ((s.dev.core core).staged.drop 4) 12 }, max s.dev.now t)] ∧
      SameRegs [] s.dev e ∧ SameHostRegs [] s.dev e ∧ SameMotion s.dev e ∧ SameStore s.dev e ∧ SameCan s.dev e) ∧
  (∀ (s : State) (t core queue : Nat),
    s.dev.coreActs core = true →
    queue < 64 →
    (s.dev.lq queue).limit ≠ 0 →
    s.dev.queueFull queue = true →
    RunsKeep (.liftEnqueue t core queue) s fun e =>
      e.core core = { s.dev.core core with enqStatus := 2 } ∧ e.lift.queues = s.dev.lift.queues ∧
      e.rd 0x8020 4 queue = ((sat32 (s.dev.rn 0x8020 4 queue + 1) : Nat) : Int) ∧ SameRegs [] s.dev e ∧ SameHostRegs [] s.dev e ∧ SameMotion s.dev e ∧ SameStore s.dev e ∧ SameCan s.dev e) ∧
  (∀ (s : State) (t core queue : Nat),
    s.dev.coreActs core = true →
    queue < 64 →
    (s.dev.lq queue).limit = 0 →
    RunsKeep (.liftEnqueue t core queue) s fun e =>
      e.core core = { s.dev.core core with enqStatus := 4 } ∧ e.lift.queues = s.dev.lift.queues ∧
      e.rd 0x8020 4 queue = ((sat32 (s.dev.rn 0x8020 4 queue + 1) : Nat) : Int) ∧ SameRegs [] s.dev e ∧ SameHostRegs [] s.dev e ∧ SameMotion s.dev e ∧ SameStore s.dev e ∧ SameCan s.dev e) ∧
  (∀ (s : State) (t core q y : Nat) (x : Item),
    s.dev.coreActs core = true →
    (s.dev.core core).item = none →
    s.dev.pickQueue core = some q →
    s.dev.pickItem q core = some (x, y) →
    s.dev.lift.heldEv = [] →
    s.dev.lift.mails.all (fun p => p.2.held.isNone) = true →
    RunsKeep (.liftGet t core) s fun e =>
      (e.core core).item = some ({ x with queue := q }, max s.dev.now t) ∧ (e.lq q).items = removeFirst (x, y) (s.dev.lq q).items ∧
      e.rd 0x8020 1 q = ((removeFirst (x, y) (s.dev.lq q).items).length : Int) ∧ Tab.find e.lift.flowLast x.flow = some core ∧ SameRegs [] s.dev e ∧ SameHostRegs [] s.dev e ∧ SameMotion s.dev e ∧ SameStore s.dev e ∧ SameCan s.dev e) ∧
  (∀ (s : State) (t core : Nat),
    s.dev.coreActs core = true →
    (s.dev.core core).item = none →
    s.dev.pickQueue core = none →
    RunsKeep (.liftGet t core) s fun e => e = s.dev.advance t) ∧
  (∀ (s : State) (t core : Nat),
    s.dev.coreActs core = true →
    (s.dev.core core).item.isSome = true →
    s.dev.lift.heldEv = [] →
    s.dev.lift.mails.all (fun p => p.2.held.isNone) = true →
    RunsKeep (.liftDone t core) s fun e =>
      e.core core = { s.dev.core core with item := none, overrun := false } ∧ e.lift.queues = s.dev.lift.queues ∧
      e.rd 0x8030 3 core = ((sat32 (s.dev.rn 0x8030 3 core + 1) : Nat) : Int) ∧ SameRegs [] s.dev e ∧ SameHostRegs [] s.dev e ∧ SameMotion s.dev e ∧ SameStore s.dev e ∧ SameCan s.dev e) ∧
  (∀ (s : State) (t core : Nat),
    s.dev.coreActs core = true →
    s.dev.wakeDue core = false →
    RunsKeep (.liftSleep t core) s fun e =>
      (e.core core).state = 1 ∧ e.rd 0x8030 1 core = 1 ∧ (e.core core).item = (s.dev.core core).item ∧ e.lift.queues = s.dev.lift.queues ∧ SameRegs [] s.dev e ∧ SameHostRegs [] s.dev e ∧ SameMotion s.dev e ∧ SameStore s.dev e ∧ SameCan s.dev e) ∧
  (∀ (s : State) (t core : Nat),
    s.dev.coreActs core = true →
    s.dev.wakeDue core = true →
    RunsKeep (.liftSleep t core) s fun e => e.core core = { s.dev.core core with wake := false } ∧ e.lift.queues = s.dev.lift.queues ∧ SameRegs [] s.dev e ∧ SameHostRegs [] s.dev e ∧ SameMotion s.dev e ∧ SameStore s.dev e ∧ SameCan s.dev e) ∧
  (∀ (s : State) (t queue value : Nat),
    s.dev.md.fieldReset = false →
    queue < 64 →
    s.dev.lift.heldEv = [] →
    s.dev.lift.mails.all (fun p => p.2.held.isNone) = true →
    RunsKeep (.liftQueueConfig t queue value) s fun e =>
      (e.lq queue).limit = bits value 12 0 ∧ (e.lq queue).prio = bits value 18 16 ∧ (e.lq queue).items.take (s.dev.lq queue).items.length = (s.dev.lq queue).items ∧
      SameRegs [] s.dev e ∧ SameHostRegs [] s.dev e ∧ SameMotion s.dev e ∧ SameStore s.dev e ∧ SameCan s.dev e)

/-- A kick with A5C3h restarts the watchdog of its core; another value does nothing. An expired watchdog resets the core, drops its item, raises event F0h, in Run and Ride-through the cause of Safe-hold. SEND by the sender of an enabled mailbox puts the send buffer before the receiver with FULL, COUNT and PENDING; over an untaken message it sets COLLISION and 8040h:5 counts; by another core it is a bus error. TAKE with the present count clears FULL; another count does nothing. (R483, R491, R492, R43) -/
def Obligations.CoresWatchdogsAndMailboxes : Prop :=
  (∀ (s : State) (t core : Nat),
    s.dev.coreActs core = true →
    RunsKeep (.watchdogKick t core 0xA5C3) s fun e =>
      e.core core = { s.dev.core core with kickAt := max s.dev.now t } ∧ e.lift.queues = s.dev.lift.queues ∧ SameRegs [] s.dev e ∧ SameHostRegs [] s.dev e ∧ SameMotion s.dev e ∧ SameStore s.dev e ∧ SameCan s.dev e) ∧
  (∀ (s : State) (t core value : Nat),
    value % 2 ^ 32 ≠ 0xA5C3 →
    RunsKeep (.watchdogKick t core value) s fun e => e = s.dev.advance t) ∧
  (∀ (s : State) (t core : Nat),
    s.dev.md.fieldReset = false →
    core < 8 →
    (s.dev.core core).wdEnable = true →
    (s.dev.core core).kickAt + (s.dev.core core).wdPeriod * ms ≤ t →
    RunsKeep (.coreWatchdog t core) s fun e =>
      (e.core core).item = none ∧ (e.core core).state = 2 ∧ (e.core core).kickAt = max s.dev.now t ∧ Raised s.dev e 0xF0 (leBytes core 1) ∧
      e.rd 0x8030 4 core = ((sat32 (s.dev.rn 0x8030 4 core + 1) : Nat) : Int) ∧
      (s.dev.mode = 3 → s.dev.md.cause = none → e.md.cause = some 0xF0) ∧ SameRegs [] s.dev e ∧ SameHostRegs [] s.dev e ∧ SameMotion s.dev e ∧ SameStore s.dev e ∧ SameCan s.dev e) ∧
  (∀ (s : State) (t core m len : Nat),
    s.dev.coreActs core = true →
    m < 32 →
    bit (s.dev.mail m).cfg 31 = true →
    bits (s.dev.mail m).cfg 2 0 = core →
    0 < len →
    len ≤ 1024 →
    (s.dev.mail m).full = false →
    bit (s.dev.mail m).cfg 6 = false →
    RunsKeep (.mailboxSend t core m len) s fun e =>
      e.mail m = { s.dev.mail m with recvBuf := fit (s.dev.mail m).sendBuf len, full := true, pending := true, length := len, count := ((s.dev.mail m).count + 1) % 65536 } ∧
      e.lift.queues = s.dev.lift.queues ∧ Quiet s.dev e ∧ SameRegs [] s.dev e ∧ SameHostRegs [] s.dev e ∧ SameMotion s.dev e ∧ SameStore s.dev e ∧ SameCan s.dev e) ∧
  (∀ (s : State) (t core m len : Nat),
    s.dev.coreActs core = true →
    m < 32 →
    bit (s.dev.mail m).cfg 31 = true →
    bits (s.dev.mail m).cfg 2 0 = core →
    0 < len →
    len ≤ 1024 →
    (s.dev.mail m).full = true →
    bit (s.dev.mail m).cfg 6 = false →
    RunsKeep (.mailboxSend t core m len) s fun e =>
      (e.mail m).collision = true ∧ (e.mail m).full = true ∧ (e.mail m).recvBuf = fit (s.dev.mail m).sendBuf len ∧
      (e.mail m).count = ((s.dev.mail m).count + 1) % 65536 ∧ SameRegs [] s.dev e ∧ SameHostRegs [] s.dev e ∧ SameMotion s.dev e ∧ SameStore s.dev e ∧ SameCan s.dev e) ∧
  (∀ (s : State) (t core m len : Nat),
    s.dev.coreActs core = true →
    m < 32 →
    bit (s.dev.mail m).cfg 31 = true →
    bits (s.dev.mail m).cfg 2 0 ≠ core →
    RunsKeep (.mailboxSend t core m len) s fun e =>
      e.rd 0x8030 6 core = ((sat32 (s.dev.rn 0x8030 6 core + 1) : Nat) : Int) ∧ e.lift = s.dev.lift ∧ SameRegs [] s.dev e ∧ SameHostRegs [] s.dev e ∧ SameMotion s.dev e ∧ SameStore s.dev e ∧ SameCan s.dev e) ∧
  (∀ (s : State) (t core m count : Nat),
    s.dev.coreActs core = true →
    m < 32 →
    (s.dev.mail m).full = true →
    (s.dev.mail m).count = count →
    RunsKeep (.mailboxTake t core m count) s fun e =>
      e.mail m = { s.dev.mail m with full := false, pending := false, taken := true } ∧ e.lift.queues = s.dev.lift.queues ∧ SameRegs [] s.dev e ∧ SameHostRegs [] s.dev e ∧ SameMotion s.dev e ∧ SameStore s.dev e ∧ SameCan s.dev e) ∧
  (∀ (s : State) (t core m count : Nat),
    (s.dev.mail m).count ≠ count →
    RunsKeep (.mailboxTake t core m count) s fun e => e = s.dev.advance t)

/-- A send of 1 to 3456 bytes queues the message for its mailbox and marks it pending; a take with the present count frees the mailbox and tells the sender. An event report that waits is sent in mailbox 8 whole once the last is taken. A received report's entries join the history with the time the host die gave them; the host die takes a report of the field die. An access that the map makes a bus error has no effect but 8030h:6. (R27, R481, R493, R497) -/
def Obligations.BarrierMailAndEventReports : Prop :=
  (∀ (s : State) (t b len : Nat),
    s.dev.md.fieldReset = false →
    b < 16 →
    0 < len →
    len ≤ 3456 →
    RunsKeep (.barrierMailboxSend t b len) s fun e =>
      e.lastSent .field = some (b, cellsOf 64 (fit (Tab.get s.dev.bar.field.send b {}).buf len)) ∧
      e.bar.field.queue.dropLast = s.dev.bar.field.queue ∧ (Tab.get e.bar.field.send b {}).pending = true ∧
      (Tab.get e.bar.field.send b {}).taken = false ∧ e.bar.host = s.dev.bar.host ∧ e.lift = s.dev.lift ∧ SameRegs [] s.dev e ∧ SameHostRegs [] s.dev e ∧ SameMotion s.dev e ∧ SameStore s.dev e ∧ SameCan s.dev e) ∧
  (∀ (s : State) (t b count : Nat),
    s.dev.md.fieldReset = false →
    b < 16 →
    (Tab.get s.dev.bar.field.recv b {}).count = count →
    (Tab.get s.dev.bar.field.recv b {}).full = true →
    RunsKeep (.barrierMailboxTake t b count) s fun e =>
      Tab.find e.bar.field.recv b = some { Tab.get s.dev.bar.field.recv b {} with full := false } ∧
      e.bar.field.ctl = s.dev.bar.field.ctl ++ [(2, b)] ∧ e.bar.host = s.dev.bar.host ∧ e.lift = s.dev.lift ∧ SameRegs [] s.dev e ∧ SameHostRegs [] s.dev e ∧ SameMotion s.dev e ∧ SameStore s.dev e ∧ SameCan s.dev e) ∧
  (∀ (s : State) (t : Nat),
    s.dev.md.fieldReset = false →
    s.dev.bar.field.report ≠ [] →
    s.dev.sendBusy .field 8 = false →
    RunsKeep (.eventReportSend t) s fun e =>
      e.lastSent .field = some (8, cellsOf 64 (s.dev.bar.field.report.flatMap id)) ∧ e.bar.field.report = [] ∧ e.bar.field.reportOut = true ∧
      e.bar.host = s.dev.bar.host ∧ e.lift = s.dev.lift ∧ SameRegs [] s.dev e ∧ SameHostRegs [] s.dev e ∧ SameMotion s.dev e ∧ SameStore s.dev e ∧ SameCan s.dev e) ∧
  (∀ (s : State) (t : Nat) (msg : Bytes),
    s.dev.md.fieldReset = false →
    msg.length = 32 →
    RunsKeep (.eventReportReceived t msg) s fun e =>
      e.ring.queue.length = s.dev.ring.queue.length + 1 ∧ e.ring.queue.dropLast = s.dev.ring.queue ∧
      e.ring.queue.getLast?.map EvEntry.num = some (byteAt msg 4) ∧ e.ring.queue.getLast?.map EvEntry.data = some (slice msg 6 10) ∧
      e.ring.queue.getLast?.map EvEntry.time = some (leAt msg 16 10) ∧ e.ring.queue.getLast?.map EvEntry.quality = some (byteAt msg 26) ∧
      e.bar.host = s.dev.bar.host ∧ e.lift = s.dev.lift ∧ SameRegs [] s.dev e ∧ SameHostRegs [] s.dev e ∧ SameMotion s.dev e ∧ SameStore s.dev e ∧ SameCan s.dev e) ∧
  (∀ (s : State) (t : Nat) (msg : Bytes),
    s.dev.md.hostReset = false →
    (Tab.get s.dev.bar.host.recv 8 {}).full = true →
    RunsKeep (.fieldEventReport t msg) s fun e =>
      (Tab.get e.bar.host.recv 8 {}).full = false ∧ e.bar.host.ctl = s.dev.bar.host.ctl ++ [(2, 8)] ∧
      e.bar.field = s.dev.bar.field ∧ e.lift = s.dev.lift ∧ SameRegs [] s.dev e ∧ SameHostRegs [] s.dev e ∧ SameMotion s.dev e ∧ SameStore s.dev e ∧ SameCan s.dev e) ∧
  (∀ (s : State) (t core addr width : Nat) (write user : Bool),
    s.dev.coreActs core = true →
    busErrorAt (s.dev.mode != 1) addr width write user = true →
    RunsKeep (.busErrorAccess t core addr width write user) s fun e =>
      e.rd 0x8030 6 core = ((sat32 (s.dev.rn 0x8030 6 core + 1) : Nat) : Int) ∧ e.bar = s.dev.bar ∧ e.lift = s.dev.lift ∧ Quiet s.dev e ∧ SameRegs [] s.dev e ∧ SameHostRegs [] s.dev e ∧ SameMotion s.dev e ∧ SameStore s.dev e ∧ SameCan s.dev e)

/-- A word written to shared SRAM stands there and nothing else changes. A write that the map makes a bus error counts in 8030h:6 and has no other effect. Writes set the staged item, a core's watchdog, the flow limit, an event's route at runtime level, interrupt enables of FCAN, and the filter of a receive buffer; a one clears a CAN interrupt flag. A write of the host part to HCAN does the same at the host die. A core that does not run writes nothing. (R471, R477, R481, R483, R489, R495) -/
def Obligations.RegistersAreWritten : Prop :=
  (∀ (s : State) (t core addr value : Nat) (user : Bool),
    s.dev.coreActs core = true →
    0x10000000 ≤ addr →
    addr < 0x11000000 →
    addr % 4 = 0 →
    Runs (.registerWrite t .field core addr value user) s fun e =>
      RamWritten s e addr (leBytes (value % 2 ^ 32) 4) ∧ e.dev = s.dev.advance t) ∧
  (∀ (s : State) (t core addr value : Nat) (user : Bool),
    s.dev.coreActs core = true →
    busErrorAt (s.dev.mode != 1) addr 4 true user = true →
    RunsKeep (.registerWrite t .field core addr value user) s fun e =>
      e.rd 0x8030 6 core = ((sat32 (s.dev.rn 0x8030 6 core + 1) : Nat) : Int) ∧ e.bar = s.dev.bar ∧ e.lift = s.dev.lift ∧ Quiet s.dev e ∧ SameRegs [] s.dev e ∧ SameHostRegs [] s.dev e ∧ SameMotion s.dev e ∧ SameStore s.dev e ∧ SameCan s.dev e) ∧
  (∀ (s : State) (t core value : Nat) (user : Bool),
    s.dev.coreActs core = true →
    RunsKeep (.registerWrite t .field core 0x41000004 value user) s fun e =>
      e.core core = { s.dev.core core with staged := putWord (s.dev.core core).staged 16 4 (value % 2 ^ 32) } ∧ e.lift.queues = s.dev.lift.queues ∧ SameRegs [] s.dev e ∧ SameHostRegs [] s.dev e ∧ SameMotion s.dev e ∧ SameStore s.dev e ∧ SameCan s.dev e) ∧
  (∀ (s : State) (t core value k : Nat),
    s.dev.coreActs core = true →
    k < 8 →
    (s.dev.core k).wdEnable = true →
    RunsKeep (.registerWrite t .field core (0x41001200 + 4 * k) value false) s fun e =>
      e.core k = { s.dev.core k with wdPeriod := bits (value % 2 ^ 32) 9 0, wdEnable := bit (value % 2 ^ 32) 31 } ∧ e.lift.queues = s.dev.lift.queues ∧ SameRegs [] s.dev e ∧ SameHostRegs [] s.dev e ∧ SameMotion s.dev e ∧ SameStore s.dev e ∧ SameCan s.dev e) ∧
  (∀ (s : State) (t core value : Nat) (user : Bool),
    s.dev.coreActs core = true →
    RunsKeep (.registerWrite t .field core 0x41001220 value user) s fun e =>
      e.lift = { s.dev.lift with flowLimit := bits (value % 2 ^ 32) 19 0 } ∧ SameRegs [] s.dev e ∧ SameHostRegs [] s.dev e ∧ SameMotion s.dev e ∧ SameStore s.dev e ∧ SameCan s.dev e) ∧
  (∀ (s : State) (t core value n : Nat),
    s.dev.coreActs core = true →
    n < 256 →
    RunsKeep (.registerWrite t .field core (0x42000000 + 4 * n) value false) s fun e =>
      Tab.find e.lift.routes n = some (value % 2 ^ 31) ∧ e.lift.queues = s.dev.lift.queues ∧ e.lift.cores = s.dev.lift.cores ∧ SameRegs [] s.dev e ∧ SameHostRegs [] s.dev e ∧ SameMotion s.dev e ∧ SameStore s.dev e ∧ SameCan s.dev e) ∧
  (∀ (s : State) (t core value n : Nat),
    s.dev.coreActs core = true →
    n < 256 →
    RunsKeep (.registerWrite t .field core (0x42000000 + 4 * n) value true) s fun e =>
      e.rd 0x8030 6 core = ((sat32 (s.dev.rn 0x8030 6 core + 1) : Nat) : Int) ∧ e.lift = s.dev.lift ∧ SameRegs [] s.dev e ∧ SameHostRegs [] s.dev e ∧ SameMotion s.dev e ∧ SameStore s.dev e ∧ SameCan s.dev e) ∧
  (∀ (s : State) (t core value : Nat) (user : Bool),
    s.dev.coreActs core = true →
    RunsKeep (.registerWrite t .field core 0x4A000014 value user) s fun e =>
      e.fcan = { s.dev.fcan with inten := value % 2 ^ 32 % 512 } ∧ e.hcan = s.dev.hcan ∧ e.lift = s.dev.lift ∧
      SameRegs [] s.dev e ∧ SameHostRegs [] s.dev e ∧ SameMotion s.dev e) ∧
  (∀ (s : State) (t core value : Nat) (user : Bool),
    s.dev.coreActs core = true →
    RunsKeep (.registerWrite t .field core 0x4A000010 value user) s fun e =>
      e.fcan = { s.dev.fcan with int := Nat.land s.dev.fcan.int (Nat.xor 0x1FF (value % 2 ^ 32 % 512)) } ∧ e.hcan = s.dev.hcan ∧ e.lift = s.dev.lift ∧
      SameRegs [] s.dev e ∧ SameHostRegs [] s.dev e ∧ SameMotion s.dev e) ∧
  (∀ (s : State) (t core value k : Nat) (user : Bool),
    s.dev.coreActs core = true →
    k < 64 →
    RunsKeep (.registerWrite t .field core (0x4A000800 + 0x80 * k) value user) s fun e =>
      Tab.find e.fcan.rx k = some { Tab.get s.dev.fcan.rx k {} with filter := value % 2 ^ 30 } ∧ e.fcan.fifo = s.dev.fcan.fifo ∧
      e.hcan = s.dev.hcan ∧ e.lift = s.dev.lift ∧ SameRegs [] s.dev e ∧ SameHostRegs [] s.dev e ∧ SameMotion s.dev e) ∧
  (∀ (s : State) (t core value : Nat) (user : Bool),
    s.dev.md.hostReset = false →
    s.dev.md.hostFw = true →
    RunsKeep (.registerWrite t .host core 0x40014 value user) s fun e =>
      e.hcan = { s.dev.hcan with inten := value % 2 ^ 32 % 512 } ∧ e.fcan = s.dev.fcan ∧ e.lift = s.dev.lift ∧
      SameRegs [] s.dev e ∧ SameHostRegs [] s.dev e ∧ SameMotion s.dev e) ∧
  (∀ (s : State) (t core addr value : Nat) (user : Bool),
    s.dev.coreActs core = false →
    RunsKeep (.registerWrite t .field core addr value user) s fun e => e = s.dev.advance t)

/-- An unlinked idle unit that may be armed enters hold-off or, without it, armed, with nothing written; one that may not sets CFGERR. FORCE of an armed unit records the trigger, enters post-trigger and raises event F9h. A sample within an interval is accumulated; the last of an interval writes one row in the unit's capture SRAM and no other byte. Hold-off by time ends in armed. ABORT gives idle from any state; RELEASE frees a complete record and without AUTOREARM gives idle. (R501, R502, R504, R505, R506, R499) -/
def Obligations.CaptureUnitsRecord : Prop :=
  (∀ (s : State) (t unit : Nat),
    s.dev.md.fieldReset = false →
    (s.dev.capU unit).state = 0 →
    (s.dev.capU unit).linked = false →
    s.dev.capArmable unit = true →
    RunsKeep (.captureArm t unit) s fun e =>
      (e.capU unit).state = (if (s.dev.capU unit).holdMode = 1 ∨ (s.dev.capU unit).holdMode = 2 then 1 else 2) ∧ (e.capU unit).written = 0 ∧
      (e.capU unit).acc = [] ∧ (e.capU unit).regs = (s.dev.capU unit).regs ∧ Quiet s.dev e ∧ SameRegs [] s.dev e ∧ SameHostRegs [] s.dev e ∧ SameMotion s.dev e ∧ SameStore s.dev e ∧ SameCan s.dev e) ∧
  (∀ (s : State) (t unit : Nat),
    s.dev.md.fieldReset = false →
    (s.dev.capU unit).state = 0 →
    s.dev.capArmable unit = false →
    (s.dev.capU unit).linked = false →
    RunsKeep (.captureArm t unit) s fun e => e.capU unit = { s.dev.capU unit with cfgErr := true } ∧ Quiet s.dev e ∧ SameRegs [] s.dev e ∧ SameHostRegs [] s.dev e ∧ SameMotion s.dev e ∧ SameStore s.dev e ∧ SameCan s.dev e) ∧
  (∀ (s : State) (t unit : Nat),
    s.dev.md.fieldReset = false →
    unit < 4 →
    (s.dev.capU unit).state = 1 ∨ (s.dev.capU unit).state = 2 →
    (s.dev.capU unit).linked = false →
    RunsKeep (.captureForce t unit) s fun e =>
      (e.capU unit).trigSrc = 16 ∧ (e.capU unit).trigRow = (s.dev.capU unit).written % (s.dev.capU unit).rowsN ∧
      (e.capU unit).trigSub = (s.dev.capU unit).sub ∧ (e.capU unit).state = 3 ∧ (e.capU unit).postLeft = (s.dev.capU unit).rowsN - (s.dev.capU unit).reg 0x14 ∧
      Raised s.dev e 0xF9 (leBytes unit 1 ++ [16]) ∧ SameRegs [] s.dev e ∧ SameHostRegs [] s.dev e ∧ SameMotion s.dev e ∧ SameStore s.dev e ∧ SameCan s.dev e) ∧
  (∀ (s : State) (t unit : Nat),
    s.dev.md.fieldReset = false →
    RunsKeep (.captureAbort t unit) s fun e => e.capU unit = { s.dev.capU unit with state := 0 } ∧ e.rd (0x6000 + unit) 1 0 = 0 ∧ Quiet s.dev e ∧
      SameRegs [(0x6000 + unit, 1)] s.dev e ∧ SameHostRegs [] s.dev e ∧ SameMotion s.dev e) ∧
  (∀ (s : State) (t unit : Nat),
    s.dev.md.fieldReset = false →
    unit < 4 →
    (s.dev.capU unit).state = 4 →
    (s.dev.capU unit).rearm = false →
    RunsKeep (.captureRelease t unit) s fun e => e.capU unit = { s.dev.capU unit with state := 0 } ∧ e.rd (0x6000 + unit) 1 0 = 0 ∧ Quiet s.dev e ∧ SameRegs [] s.dev e ∧ SameHostRegs [] s.dev e ∧ SameMotion s.dev e ∧ SameStore s.dev e ∧ SameCan s.dev e) ∧
  (∀ (s : State) (t unit : Nat),
    s.dev.md.fieldReset = false →
    unit < 4 →
    (s.dev.capU unit).state = 1 →
    (s.dev.capU unit).holdMode = 1 →
    (s.dev.capU unit).armedAt + (s.dev.capU unit).holdVal * us ≤ t →
    RunsKeep (.captureHoldoffExpiry t unit) s fun e => e.capU unit = { s.dev.capU unit with state := 2 } ∧ e.rd (0x6000 + unit) 1 0 = 2 ∧ Quiet s.dev e ∧ SameRegs [] s.dev e ∧ SameHostRegs [] s.dev e ∧ SameMotion s.dev e ∧ SameStore s.dev e ∧ SameCan s.dev e) ∧
  (∀ (s : State) (t unit : Nat) (sd : List Nat),
    s.dev.md.fieldReset = false →
    unit < 4 →
    (s.dev.capU unit).state = 2 →
    (s.dev.capU unit).fast = true →
    (s.dev.capU unit).reg 0x1C = 0 →
    (s.dev.capU unit).sub + 1 < (s.dev.capU unit).rawDec →
    RunsKeep (.captureSample t unit sd) s fun e =>
      (e.capU unit).sub = (s.dev.capU unit).sub + 1 ∧ (e.capU unit).written = (s.dev.capU unit).written ∧ (e.capU unit).state = 2 ∧ Quiet s.dev e ∧ SameRegs [] s.dev e ∧ SameHostRegs [] s.dev e ∧ SameMotion s.dev e ∧ SameStore s.dev e ∧ SameCan s.dev e) ∧
  (∀ (s : State) (t unit : Nat) (sd : List Nat),
    s.dev.md.fieldReset = false →
    unit < 4 →
    (s.dev.capU unit).state = 2 →
    (s.dev.capU unit).fast = true →
    (s.dev.capU unit).reg 0x1C = 0 →
    (s.dev.capU unit).rawDec = 1 →
    (s.dev.capU unit).reduce = false →
    (s.dev.capU unit).acc = [] →
    (s.dev.capU unit).chans ≠ [] →
    Runs (.captureSample t unit sd) s fun e =>
      RamWritten s e (capAddr unit (s.dev.capU unit).rowLen ((s.dev.capU unit).written % (s.dev.capU unit).rowsN))
        (((s.dev.advance t).capSamples unit sd).flatMap fun p => leBytes p.2 4) ∧
      (e.dev.capU unit).written = (s.dev.capU unit).written + 1 ∧ (e.dev.capU unit).sub = 0 ∧ (e.dev.capU unit).state = 2 ∧
      SameRegs [] s.dev e.dev ∧ SameHostRegs [] s.dev e.dev ∧ SameMotion s.dev e.dev)

/-- A first window off by more than 1,000 ppm counts nothing; a good retry is transient, in 8050h:3 with the PLL in 8050h:5; a second failure is lasting, in 8050h:4 with event 28h, and the PLL is lost until it relocks: PLL_S keeps the device running, PLL_T resets the field die until it relocks, PLL_D faults every assigned sigma-delta input, PLL_H resets the host die. A supply monitor resets its die like the reset ball and its return releases it. A release that waits for lock is made when the PLLs lock. Each die's sample sets its temperature and its maximum. (R516, R517, R521, R545, R51, R52) -/
def Obligations.ClocksAndSupplies : Prop :=
  (∀ (s : State) (t pll : Nat) (ppm : Int),
    s.dev.md.fieldReset = false →
    1 ≤ pll →
    pll ≤ 3 →
    s.dev.clk.lost.contains pll = false →
    s.dev.clk.failed.contains pll = false →
    1000 < ppm.natAbs →
    RunsKeep (.clockCheckWindow t pll ppm) s fun e =>
      e.clk = { s.dev.clk with failed := pll :: s.dev.clk.failed } ∧ SameRegs [] s.dev e ∧ SameHostRegs [] s.dev e ∧ Quiet s.dev e ∧ SameMotion s.dev e ∧ SameCan s.dev e) ∧
  (∀ (s : State) (t pll : Nat) (ppm : Int),
    s.dev.md.fieldReset = false →
    1 ≤ pll →
    pll ≤ 3 →
    s.dev.clk.lost.contains pll = false →
    s.dev.clk.failed.contains pll = true →
    ppm.natAbs ≤ 1000 →
    RunsKeep (.clockCheckWindow t pll ppm) s fun e =>
      e.clk = { s.dev.clk with failed := s.dev.clk.failed.filter (fun p => p != pll) } ∧ e.rd 0x8050 5 0 = (pll : Int) ∧
      e.rd 0x8050 3 0 = ((sat32 (s.dev.rn 0x8050 3 0 + 1) : Nat) : Int) ∧
      SameRegs [(0x8050, 3), (0x8050, 5)] s.dev e ∧ SameHostRegs [] s.dev e ∧ SameMotion s.dev e ∧ SameCan s.dev e) ∧
  (∀ (s : State) (t : Nat) (ppm : Int),
    s.dev.md.fieldReset = false →
    s.dev.clk.lost.contains 1 = false →
    s.dev.clk.failed.contains 1 = true →
    1000 < ppm.natAbs →
    (List.range 4).all (fun k => s.dev.segState k != 5) = true →
    RunsKeep (.clockCheckWindow t 1 ppm) s fun e =>
      e.clk = { s.dev.clk with failed := s.dev.clk.failed.filter (fun p => p != 1), lost := 1 :: s.dev.clk.lost, locked := setBit s.dev.clk.locked 0 false } ∧
      e.rd 0x8050 4 0 = ((sat32 (s.dev.rn 0x8050 4 0 + 1) : Nat) : Int) ∧ e.rd 0x8050 5 0 = 1 ∧ Raised s.dev e 0x28 [1] ∧
      SameRegs [(0x8050, 4), (0x8050, 5)] s.dev e ∧ SameHostRegs [] s.dev e ∧ SameMotion s.dev e ∧ SameCan s.dev e) ∧
  (∀ (s : State) (t : Nat) (ppm : Int),
    s.dev.md.fieldReset = false →
    s.dev.clk.lost.contains 2 = false →
    s.dev.clk.failed.contains 2 = true →
    1000 < ppm.natAbs →
    RunsKeep (.clockCheckWindow t 2 ppm) s fun e =>
      e.clk.lost.contains 2 = true ∧ e.md.fieldReset = true ∧ e.md.fieldFw = false ∧ e.md.hostReset = s.dev.md.hostReset ∧ FieldDefaults e ∧ e.segs = [] ∧ e.eng = {} ∧ e.line = {} ∧ e.prof = {} ∧ e.safe = {} ∧ e.hcan = s.dev.hcan) ∧
  (∀ (s : State) (t input : Nat) (ppm : Int),
    s.dev.md.fieldReset = false →
    s.dev.clk.lost.contains 3 = false →
    s.dev.clk.failed.contains 3 = true →
    1000 < ppm.natAbs →
    input < 16 →
    s.dev.rn 0x3080 (3 + input) 0 ≠ 255 →
    s.dev.rb 0x3080 2 0 = true →
    RunsKeep (.clockCheckWindow t 3 ppm) s fun e =>
      e.clk.lost.contains 3 = true ∧ e.line.faulted.contains input = true ∧ Raised s.dev e 0x28 [3] ∧ e.segs = s.dev.segs ∧ e.eng = s.dev.eng ∧
      e.prof = s.dev.prof ∧ e.safe = s.dev.safe ∧ SameCan s.dev e ∧ SameHostRegs [] s.dev e) ∧
  (∀ (s : State) (t : Nat) (ppm : Int),
    s.dev.md.hostReset = false →
    s.dev.clk.lost.contains 4 = false →
    s.dev.clk.failed.contains 4 = true →
    1000 < ppm.natAbs →
    RunsKeep (.clockCheckWindow t 4 ppm) s fun e =>
      e.clk.lost.contains 4 = true ∧ e.md.hostReset = true ∧ e.md.hostFw = false ∧ HostDefaults e ∧ e.ld.session = none ∧ e.md.fieldReset = s.dev.md.fieldReset ∧ SameMotion s.dev e) ∧
  (∀ (s : State) (t pll : Nat),
    s.dev.clk.lost.contains pll = true →
    pll = 1 ∨ pll = 3 →
    RunsKeep (.pllRelock t pll) s fun e =>
      e.clk = { s.dev.clk with lost := s.dev.clk.lost.filter (fun p => p != pll), locked := setBit s.dev.clk.locked (pll - 1) true } ∧
      SameRegs [] s.dev e ∧ SameHostRegs [] s.dev e ∧ Quiet s.dev e ∧ SameMotion s.dev e ∧ SameCan s.dev e) ∧
  (∀ (s : State) (t : Nat),
    s.dev.clk.lost.contains 2 = true →
    s.dev.md.fieldReset = true →
    s.dev.clk.fieldMon = false →
    s.dev.clk.fieldWait = none →
    RunsKeep (.pllRelock t 2) s fun e => e.md.fieldReset = false ∧ e.clk.lost.contains 2 = false ∧ e.ld.rollback = rollbackOf s.nv ∧ SameCan s.dev e) ∧
  (∀ (s : State) (t : Nat),
    s.dev.clk.lost.contains 4 = true →
    s.dev.md.hostReset = true →
    s.dev.clk.hostMon = false →
    s.dev.clk.hostWait = false →
    RunsKeep (.pllRelock t 4) s fun e => e.md.hostReset = false ∧ e.clk.lost.contains 4 = false ∧ SameRegs [] s.dev e ∧ SameMotion s.dev e ∧ SameCan s.dev e) ∧
  (∀ (s : State) (t rails : Nat),
    s.dev.md.fieldReset = false →
    s.dev.st.breath = none →
    RunsKeep (.supplyMonitorReset t .field rails) s fun e =>
      e.clk.fieldMon = true ∧ e.clk.rails = rails % 65536 ∧ e.clk.railsDue = true ∧ e.md.fieldReset = true ∧ e.md.fieldFw = false ∧ e.md.hostReset = s.dev.md.hostReset ∧ FieldDefaults e ∧ e.segs = [] ∧ e.eng = {} ∧ e.line = {} ∧ e.prof = {} ∧ e.safe = {} ∧ e.hcan = s.dev.hcan) ∧
  (∀ (s : State) (t rails : Nat),
    s.dev.md.hostReset = false →
    RunsKeep (.supplyMonitorReset t .host rails) s fun e =>
      e.clk.hostMon = true ∧ e.md.hostReset = true ∧ e.md.hostFw = false ∧ HostDefaults e ∧ e.ld.session = none ∧ e.md.fieldReset = s.dev.md.fieldReset ∧ SameMotion s.dev e) ∧
  (∀ (s : State) (t : Nat),
    s.dev.clk.fieldMon = true →
    s.dev.clk.locked % 8 = 7 →
    RunsKeep (.supplyResetRelease t .field) s fun e =>
      e.md.fieldReset = false ∧ e.clk.fieldMon = false ∧ e.ld.rollback = rollbackOf s.nv ∧ SameCan s.dev e) ∧
  (∀ (s : State) (t : Nat),
    s.dev.clk.fieldMon = true →
    s.dev.clk.locked % 8 ≠ 7 →
    RunsKeep (.supplyResetRelease t .field) s fun e =>
      e.clk = { s.dev.clk with fieldMon := false, fieldWait := some s.dev.clk.straps } ∧ e.md = s.dev.md ∧ SameRegs [] s.dev e ∧ SameMotion s.dev e ∧ SameCan s.dev e) ∧
  (∀ (s : State) (t : Nat),
    s.dev.clk.hostMon = true →
    s.dev.md.hostReset = true →
    bit s.dev.clk.locked 3 = true →
    RunsKeep (.supplyResetRelease t .host) s fun e => e.md.hostReset = false ∧ e.clk.hostMon = false ∧ SameRegs [] s.dev e ∧ SameMotion s.dev e ∧ SameCan s.dev e) ∧
  (∀ (s : State) (t : Nat) (x : Nat × Nat × Nat),
    s.dev.clk.fieldWait = some x →
    RunsKeep (.pllLock t .field) s fun e => e.md.fieldReset = false ∧ e.clk.fieldWait = none ∧ e.clk.locked % 8 = 7 ∧ e.clk.straps = x ∧ SameCan s.dev e) ∧
  (∀ (s : State) (t : Nat),
    s.dev.clk.hostWait = true →
    s.dev.md.hostReset = true →
    RunsKeep (.pllLock t .host) s fun e => e.md.hostReset = false ∧ e.clk.hostWait = false ∧ bit e.clk.locked 3 = true ∧ SameRegs [] s.dev e ∧ SameMotion s.dev e ∧ SameCan s.dev e) ∧
  (∀ (s : State) (t : Nat) (temp : Int),
    s.dev.md.fieldReset = false →
    RunsKeep (.thermalSample t .field temp) s fun e =>
      e.rd 0x8060 1 0 = temp ∧ e.rd 0x8060 2 0 = max temp (s.dev.rd 0x8060 2 0) ∧ SameRegs [(0x8060, 1), (0x8060, 2)] s.dev e ∧ SameHostRegs [] s.dev e ∧ SameMotion s.dev e ∧ SameCan s.dev e) ∧
  (∀ (s : State) (t : Nat) (temp : Int),
    s.dev.md.hostReset = false →
    RunsKeep (.thermalSample t .host temp) s fun e =>
      e.hrd 0x8060 3 0 = temp ∧ e.hrd 0x8060 4 0 = max temp (s.dev.hrd 0x8060 4 0) ∧ SameRegs [] s.dev e ∧ SameHostRegs [(0x8060, 3), (0x8060, 4)] s.dev e ∧ SameMotion s.dev e ∧ SameCan s.dev e)

/-- At the end of recovery on a blank array the store formats it: state 1, the factory set in area 0 active nowhere, format records in lines 0 and 512, the events of format, load and end raised, and every other command of the store may run. When neither format record is readable the store fails with cause 1 and event C1h, no line is written, and positions are unproven. Before the field firmware runs, or when no recovery is under way, the command changes time only. (R398, R413, R414, R415) -/
def Obligations.RecoveryReadsTheArray : Prop :=
  (∀ (s : State) (t : Nat) (badLines : List Nat),
    s.dev.md.fieldReset = false →
    s.dev.md.fieldFw = true →
    s.dev.st.recovering = true →
    s.nv = [] →
    Runs (.recoveryComplete t badLines) s fun e =>
      e.dev.md.recovered = true ∧ e.dev.st.recovering = false ∧ e.dev.rd 0x5000 1 0 = 1 ∧ e.dev.rd 0x5070 6 0 = 1 ∧
      memSlice e.nv 0 64 = formatRecord (s.dev.advance t).devTime ∧ memSlice e.nv 32768 64 = formatRecord (s.dev.advance t).devTime ∧
      e.dev.ring.queue.any (fun x => x.num == 0xC0) = true ∧ e.dev.ring.queue.any (fun x => x.num == 0xCB) = true ∧
      e.dev.ring.queue.any (fun x => x.num == 0xC2) = true ∧ e.sram = s.sram ∧ e.dev.segs = s.dev.segs ∧ e.dev.line = s.dev.line) ∧
  (∀ (s : State) (t : Nat) (badLines : List Nat),
    s.dev.md.fieldReset = false →
    s.dev.md.fieldFw = true →
    s.dev.st.recovering = true →
    (nvLines s.nv).any (fun p => decide (p.1 < 1024)) = true →
    badLines.contains 0 = true →
    badLines.contains 512 = true →
    RunsKeep (.recoveryComplete t badLines) s fun e =>
      e.md.recovered = true ∧ e.st.recovering = false ∧ e.rd 0x5000 1 0 = 3 ∧ e.rd 0x5000 2 0 = 1 ∧ Raised s.dev e 0xC1 [1] ∧
      e.rd 0x5020 1 0 = 0 ∧ e.segs = s.dev.segs ∧ e.line = s.dev.line) ∧
  (∀ (s : State) (t : Nat) (badLines : List Nat),
    s.dev.md.fieldFw = false ∨ s.dev.st.recovering = false →
    RunsKeep (.recoveryComplete t badLines) s fun e => e = s.dev.advance t)

/-- An item in service for longer than LFT_FLOWLIMIT raises event F2h with its core and flow; the item stays in service, and the items of the other cores are as they were. The same item raises no second event. With LFT_FLOWLIMIT 0, before the limit has passed, and on a core with no item in service, the command changes time only. Segments, registers and memories are as they were. (R489) -/
def Obligations.AnItemInServiceTooLongOverrunsOnce : Prop :=
  (∀ (s : State) (t core y : Nat) (x : Item),
    s.dev.md.fieldReset = false →
    core < 8 →
    (s.dev.core core).item = some (x, y) →
    s.dev.lift.flowLimit ≠ 0 →
    (s.dev.core core).overrun = false →
    y + s.dev.lift.flowLimit * us < t →
    RunsKeep (.flowOverrun t core) s fun e =>
      (e.core core).overrun = true ∧ (e.core core).item = some (x, y) ∧ Raised s.dev e 0xF2 (leBytes core 1 ++ leBytes x.flow 2) ∧ (∀ k ∈ List.range 8, k ≠ core → (e.core k).item = (s.dev.core k).item ∧ (e.core k).overrun = (s.dev.core k).overrun) ∧ SameRegs [] s.dev e ∧ SameHostRegs [] s.dev e ∧ SameMotion s.dev e ∧ SameStore s.dev e ∧ SameCan s.dev e) ∧
  (∀ (s : State) (t core : Nat),
    (s.dev.core core).overrun = true →
    RunsKeep (.flowOverrun t core) s fun e => e = s.dev.advance t) ∧
  (∀ (s : State) (t core y : Nat) (x : Item),
    (s.dev.core core).item = some (x, y) →
    max s.dev.now t < y + s.dev.lift.flowLimit * us →
    RunsKeep (.flowOverrun t core) s fun e => e = s.dev.advance t) ∧
  (∀ (s : State) (t core : Nat),
    s.dev.lift.flowLimit = 0 →
    RunsKeep (.flowOverrun t core) s fun e => e = s.dev.advance t) ∧
  (∀ (s : State) (t core : Nat),
    (s.dev.core core).item = none →
    RunsKeep (.flowOverrun t core) s fun e => e = s.dev.advance t)

/-- When a sample accepts A and B together at Source 1 or 2, the counter holds, 2720h:2 counts up, and Uncertainty grows by 2 counts. Event E1h is raised when none was raised for the channel within the last second, and none is raised otherwise. The filtered levels of A and B follow the lines; the other channels and the motion side are as they were. (The instant of the last event of a channel stands in `limits` under the event number and the channel.) (R379) -/
def Obligations.BothQuadratureLinesAtOnce : Prop :=
  (∀ (s : State) (t channel levels : Nat),
    s.dev.md.fieldReset = false →
    channel < 8 →
    levels < 64 →
    s.dev.rn 0x2700 2 channel = 1 ∨ s.dev.rn 0x2700 2 channel = 2 →
    s.dev.rn 0x2700 4 channel = 0 →
    (s.dev.advance t).accepted channel levels = [3, 4] →
    (match Tab.find s.dev.limits (0xE1 * 16777216 + channel) with | some x => decide (x + sec ≤ max s.dev.now t) | none => true) = true →
    RunsKeep (.feedbackTransition t channel levels) s fun e =>
      (e.fbc channel).pos = (s.dev.fbc channel).pos ∧ (e.fbc channel).unc = sat32 ((s.dev.fbc channel).unc + 2) ∧
      e.rd 0x2720 2 channel = ((sat32 (s.dev.rn 0x2720 2 channel + 1) : Nat) : Int) ∧
      bit (e.fbc channel).level 3 = bit levels 3 ∧ bit (e.fbc channel).level 4 = bit levels 4 ∧ Raised s.dev e 0xE1 [] ∧
      Tab.find e.limits (0xE1 * 16777216 + channel) = some (max s.dev.now t) ∧
      SameRegs [(0x2720, 1), (0x2720, 2)] s.dev e ∧ e.segs = s.dev.segs ∧ e.eng = s.dev.eng ∧ e.gov = s.dev.gov ∧ e.line = s.dev.line ∧ e.prof = s.dev.prof ∧ e.safe = s.dev.safe ∧ SameHostRegs [] s.dev e ∧ (∀ k ∈ List.range 8, k ≠ channel → e.fbc k = s.dev.fbc k)) ∧
  (∀ (s : State) (t channel levels x : Nat),
    s.dev.md.fieldReset = false →
    channel < 8 →
    levels < 64 →
    s.dev.rn 0x2700 2 channel = 1 ∨ s.dev.rn 0x2700 2 channel = 2 →
    s.dev.rn 0x2700 4 channel = 0 →
    (s.dev.advance t).accepted channel levels = [3, 4] →
    Tab.find s.dev.limits (0xE1 * 16777216 + channel) = some x →
    max s.dev.now t < x + sec →
    RunsKeep (.feedbackTransition t channel levels) s fun e =>
      (e.fbc channel).pos = (s.dev.fbc channel).pos ∧ (e.fbc channel).unc = sat32 ((s.dev.fbc channel).unc + 2) ∧
      e.rd 0x2720 2 channel = ((sat32 (s.dev.rn 0x2720 2 channel + 1) : Nat) : Int) ∧
      bit (e.fbc channel).level 3 = bit levels 3 ∧ bit (e.fbc channel).level 4 = bit levels 4 ∧ (e.ring.queue.drop s.dev.ring.queue.length).any (fun y => y.num == 0xE1) = false ∧
      Tab.find e.limits (0xE1 * 16777216 + channel) = some x ∧
      SameRegs [(0x2720, 1), (0x2720, 2)] s.dev e ∧ e.segs = s.dev.segs ∧ e.eng = s.dev.eng ∧ e.gov = s.dev.gov ∧ e.line = s.dev.line ∧ e.prof = s.dev.prof ∧ e.safe = s.dev.safe ∧ SameHostRegs [] s.dev e ∧ (∀ k ∈ List.range 8, k ≠ channel → e.fbc k = s.dev.fbc k))

/-- A step with command c at the front of the queue is c run on the state with the rest of the queue. A step on an empty queue leaves the state as it is: that is the model's choice (notes/assumptions/2.md), no rule of the spec. (95_what_each_step_holds.md) -/
def Obligations.AStepRunsTheFirstCommand : Prop :=
  (∀ (c : Instr) (rest : List Instr) (s : State), s.pending = c :: rest → step s = exec c { s with pending := rest }) ∧
  (∀ s : State, s.pending = [] → step s = .next s)

/-- State.reset is the device at power-good: mode 0 (Dormant), no firmware on either die, the barrier in its first training and not yet up. No command waits, host-visible SRAM and the Saffron array list no byte and so have their canonical form, no event is queued, no safety output is driven. (What an unlisted byte reads as is the model's choice, notes/assumptions/4.md.) (R35, R45, R395) -/
def Obligations.ResetIsDormantAndEmpty : Prop :=
  State.reset.pending = [] ∧ State.reset.sram = [] ∧ State.reset.nv = [] ∧ State.reset.Safe ∧ State.reset.dev.mode = 0 ∧
    State.reset.dev.md.fieldFw = false ∧ State.reset.dev.md.hostFw = false ∧ State.reset.dev.bar.training = true ∧
    State.reset.dev.bar.link = 0 ∧ State.reset.dev.ring.queue = [] ∧ State.reset.dev.safe.outs = [] ∧
    FieldDefaults State.reset.dev ∧ HostDefaults State.reset.dev

/-- From every state whose two byte memories have their canonical form (addresses strictly rising, no byte listed that an unlisted address reads as), a step answers a next state, never a fault or a refusal; the memories of that state are canonical, and its queue is the rest of the queue. So equal memories stay equal data, whatever is stored. (R395, R481) -/
def Obligations.EveryStepKeepsTheMemoriesCanonical : Prop :=
  ∀ s : State, s.MemoryCanonical →
    ∃ e : State, step s = .next e ∧ e.MemoryCanonical ∧ e.pending = s.pending.tail

/-- A command other than a register write and a capture sample leaves every byte of host-visible SRAM as it was. A command other than an object request, a fragment of one, a format, the end of recovery, the end of a line or set write, a reset of the field die and what starts or ends a last breath leaves every byte of the array as it was. (R395, R396, R481) -/
def Obligations.OnlyStoringCommandsChangeMemory : Prop :=
  ∀ (c : Instr) (s e : State), exec c s = .next e →
    (c.storesRam = false → ∀ a, memRead e.sram a = memRead s.sram a) ∧
    (c.storesArray = false → ∀ a, memRead e.nv a = memRead s.nv a)
end

