-- ==== Sys2Proof/Laws/Tab.lean ====
section
/-! SUPPORT. What a sparse table and a byte memory hold after a write, and that a write keeps the canonical form. -/

namespace Sys2Proof.Machine

theorem Tab.find_put_same {α : Type} (t : Tab α) (k : Nat) (a : α) : Tab.find (Tab.put t k a) k = some a := by
  induction t with
  | nil => simp [Tab.put, Tab.find]
  | cons p t ih =>
    obtain ⟨j, b⟩ := p
    simp only [Tab.put]
    split
    · simp [Tab.find]
    · split
      · simp [Tab.find]
      · rename_i h1 h2
        have h2' : j ≠ k := by simpa using h2
        have h3 : j < k := by omega
        simp [Tab.find, h2', h3, ih]

theorem Tab.find_put_other {α : Type} (t : Tab α) (k j : Nat) (a : α) (h : j ≠ k) :
    Tab.find (Tab.put t k a) j = Tab.find t j := by
  induction t with
  | nil =>
    have : k ≠ j := fun e => h e.symm
    simp [Tab.put, Tab.find, this]
  | cons p t ih =>
    obtain ⟨i, b⟩ := p
    have hk : k ≠ j := fun e => h e.symm
    simp only [Tab.put]
    split
    · rename_i h1
      simp only [Tab.find]
      by_cases h2 : k < j
      · simp [hk, h2]
      · have h3 : i ≠ j := by omega
        have h4 : ¬ i < j := by omega
        simp [hk, h2, h3, h4]
    · split
      · rename_i h1 h2
        have h2' : i = k := by simpa using h2
        subst h2'
        simp [Tab.find, hk]
      · simp only [Tab.find, ih]

theorem Tab.find_put {α : Type} (t : Tab α) (k j : Nat) (a : α) :
    Tab.find (Tab.put t k a) j = if j = k then some a else Tab.find t j := by
  split
  · rename_i h
    rw [h]
    exact Tab.find_put_same t k a
  · rename_i h
    exact Tab.find_put_other t k j a h

theorem Tab.get_put {α : Type} (t : Tab α) (k j : Nat) (a b : α) :
    Tab.get (Tab.put t k a) j b = if j = k then a else Tab.get t j b := by
  simp only [Tab.get, Tab.find_put]
  split <;> rfl

theorem memRead_memWrite (m : Mem) (a c : Nat) (b : Byte) (h : m.wf) :
    memRead (memWrite m a b) c = if c = a then b else memRead m c := by
  have key : ∀ (lo : Nat) (m : Mem), memWfFrom lo m = true →
      memRead (memWrite m a b) c = if c = a then b else memRead m c := by
    intro lo m
    induction m generalizing lo with
    | nil =>
      intro _
      simp only [memWrite]
      by_cases hb : b = memDefault
      · simp [hb, memRead]
      · by_cases hc : c = a
        · simp [hb, hc, memRead]
        · have : a ≠ c := fun e => hc e.symm
          simp [hb, hc, memRead, this]
    | cons p m ih =>
      obtain ⟨j, e⟩ := p
      intro hw
      simp only [memWfFrom, Bool.and_eq_true, decide_eq_true_eq, bne_iff_ne] at hw
      obtain ⟨⟨hlo, he⟩, hm⟩ := hw
      have below : ∀ (x : Nat) (lo : Nat) (m : Mem), x < lo → memWfFrom lo m = true → memRead m x = memDefault := by
        intro x lo m hx hm
        cases m with
        | nil => rfl
        | cons q r =>
          obtain ⟨i, f⟩ := q
          simp only [memWfFrom, Bool.and_eq_true, decide_eq_true_eq] at hm
          have h1 : i ≠ x := by omega
          have h2 : ¬ i < x := by omega
          simp [memRead, h1, h2]
      simp only [memWrite]
      by_cases h1 : a < j
      · by_cases hb : b = memDefault
        · simp only [h1, hb, if_true, beq_self_eq_true]
          by_cases hc : c = a
          · have h2 : j ≠ c := by omega
            have h3 : ¬ j < c := by omega
            simp only [memRead, beq_iff_eq, h2, h3, if_false, if_pos hc]
          · simp [hc]
        · by_cases hc : c = a
          · simp [h1, hb, hc, memRead]
          · have h2 : a ≠ c := fun x => hc x.symm
            by_cases h3 : a < c
            · simp [h1, hb, hc, memRead, h2, h3]
            · have h4 : j ≠ c := by omega
              have h5 : ¬ j < c := by omega
              simp [h1, hb, hc, memRead, h2, h3, h4, h5]
      · by_cases h2 : j = a
        · subst h2
          by_cases hb : b = memDefault
          · by_cases hc : c = j
            · subst hc
              simp [hb, below c (c + 1) m (by omega) hm]
            · have h3 : j ≠ c := fun x => hc x.symm
              by_cases h4 : j < c
              · simp [hb, hc, memRead, h3, h4]
              · simp [hb, hc, memRead, h3, h4, below c (j + 1) m (by omega) hm]
          · by_cases hc : c = j
            · simp [hb, hc, memRead]
            · have h3 : j ≠ c := fun x => hc x.symm
              simp [hb, hc, memRead, h3]
        · have h3 : j < a := by omega
          simp only [h1, if_false, h2, beq_iff_eq, memRead]
          by_cases h4 : j = c
          · have h5 : c ≠ a := by omega
            simp [h4, h5]
          · by_cases h5 : j < c
            · simp [h4, h5, ih (j + 1) hm]
            · have h6 : c ≠ a := by omega
              simp [h4, h5, h6]
  exact key 0 m h

theorem memWfFrom_mono (m : Mem) (lo hi : Nat) (hlo : lo ≤ hi) (h : memWfFrom hi m = true) : memWfFrom lo m = true := by
  cases m with
  | nil => rfl
  | cons p m =>
    obtain ⟨j, e⟩ := p
    simp only [memWfFrom, Bool.and_eq_true, decide_eq_true_eq] at *
    exact ⟨⟨by omega, h.1.2⟩, h.2⟩

/-- A write of one byte keeps the canonical form. -/
theorem memWrite_wf (m : Mem) (a : Nat) (b : Byte) (h : m.wf) : Mem.wf (memWrite m a b) := by
  have key : ∀ (lo : Nat) (m : Mem), lo ≤ a → memWfFrom lo m = true → memWfFrom lo (memWrite m a b) = true := by
    intro lo m
    induction m generalizing lo with
    | nil =>
      intro hlo _
      simp only [memWrite]
      by_cases hb : b = memDefault
      · simp [hb, memWfFrom]
      · simp [hb, memWfFrom, hlo]
    | cons p m ih =>
      obtain ⟨j, e⟩ := p
      intro hlo hw
      have hw' := hw
      simp only [memWfFrom, Bool.and_eq_true, decide_eq_true_eq, bne_iff_ne] at hw
      obtain ⟨⟨h0, he⟩, hm⟩ := hw
      simp only [memWrite]
      by_cases h1 : a < j
      · by_cases hb : b = memDefault
        · simpa [h1, hb] using hw'
        · simp [h1, hb, memWfFrom, hlo, he, hm] <;> omega
      · by_cases h2 : j = a
        · by_cases hb : b = memDefault
          · subst h2
            simp only [Nat.lt_irrefl, beq_self_eq_true, if_true, if_false, hb]
            exact memWfFrom_mono m lo (j + 1) (by omega) hm
          · subst h2
            simp [hb, memWfFrom, hlo, hm]
        · simp [h1, h2, memWfFrom, h0, he, ih (j + 1) (by omega) hm]
  exact key 0 m (Nat.zero_le a) h

/-- A write of a byte string keeps the canonical form. -/
theorem memStore_wf (m : Mem) (a : Nat) (bs : Bytes) (h : m.wf) : Mem.wf (memStore m a bs) := by
  induction bs generalizing m a with
  | nil => exact h
  | cons b bs ih => exact ih _ _ (memWrite_wf m a b h)

/-- Outside the bytes stored every address reads as before. -/
theorem memRead_memStore_outside (m : Mem) (a c : Nat) (bs : Bytes) (h : m.wf) (hc : c < a ∨ a + bs.length ≤ c) :
    memRead (memStore m a bs) c = memRead m c := by
  induction bs generalizing m a with
  | nil => rfl
  | cons b bs ih =>
    simp only [memStore]
    have hl : (b :: bs).length = bs.length + 1 := rfl
    rw [ih _ _ (memWrite_wf m a b h) (by omega), memRead_memWrite m a c b h]
    have : c ≠ a := by omega
    simp [this]

end Sys2Proof.Machine
end

