-- ==== Sys2Proof/Laws/State.lean ====
section
/-! SUPPORT. The state record under its updates: what every named write leaves in every field, and what the elements read
after a write. -/

namespace Sys2Proof.Machine

/-! ### wr -/

@[simp] theorem Dev.wr_now (d : Dev) (o e i : Nat) (v : Int) : (d.wr o e i v).now = d.now := rfl
@[simp] theorem Dev.wr_free (d : Dev) (o e i : Nat) (v : Int) : (d.wr o e i v).free = d.free := rfl
@[simp] theorem Dev.wr_out (d : Dev) (o e i : Nat) (v : Int) : (d.wr o e i v).out = d.out := rfl
@[simp] theorem Dev.wr_bar (d : Dev) (o e i : Nat) (v : Int) : (d.wr o e i v).bar = d.bar := rfl
@[simp] theorem Dev.wr_md (d : Dev) (o e i : Nat) (v : Int) : (d.wr o e i v).md = d.md := rfl
@[simp] theorem Dev.wr_ld (d : Dev) (o e i : Nat) (v : Int) : (d.wr o e i v).ld = d.ld := rfl
@[simp] theorem Dev.wr_tm (d : Dev) (o e i : Nat) (v : Int) : (d.wr o e i v).tm = d.tm := rfl
@[simp] theorem Dev.wr_lift (d : Dev) (o e i : Nat) (v : Int) : (d.wr o e i v).lift = d.lift := rfl
@[simp] theorem Dev.wr_cap (d : Dev) (o e i : Nat) (v : Int) : (d.wr o e i v).cap = d.cap := rfl
@[simp] theorem Dev.wr_ring (d : Dev) (o e i : Nat) (v : Int) : (d.wr o e i v).ring = d.ring := rfl
@[simp] theorem Dev.wr_segs (d : Dev) (o e i : Nat) (v : Int) : (d.wr o e i v).segs = d.segs := rfl
@[simp] theorem Dev.wr_eng (d : Dev) (o e i : Nat) (v : Int) : (d.wr o e i v).eng = d.eng := rfl
@[simp] theorem Dev.wr_gov (d : Dev) (o e i : Nat) (v : Int) : (d.wr o e i v).gov = d.gov := rfl
@[simp] theorem Dev.wr_line (d : Dev) (o e i : Nat) (v : Int) : (d.wr o e i v).line = d.line := rfl
@[simp] theorem Dev.wr_prof (d : Dev) (o e i : Nat) (v : Int) : (d.wr o e i v).prof = d.prof := rfl
@[simp] theorem Dev.wr_safe (d : Dev) (o e i : Nat) (v : Int) : (d.wr o e i v).safe = d.safe := rfl
@[simp] theorem Dev.wr_fb (d : Dev) (o e i : Nat) (v : Int) : (d.wr o e i v).fb = d.fb := rfl
@[simp] theorem Dev.wr_st (d : Dev) (o e i : Nat) (v : Int) : (d.wr o e i v).st = d.st := rfl
@[simp] theorem Dev.wr_clk (d : Dev) (o e i : Nat) (v : Int) : (d.wr o e i v).clk = d.clk := rfl
@[simp] theorem Dev.wr_limits (d : Dev) (o e i : Nat) (v : Int) : (d.wr o e i v).limits = d.limits := rfl
@[simp] theorem Dev.wr_sig (d : Dev) (o e i : Nat) (v : Int) : (d.wr o e i v).sig = d.sig := rfl
@[simp] theorem Dev.wr_hcan (d : Dev) (o e i : Nat) (v : Int) : (d.wr o e i v).hcan = d.hcan := rfl
@[simp] theorem Dev.wr_fcan (d : Dev) (o e i : Nat) (v : Int) : (d.wr o e i v).fcan = d.fcan := rfl

/-! ### hwr -/

@[simp] theorem Dev.hwr_now (d : Dev) (o e i : Nat) (v : Int) : (d.hwr o e i v).now = d.now := rfl
@[simp] theorem Dev.hwr_free (d : Dev) (o e i : Nat) (v : Int) : (d.hwr o e i v).free = d.free := rfl
@[simp] theorem Dev.hwr_out (d : Dev) (o e i : Nat) (v : Int) : (d.hwr o e i v).out = d.out := rfl
@[simp] theorem Dev.hwr_bar (d : Dev) (o e i : Nat) (v : Int) : (d.hwr o e i v).bar = d.bar := rfl
@[simp] theorem Dev.hwr_md (d : Dev) (o e i : Nat) (v : Int) : (d.hwr o e i v).md = d.md := rfl
@[simp] theorem Dev.hwr_ld (d : Dev) (o e i : Nat) (v : Int) : (d.hwr o e i v).ld = d.ld := rfl
@[simp] theorem Dev.hwr_tm (d : Dev) (o e i : Nat) (v : Int) : (d.hwr o e i v).tm = d.tm := rfl
@[simp] theorem Dev.hwr_lift (d : Dev) (o e i : Nat) (v : Int) : (d.hwr o e i v).lift = d.lift := rfl
@[simp] theorem Dev.hwr_cap (d : Dev) (o e i : Nat) (v : Int) : (d.hwr o e i v).cap = d.cap := rfl
@[simp] theorem Dev.hwr_ring (d : Dev) (o e i : Nat) (v : Int) : (d.hwr o e i v).ring = d.ring := rfl
@[simp] theorem Dev.hwr_segs (d : Dev) (o e i : Nat) (v : Int) : (d.hwr o e i v).segs = d.segs := rfl
@[simp] theorem Dev.hwr_eng (d : Dev) (o e i : Nat) (v : Int) : (d.hwr o e i v).eng = d.eng := rfl
@[simp] theorem Dev.hwr_gov (d : Dev) (o e i : Nat) (v : Int) : (d.hwr o e i v).gov = d.gov := rfl
@[simp] theorem Dev.hwr_line (d : Dev) (o e i : Nat) (v : Int) : (d.hwr o e i v).line = d.line := rfl
@[simp] theorem Dev.hwr_prof (d : Dev) (o e i : Nat) (v : Int) : (d.hwr o e i v).prof = d.prof := rfl
@[simp] theorem Dev.hwr_safe (d : Dev) (o e i : Nat) (v : Int) : (d.hwr o e i v).safe = d.safe := rfl
@[simp] theorem Dev.hwr_fb (d : Dev) (o e i : Nat) (v : Int) : (d.hwr o e i v).fb = d.fb := rfl
@[simp] theorem Dev.hwr_st (d : Dev) (o e i : Nat) (v : Int) : (d.hwr o e i v).st = d.st := rfl
@[simp] theorem Dev.hwr_clk (d : Dev) (o e i : Nat) (v : Int) : (d.hwr o e i v).clk = d.clk := rfl
@[simp] theorem Dev.hwr_limits (d : Dev) (o e i : Nat) (v : Int) : (d.hwr o e i v).limits = d.limits := rfl
@[simp] theorem Dev.hwr_sig (d : Dev) (o e i : Nat) (v : Int) : (d.hwr o e i v).sig = d.sig := rfl
@[simp] theorem Dev.hwr_hcan (d : Dev) (o e i : Nat) (v : Int) : (d.hwr o e i v).hcan = d.hcan := rfl
@[simp] theorem Dev.hwr_fcan (d : Dev) (o e i : Nat) (v : Int) : (d.hwr o e i v).fcan = d.fcan := rfl

/-! ### inc -/

@[simp] theorem Dev.inc_now (d : Dev) (o e i : Nat) : (d.inc o e i).now = d.now := rfl
@[simp] theorem Dev.inc_free (d : Dev) (o e i : Nat) : (d.inc o e i).free = d.free := rfl
@[simp] theorem Dev.inc_out (d : Dev) (o e i : Nat) : (d.inc o e i).out = d.out := rfl
@[simp] theorem Dev.inc_bar (d : Dev) (o e i : Nat) : (d.inc o e i).bar = d.bar := rfl
@[simp] theorem Dev.inc_md (d : Dev) (o e i : Nat) : (d.inc o e i).md = d.md := rfl
@[simp] theorem Dev.inc_ld (d : Dev) (o e i : Nat) : (d.inc o e i).ld = d.ld := rfl
@[simp] theorem Dev.inc_tm (d : Dev) (o e i : Nat) : (d.inc o e i).tm = d.tm := rfl
@[simp] theorem Dev.inc_lift (d : Dev) (o e i : Nat) : (d.inc o e i).lift = d.lift := rfl
@[simp] theorem Dev.inc_cap (d : Dev) (o e i : Nat) : (d.inc o e i).cap = d.cap := rfl
@[simp] theorem Dev.inc_ring (d : Dev) (o e i : Nat) : (d.inc o e i).ring = d.ring := rfl
@[simp] theorem Dev.inc_segs (d : Dev) (o e i : Nat) : (d.inc o e i).segs = d.segs := rfl
@[simp] theorem Dev.inc_eng (d : Dev) (o e i : Nat) : (d.inc o e i).eng = d.eng := rfl
@[simp] theorem Dev.inc_gov (d : Dev) (o e i : Nat) : (d.inc o e i).gov = d.gov := rfl
@[simp] theorem Dev.inc_line (d : Dev) (o e i : Nat) : (d.inc o e i).line = d.line := rfl
@[simp] theorem Dev.inc_prof (d : Dev) (o e i : Nat) : (d.inc o e i).prof = d.prof := rfl
@[simp] theorem Dev.inc_safe (d : Dev) (o e i : Nat) : (d.inc o e i).safe = d.safe := rfl
@[simp] theorem Dev.inc_fb (d : Dev) (o e i : Nat) : (d.inc o e i).fb = d.fb := rfl
@[simp] theorem Dev.inc_st (d : Dev) (o e i : Nat) : (d.inc o e i).st = d.st := rfl
@[simp] theorem Dev.inc_clk (d : Dev) (o e i : Nat) : (d.inc o e i).clk = d.clk := rfl
@[simp] theorem Dev.inc_limits (d : Dev) (o e i : Nat) : (d.inc o e i).limits = d.limits := rfl
@[simp] theorem Dev.inc_sig (d : Dev) (o e i : Nat) : (d.inc o e i).sig = d.sig := rfl
@[simp] theorem Dev.inc_hcan (d : Dev) (o e i : Nat) : (d.inc o e i).hcan = d.hcan := rfl
@[simp] theorem Dev.inc_fcan (d : Dev) (o e i : Nat) : (d.inc o e i).fcan = d.fcan := rfl

/-! ### hinc -/

@[simp] theorem Dev.hinc_now (d : Dev) (o e i : Nat) : (d.hinc o e i).now = d.now := rfl
@[simp] theorem Dev.hinc_free (d : Dev) (o e i : Nat) : (d.hinc o e i).free = d.free := rfl
@[simp] theorem Dev.hinc_out (d : Dev) (o e i : Nat) : (d.hinc o e i).out = d.out := rfl
@[simp] theorem Dev.hinc_bar (d : Dev) (o e i : Nat) : (d.hinc o e i).bar = d.bar := rfl
@[simp] theorem Dev.hinc_md (d : Dev) (o e i : Nat) : (d.hinc o e i).md = d.md := rfl
@[simp] theorem Dev.hinc_ld (d : Dev) (o e i : Nat) : (d.hinc o e i).ld = d.ld := rfl
@[simp] theorem Dev.hinc_tm (d : Dev) (o e i : Nat) : (d.hinc o e i).tm = d.tm := rfl
@[simp] theorem Dev.hinc_lift (d : Dev) (o e i : Nat) : (d.hinc o e i).lift = d.lift := rfl
@[simp] theorem Dev.hinc_cap (d : Dev) (o e i : Nat) : (d.hinc o e i).cap = d.cap := rfl
@[simp] theorem Dev.hinc_ring (d : Dev) (o e i : Nat) : (d.hinc o e i).ring = d.ring := rfl
@[simp] theorem Dev.hinc_segs (d : Dev) (o e i : Nat) : (d.hinc o e i).segs = d.segs := rfl
@[simp] theorem Dev.hinc_eng (d : Dev) (o e i : Nat) : (d.hinc o e i).eng = d.eng := rfl
@[simp] theorem Dev.hinc_gov (d : Dev) (o e i : Nat) : (d.hinc o e i).gov = d.gov := rfl
@[simp] theorem Dev.hinc_line (d : Dev) (o e i : Nat) : (d.hinc o e i).line = d.line := rfl
@[simp] theorem Dev.hinc_prof (d : Dev) (o e i : Nat) : (d.hinc o e i).prof = d.prof := rfl
@[simp] theorem Dev.hinc_safe (d : Dev) (o e i : Nat) : (d.hinc o e i).safe = d.safe := rfl
@[simp] theorem Dev.hinc_fb (d : Dev) (o e i : Nat) : (d.hinc o e i).fb = d.fb := rfl
@[simp] theorem Dev.hinc_st (d : Dev) (o e i : Nat) : (d.hinc o e i).st = d.st := rfl
@[simp] theorem Dev.hinc_clk (d : Dev) (o e i : Nat) : (d.hinc o e i).clk = d.clk := rfl
@[simp] theorem Dev.hinc_limits (d : Dev) (o e i : Nat) : (d.hinc o e i).limits = d.limits := rfl
@[simp] theorem Dev.hinc_sig (d : Dev) (o e i : Nat) : (d.hinc o e i).sig = d.sig := rfl
@[simp] theorem Dev.hinc_hcan (d : Dev) (o e i : Nat) : (d.hinc o e i).hcan = d.hcan := rfl
@[simp] theorem Dev.hinc_fcan (d : Dev) (o e i : Nat) : (d.hinc o e i).fcan = d.fcan := rfl

/-! ### add -/

@[simp] theorem Dev.add_now (d : Dev) (o e i n : Nat) : (d.add o e i n).now = d.now := rfl
@[simp] theorem Dev.add_free (d : Dev) (o e i n : Nat) : (d.add o e i n).free = d.free := rfl
@[simp] theorem Dev.add_out (d : Dev) (o e i n : Nat) : (d.add o e i n).out = d.out := rfl
@[simp] theorem Dev.add_bar (d : Dev) (o e i n : Nat) : (d.add o e i n).bar = d.bar := rfl
@[simp] theorem Dev.add_md (d : Dev) (o e i n : Nat) : (d.add o e i n).md = d.md := rfl
@[simp] theorem Dev.add_ld (d : Dev) (o e i n : Nat) : (d.add o e i n).ld = d.ld := rfl
@[simp] theorem Dev.add_tm (d : Dev) (o e i n : Nat) : (d.add o e i n).tm = d.tm := rfl
@[simp] theorem Dev.add_lift (d : Dev) (o e i n : Nat) : (d.add o e i n).lift = d.lift := rfl
@[simp] theorem Dev.add_cap (d : Dev) (o e i n : Nat) : (d.add o e i n).cap = d.cap := rfl
@[simp] theorem Dev.add_ring (d : Dev) (o e i n : Nat) : (d.add o e i n).ring = d.ring := rfl
@[simp] theorem Dev.add_segs (d : Dev) (o e i n : Nat) : (d.add o e i n).segs = d.segs := rfl
@[simp] theorem Dev.add_eng (d : Dev) (o e i n : Nat) : (d.add o e i n).eng = d.eng := rfl
@[simp] theorem Dev.add_gov (d : Dev) (o e i n : Nat) : (d.add o e i n).gov = d.gov := rfl
@[simp] theorem Dev.add_line (d : Dev) (o e i n : Nat) : (d.add o e i n).line = d.line := rfl
@[simp] theorem Dev.add_prof (d : Dev) (o e i n : Nat) : (d.add o e i n).prof = d.prof := rfl
@[simp] theorem Dev.add_safe (d : Dev) (o e i n : Nat) : (d.add o e i n).safe = d.safe := rfl
@[simp] theorem Dev.add_fb (d : Dev) (o e i n : Nat) : (d.add o e i n).fb = d.fb := rfl
@[simp] theorem Dev.add_st (d : Dev) (o e i n : Nat) : (d.add o e i n).st = d.st := rfl
@[simp] theorem Dev.add_clk (d : Dev) (o e i n : Nat) : (d.add o e i n).clk = d.clk := rfl
@[simp] theorem Dev.add_limits (d : Dev) (o e i n : Nat) : (d.add o e i n).limits = d.limits := rfl
@[simp] theorem Dev.add_sig (d : Dev) (o e i n : Nat) : (d.add o e i n).sig = d.sig := rfl
@[simp] theorem Dev.add_hcan (d : Dev) (o e i n : Nat) : (d.add o e i n).hcan = d.hcan := rfl
@[simp] theorem Dev.add_fcan (d : Dev) (o e i n : Nat) : (d.add o e i n).fcan = d.fcan := rfl

/-! ### wb -/

@[simp] theorem Dev.wb_now (d : Dev) (o e i : Nat) (v : Bool) : (d.wb o e i v).now = d.now := rfl
@[simp] theorem Dev.wb_free (d : Dev) (o e i : Nat) (v : Bool) : (d.wb o e i v).free = d.free := rfl
@[simp] theorem Dev.wb_out (d : Dev) (o e i : Nat) (v : Bool) : (d.wb o e i v).out = d.out := rfl
@[simp] theorem Dev.wb_bar (d : Dev) (o e i : Nat) (v : Bool) : (d.wb o e i v).bar = d.bar := rfl
@[simp] theorem Dev.wb_md (d : Dev) (o e i : Nat) (v : Bool) : (d.wb o e i v).md = d.md := rfl
@[simp] theorem Dev.wb_ld (d : Dev) (o e i : Nat) (v : Bool) : (d.wb o e i v).ld = d.ld := rfl
@[simp] theorem Dev.wb_tm (d : Dev) (o e i : Nat) (v : Bool) : (d.wb o e i v).tm = d.tm := rfl
@[simp] theorem Dev.wb_lift (d : Dev) (o e i : Nat) (v : Bool) : (d.wb o e i v).lift = d.lift := rfl
@[simp] theorem Dev.wb_cap (d : Dev) (o e i : Nat) (v : Bool) : (d.wb o e i v).cap = d.cap := rfl
@[simp] theorem Dev.wb_ring (d : Dev) (o e i : Nat) (v : Bool) : (d.wb o e i v).ring = d.ring := rfl
@[simp] theorem Dev.wb_segs (d : Dev) (o e i : Nat) (v : Bool) : (d.wb o e i v).segs = d.segs := rfl
@[simp] theorem Dev.wb_eng (d : Dev) (o e i : Nat) (v : Bool) : (d.wb o e i v).eng = d.eng := rfl
@[simp] theorem Dev.wb_gov (d : Dev) (o e i : Nat) (v : Bool) : (d.wb o e i v).gov = d.gov := rfl
@[simp] theorem Dev.wb_line (d : Dev) (o e i : Nat) (v : Bool) : (d.wb o e i v).line = d.line := rfl
@[simp] theorem Dev.wb_prof (d : Dev) (o e i : Nat) (v : Bool) : (d.wb o e i v).prof = d.prof := rfl
@[simp] theorem Dev.wb_safe (d : Dev) (o e i : Nat) (v : Bool) : (d.wb o e i v).safe = d.safe := rfl
@[simp] theorem Dev.wb_fb (d : Dev) (o e i : Nat) (v : Bool) : (d.wb o e i v).fb = d.fb := rfl
@[simp] theorem Dev.wb_st (d : Dev) (o e i : Nat) (v : Bool) : (d.wb o e i v).st = d.st := rfl
@[simp] theorem Dev.wb_clk (d : Dev) (o e i : Nat) (v : Bool) : (d.wb o e i v).clk = d.clk := rfl
@[simp] theorem Dev.wb_limits (d : Dev) (o e i : Nat) (v : Bool) : (d.wb o e i v).limits = d.limits := rfl
@[simp] theorem Dev.wb_sig (d : Dev) (o e i : Nat) (v : Bool) : (d.wb o e i v).sig = d.sig := rfl
@[simp] theorem Dev.wb_hcan (d : Dev) (o e i : Nat) (v : Bool) : (d.wb o e i v).hcan = d.hcan := rfl
@[simp] theorem Dev.wb_fcan (d : Dev) (o e i : Nat) (v : Bool) : (d.wb o e i v).fcan = d.fcan := rfl

/-! ### wf -/

@[simp] theorem Dev.wf_now (d : Dev) (o e i : Nat) (x : Dy) : (d.wf o e i x).now = d.now := rfl
@[simp] theorem Dev.wf_free (d : Dev) (o e i : Nat) (x : Dy) : (d.wf o e i x).free = d.free := rfl
@[simp] theorem Dev.wf_out (d : Dev) (o e i : Nat) (x : Dy) : (d.wf o e i x).out = d.out := rfl
@[simp] theorem Dev.wf_bar (d : Dev) (o e i : Nat) (x : Dy) : (d.wf o e i x).bar = d.bar := rfl
@[simp] theorem Dev.wf_md (d : Dev) (o e i : Nat) (x : Dy) : (d.wf o e i x).md = d.md := rfl
@[simp] theorem Dev.wf_ld (d : Dev) (o e i : Nat) (x : Dy) : (d.wf o e i x).ld = d.ld := rfl
@[simp] theorem Dev.wf_tm (d : Dev) (o e i : Nat) (x : Dy) : (d.wf o e i x).tm = d.tm := rfl
@[simp] theorem Dev.wf_lift (d : Dev) (o e i : Nat) (x : Dy) : (d.wf o e i x).lift = d.lift := rfl
@[simp] theorem Dev.wf_cap (d : Dev) (o e i : Nat) (x : Dy) : (d.wf o e i x).cap = d.cap := rfl
@[simp] theorem Dev.wf_ring (d : Dev) (o e i : Nat) (x : Dy) : (d.wf o e i x).ring = d.ring := rfl
@[simp] theorem Dev.wf_segs (d : Dev) (o e i : Nat) (x : Dy) : (d.wf o e i x).segs = d.segs := rfl
@[simp] theorem Dev.wf_eng (d : Dev) (o e i : Nat) (x : Dy) : (d.wf o e i x).eng = d.eng := rfl
@[simp] theorem Dev.wf_gov (d : Dev) (o e i : Nat) (x : Dy) : (d.wf o e i x).gov = d.gov := rfl
@[simp] theorem Dev.wf_line (d : Dev) (o e i : Nat) (x : Dy) : (d.wf o e i x).line = d.line := rfl
@[simp] theorem Dev.wf_prof (d : Dev) (o e i : Nat) (x : Dy) : (d.wf o e i x).prof = d.prof := rfl
@[simp] theorem Dev.wf_safe (d : Dev) (o e i : Nat) (x : Dy) : (d.wf o e i x).safe = d.safe := rfl
@[simp] theorem Dev.wf_fb (d : Dev) (o e i : Nat) (x : Dy) : (d.wf o e i x).fb = d.fb := rfl
@[simp] theorem Dev.wf_st (d : Dev) (o e i : Nat) (x : Dy) : (d.wf o e i x).st = d.st := rfl
@[simp] theorem Dev.wf_clk (d : Dev) (o e i : Nat) (x : Dy) : (d.wf o e i x).clk = d.clk := rfl
@[simp] theorem Dev.wf_limits (d : Dev) (o e i : Nat) (x : Dy) : (d.wf o e i x).limits = d.limits := rfl
@[simp] theorem Dev.wf_sig (d : Dev) (o e i : Nat) (x : Dy) : (d.wf o e i x).sig = d.sig := rfl
@[simp] theorem Dev.wf_hcan (d : Dev) (o e i : Nat) (x : Dy) : (d.wf o e i x).hcan = d.hcan := rfl
@[simp] theorem Dev.wf_fcan (d : Dev) (o e i : Nat) (x : Dy) : (d.wf o e i x).fcan = d.fcan := rfl

/-! ### wblob -/

@[simp] theorem Dev.wblob_now (d : Dev) (o e i : Nat) (v : Bytes) : (d.wblob o e i v).now = d.now := rfl
@[simp] theorem Dev.wblob_free (d : Dev) (o e i : Nat) (v : Bytes) : (d.wblob o e i v).free = d.free := rfl
@[simp] theorem Dev.wblob_out (d : Dev) (o e i : Nat) (v : Bytes) : (d.wblob o e i v).out = d.out := rfl
@[simp] theorem Dev.wblob_bar (d : Dev) (o e i : Nat) (v : Bytes) : (d.wblob o e i v).bar = d.bar := rfl
@[simp] theorem Dev.wblob_md (d : Dev) (o e i : Nat) (v : Bytes) : (d.wblob o e i v).md = d.md := rfl
@[simp] theorem Dev.wblob_ld (d : Dev) (o e i : Nat) (v : Bytes) : (d.wblob o e i v).ld = d.ld := rfl
@[simp] theorem Dev.wblob_tm (d : Dev) (o e i : Nat) (v : Bytes) : (d.wblob o e i v).tm = d.tm := rfl
@[simp] theorem Dev.wblob_lift (d : Dev) (o e i : Nat) (v : Bytes) : (d.wblob o e i v).lift = d.lift := rfl
@[simp] theorem Dev.wblob_cap (d : Dev) (o e i : Nat) (v : Bytes) : (d.wblob o e i v).cap = d.cap := rfl
@[simp] theorem Dev.wblob_ring (d : Dev) (o e i : Nat) (v : Bytes) : (d.wblob o e i v).ring = d.ring := rfl
@[simp] theorem Dev.wblob_segs (d : Dev) (o e i : Nat) (v : Bytes) : (d.wblob o e i v).segs = d.segs := rfl
@[simp] theorem Dev.wblob_eng (d : Dev) (o e i : Nat) (v : Bytes) : (d.wblob o e i v).eng = d.eng := rfl
@[simp] theorem Dev.wblob_gov (d : Dev) (o e i : Nat) (v : Bytes) : (d.wblob o e i v).gov = d.gov := rfl
@[simp] theorem Dev.wblob_line (d : Dev) (o e i : Nat) (v : Bytes) : (d.wblob o e i v).line = d.line := rfl
@[simp] theorem Dev.wblob_prof (d : Dev) (o e i : Nat) (v : Bytes) : (d.wblob o e i v).prof = d.prof := rfl
@[simp] theorem Dev.wblob_safe (d : Dev) (o e i : Nat) (v : Bytes) : (d.wblob o e i v).safe = d.safe := rfl
@[simp] theorem Dev.wblob_fb (d : Dev) (o e i : Nat) (v : Bytes) : (d.wblob o e i v).fb = d.fb := rfl
@[simp] theorem Dev.wblob_st (d : Dev) (o e i : Nat) (v : Bytes) : (d.wblob o e i v).st = d.st := rfl
@[simp] theorem Dev.wblob_clk (d : Dev) (o e i : Nat) (v : Bytes) : (d.wblob o e i v).clk = d.clk := rfl
@[simp] theorem Dev.wblob_limits (d : Dev) (o e i : Nat) (v : Bytes) : (d.wblob o e i v).limits = d.limits := rfl
@[simp] theorem Dev.wblob_sig (d : Dev) (o e i : Nat) (v : Bytes) : (d.wblob o e i v).sig = d.sig := rfl
@[simp] theorem Dev.wblob_hcan (d : Dev) (o e i : Nat) (v : Bytes) : (d.wblob o e i v).hcan = d.hcan := rfl
@[simp] theorem Dev.wblob_fcan (d : Dev) (o e i : Nat) (v : Bytes) : (d.wblob o e i v).fcan = d.fcan := rfl

/-! ### emit -/

@[simp] theorem Dev.emit_now (d : Dev) (x : Output) : (d.emit x).now = d.now := rfl
@[simp] theorem Dev.emit_free (d : Dev) (x : Output) : (d.emit x).free = d.free := rfl
@[simp] theorem Dev.emit_ob (d : Dev) (x : Output) : (d.emit x).ob = d.ob := rfl
@[simp] theorem Dev.emit_bar (d : Dev) (x : Output) : (d.emit x).bar = d.bar := rfl
@[simp] theorem Dev.emit_md (d : Dev) (x : Output) : (d.emit x).md = d.md := rfl
@[simp] theorem Dev.emit_ld (d : Dev) (x : Output) : (d.emit x).ld = d.ld := rfl
@[simp] theorem Dev.emit_tm (d : Dev) (x : Output) : (d.emit x).tm = d.tm := rfl
@[simp] theorem Dev.emit_lift (d : Dev) (x : Output) : (d.emit x).lift = d.lift := rfl
@[simp] theorem Dev.emit_cap (d : Dev) (x : Output) : (d.emit x).cap = d.cap := rfl
@[simp] theorem Dev.emit_ring (d : Dev) (x : Output) : (d.emit x).ring = d.ring := rfl
@[simp] theorem Dev.emit_segs (d : Dev) (x : Output) : (d.emit x).segs = d.segs := rfl
@[simp] theorem Dev.emit_eng (d : Dev) (x : Output) : (d.emit x).eng = d.eng := rfl
@[simp] theorem Dev.emit_gov (d : Dev) (x : Output) : (d.emit x).gov = d.gov := rfl
@[simp] theorem Dev.emit_line (d : Dev) (x : Output) : (d.emit x).line = d.line := rfl
@[simp] theorem Dev.emit_prof (d : Dev) (x : Output) : (d.emit x).prof = d.prof := rfl
@[simp] theorem Dev.emit_safe (d : Dev) (x : Output) : (d.emit x).safe = d.safe := rfl
@[simp] theorem Dev.emit_fb (d : Dev) (x : Output) : (d.emit x).fb = d.fb := rfl
@[simp] theorem Dev.emit_st (d : Dev) (x : Output) : (d.emit x).st = d.st := rfl
@[simp] theorem Dev.emit_clk (d : Dev) (x : Output) : (d.emit x).clk = d.clk := rfl
@[simp] theorem Dev.emit_limits (d : Dev) (x : Output) : (d.emit x).limits = d.limits := rfl
@[simp] theorem Dev.emit_sig (d : Dev) (x : Output) : (d.emit x).sig = d.sig := rfl
@[simp] theorem Dev.emit_hcan (d : Dev) (x : Output) : (d.emit x).hcan = d.hcan := rfl
@[simp] theorem Dev.emit_fcan (d : Dev) (x : Output) : (d.emit x).fcan = d.fcan := rfl

/-! ### advance -/

@[simp] theorem Dev.advance_free (d : Dev) (t : Nat) : (d.advance t).free = d.free := rfl
@[simp] theorem Dev.advance_out (d : Dev) (t : Nat) : (d.advance t).out = d.out := rfl
@[simp] theorem Dev.advance_ob (d : Dev) (t : Nat) : (d.advance t).ob = d.ob := rfl
@[simp] theorem Dev.advance_bar (d : Dev) (t : Nat) : (d.advance t).bar = d.bar := rfl
@[simp] theorem Dev.advance_md (d : Dev) (t : Nat) : (d.advance t).md = d.md := rfl
@[simp] theorem Dev.advance_ld (d : Dev) (t : Nat) : (d.advance t).ld = d.ld := rfl
@[simp] theorem Dev.advance_lift (d : Dev) (t : Nat) : (d.advance t).lift = d.lift := rfl
@[simp] theorem Dev.advance_cap (d : Dev) (t : Nat) : (d.advance t).cap = d.cap := rfl
@[simp] theorem Dev.advance_ring (d : Dev) (t : Nat) : (d.advance t).ring = d.ring := rfl
@[simp] theorem Dev.advance_segs (d : Dev) (t : Nat) : (d.advance t).segs = d.segs := rfl
@[simp] theorem Dev.advance_eng (d : Dev) (t : Nat) : (d.advance t).eng = d.eng := rfl
@[simp] theorem Dev.advance_gov (d : Dev) (t : Nat) : (d.advance t).gov = d.gov := rfl
@[simp] theorem Dev.advance_line (d : Dev) (t : Nat) : (d.advance t).line = d.line := rfl
@[simp] theorem Dev.advance_prof (d : Dev) (t : Nat) : (d.advance t).prof = d.prof := rfl
@[simp] theorem Dev.advance_safe (d : Dev) (t : Nat) : (d.advance t).safe = d.safe := rfl
@[simp] theorem Dev.advance_fb (d : Dev) (t : Nat) : (d.advance t).fb = d.fb := rfl
@[simp] theorem Dev.advance_st (d : Dev) (t : Nat) : (d.advance t).st = d.st := rfl
@[simp] theorem Dev.advance_clk (d : Dev) (t : Nat) : (d.advance t).clk = d.clk := rfl
@[simp] theorem Dev.advance_limits (d : Dev) (t : Nat) : (d.advance t).limits = d.limits := rfl
@[simp] theorem Dev.advance_sig (d : Dev) (t : Nat) : (d.advance t).sig = d.sig := rfl
@[simp] theorem Dev.advance_hcan (d : Dev) (t : Nat) : (d.advance t).hcan = d.hcan := rfl
@[simp] theorem Dev.advance_fcan (d : Dev) (t : Nat) : (d.advance t).fcan = d.fcan := rfl

@[simp] theorem Dev.advance_now (d : Dev) (t : Nat) : (d.advance t).now = max d.now t := rfl
@[simp] theorem Dev.emit_out (d : Dev) (x : Output) : (d.emit x).out = d.out ++ [x] := rfl

/-! ### An end of the barrier -/

@[simp] theorem Dev.setBd_now (d : Dev) (die : Die) (x : BarDie) : (d.setBd die x).now = d.now := by cases die <;> rfl
@[simp] theorem Dev.setBd_free (d : Dev) (die : Die) (x : BarDie) : (d.setBd die x).free = d.free := by cases die <;> rfl
@[simp] theorem Dev.setBd_out (d : Dev) (die : Die) (x : BarDie) : (d.setBd die x).out = d.out := by cases die <;> rfl
@[simp] theorem Dev.setBd_ob (d : Dev) (die : Die) (x : BarDie) : (d.setBd die x).ob = d.ob := by cases die <;> rfl
@[simp] theorem Dev.setBd_md (d : Dev) (die : Die) (x : BarDie) : (d.setBd die x).md = d.md := by cases die <;> rfl
@[simp] theorem Dev.setBd_ld (d : Dev) (die : Die) (x : BarDie) : (d.setBd die x).ld = d.ld := by cases die <;> rfl
@[simp] theorem Dev.setBd_tm (d : Dev) (die : Die) (x : BarDie) : (d.setBd die x).tm = d.tm := by cases die <;> rfl
@[simp] theorem Dev.setBd_lift (d : Dev) (die : Die) (x : BarDie) : (d.setBd die x).lift = d.lift := by cases die <;> rfl
@[simp] theorem Dev.setBd_cap (d : Dev) (die : Die) (x : BarDie) : (d.setBd die x).cap = d.cap := by cases die <;> rfl
@[simp] theorem Dev.setBd_ring (d : Dev) (die : Die) (x : BarDie) : (d.setBd die x).ring = d.ring := by cases die <;> rfl
@[simp] theorem Dev.setBd_segs (d : Dev) (die : Die) (x : BarDie) : (d.setBd die x).segs = d.segs := by cases die <;> rfl
@[simp] theorem Dev.setBd_eng (d : Dev) (die : Die) (x : BarDie) : (d.setBd die x).eng = d.eng := by cases die <;> rfl
@[simp] theorem Dev.setBd_gov (d : Dev) (die : Die) (x : BarDie) : (d.setBd die x).gov = d.gov := by cases die <;> rfl
@[simp] theorem Dev.setBd_line (d : Dev) (die : Die) (x : BarDie) : (d.setBd die x).line = d.line := by cases die <;> rfl
@[simp] theorem Dev.setBd_prof (d : Dev) (die : Die) (x : BarDie) : (d.setBd die x).prof = d.prof := by cases die <;> rfl
@[simp] theorem Dev.setBd_safe (d : Dev) (die : Die) (x : BarDie) : (d.setBd die x).safe = d.safe := by cases die <;> rfl
@[simp] theorem Dev.setBd_fb (d : Dev) (die : Die) (x : BarDie) : (d.setBd die x).fb = d.fb := by cases die <;> rfl
@[simp] theorem Dev.setBd_st (d : Dev) (die : Die) (x : BarDie) : (d.setBd die x).st = d.st := by cases die <;> rfl
@[simp] theorem Dev.setBd_clk (d : Dev) (die : Die) (x : BarDie) : (d.setBd die x).clk = d.clk := by cases die <;> rfl
@[simp] theorem Dev.setBd_limits (d : Dev) (die : Die) (x : BarDie) : (d.setBd die x).limits = d.limits := by cases die <;> rfl
@[simp] theorem Dev.setBd_sig (d : Dev) (die : Die) (x : BarDie) : (d.setBd die x).sig = d.sig := by cases die <;> rfl
@[simp] theorem Dev.setBd_hcan (d : Dev) (die : Die) (x : BarDie) : (d.setBd die x).hcan = d.hcan := by cases die <;> rfl
@[simp] theorem Dev.setBd_fcan (d : Dev) (die : Die) (x : BarDie) : (d.setBd die x).fcan = d.fcan := by cases die <;> rfl
@[simp] theorem Dev.setBd_bd (d : Dev) (die : Die) (x : BarDie) : (d.setBd die x).bd die = x := by cases die <;> rfl

/-! ### Elements -/

theorem okey_inj {o e i p f j : Nat} (he : e < 256) (hi : i < 65536) (hf : f < 256) (hj : j < 65536) :
    okey o e i = okey p f j ↔ o = p ∧ e = f ∧ i = j := by
  unfold okey
  constructor
  · intro h
    omega
  · rintro ⟨rfl, rfl, rfl⟩
    rfl

@[simp] theorem Dev.rd_wr_same (d : Dev) (o e i : Nat) (v : Int) : (d.wr o e i v).rd o e i = v := by
  simp [Dev.rd, Dev.wr, Tab.find_put_same]

theorem Dev.rd_wr (d : Dev) (o e i p f j : Nat) (v : Int) :
    (d.wr o e i v).rd p f j = if okey p f j = okey o e i then v else d.rd p f j := by
  unfold Dev.rd Dev.wr
  simp only [Tab.find_put]
  split
  · rfl
  · rfl

/-- A write leaves every other element as it was. -/
theorem Dev.rd_wr_other (d : Dev) (o e i p f j : Nat) (v : Int) (h : okey p f j ≠ okey o e i) :
    (d.wr o e i v).rd p f j = d.rd p f j := by
  rw [Dev.rd_wr, if_neg h]

@[simp] theorem Dev.hrd_hwr_same (d : Dev) (o e i : Nat) (v : Int) : (d.hwr o e i v).hrd o e i = v := by
  simp [Dev.hrd, Dev.hwr, Tab.find_put_same]

theorem Dev.hrd_hwr (d : Dev) (o e i p f j : Nat) (v : Int) :
    (d.hwr o e i v).hrd p f j = if okey p f j = okey o e i then v else d.hrd p f j := by
  unfold Dev.hrd Dev.hwr
  simp only [Tab.find_put]
  split
  · rfl
  · rfl

/-- A write on the host die leaves the field die's elements, and the other way round. -/
@[simp] theorem Dev.rd_hwr (d : Dev) (o e i p f j : Nat) (v : Int) : (d.hwr o e i v).rd p f j = d.rd p f j := rfl
@[simp] theorem Dev.hrd_wr (d : Dev) (o e i p f j : Nat) (v : Int) : (d.wr o e i v).hrd p f j = d.hrd p f j := rfl

/-- An update of any field but the objects leaves every element. -/
theorem Dev.rd_congr {d e : Dev} (h : e.ob = d.ob) (o el i : Nat) : e.rd o el i = d.rd o el i := by
  unfold Dev.rd
  rw [h]

theorem Dev.hrd_congr {d e : Dev} (h : e.ob = d.ob) (o el i : Nat) : e.hrd o el i = d.hrd o el i := by
  unfold Dev.hrd
  rw [h]

/-- A saturating count after its increment. -/
theorem Dev.rd_inc_same (d : Dev) (o e i : Nat) : (d.inc o e i).rd o e i = ((sat32 (d.rn o e i + 1) : Nat) : Int) := by
  unfold Dev.inc Dev.add
  rw [Dev.rd_wr_same]

/-! ### Commands -/

/-- A command that changes neither byte memory is answered with a next state. -/
theorem onDev_runs (t : Nat) (f : Dev → Dev) (s : State) :
    onDev t f s = .next { s with dev := f (s.dev.advance t) } := rfl

end Sys2Proof.Machine
end

