-- ==== Sys2Proof/Laws/Event.lean ====
section
/-! SUPPORT. What raising an event can do (R482 to R497, R503): it records the occurrence, wakes cores, enqueues a Lift
item and triggers capture units; every register of the rest of the chip stays as it was. -/

namespace Sys2Proof.Machine

/-- All that the delivery of events can change. -/
structure EventFrame (d e : Dev) : Prop where
  now : e.now = d.now
  out : e.out = d.out
  ob : e.ob = { d.ob with od := e.ob.od }
  od : ∀ k, eventObject (k / 65536 / 256) = false → Tab.find e.ob.od k = Tab.find d.ob.od k
  bar : e.bar = { d.bar with field := { d.bar.field with report := e.bar.field.report } }
  md : e.md = d.md
  ld : e.ld = d.ld
  tm : e.tm = d.tm
  ring : e.ring = { d.ring with queue := e.ring.queue }
  queue : ∃ l, e.ring.queue = d.ring.queue ++ l
  segs : e.segs = d.segs
  eng : e.eng = d.eng
  gov : e.gov = d.gov
  line : e.line = d.line
  prof : e.prof = d.prof
  safe : e.safe = d.safe
  fb : e.fb = d.fb
  st : e.st = d.st
  clk : e.clk = d.clk
  limits : e.limits = d.limits
  sig : e.sig = d.sig
  hcan : e.hcan = d.hcan
  fcan : e.fcan = d.fcan
  routes : e.lift.routes = d.lift.routes

theorem EventFrame.refl (d : Dev) : EventFrame d d :=
  ⟨rfl, rfl, rfl, fun _ _ => rfl, rfl, rfl, rfl, rfl, rfl, ⟨[], (List.append_nil _).symm⟩, rfl, rfl, rfl, rfl, rfl, rfl,
    rfl, rfl, rfl, rfl, rfl, rfl, rfl, rfl⟩

theorem EventFrame.trans {d e f : Dev} (h : EventFrame d e) (g : EventFrame e f) : EventFrame d f where
  now := g.now.trans h.now
  out := g.out.trans h.out
  ob := by rw [g.ob, h.ob]
  od := fun k hk => (g.od k hk).trans (h.od k hk)
  bar := by rw [g.bar, h.bar]
  md := g.md.trans h.md
  ld := g.ld.trans h.ld
  tm := g.tm.trans h.tm
  ring := by rw [g.ring, h.ring]
  queue := by
    obtain ⟨l, hl⟩ := h.queue
    obtain ⟨m, hm⟩ := g.queue
    exact ⟨l ++ m, by rw [hm, hl, List.append_assoc]⟩
  segs := g.segs.trans h.segs
  eng := g.eng.trans h.eng
  gov := g.gov.trans h.gov
  line := g.line.trans h.line
  prof := g.prof.trans h.prof
  safe := g.safe.trans h.safe
  fb := g.fb.trans h.fb
  st := g.st.trans h.st
  clk := g.clk.trans h.clk
  limits := g.limits.trans h.limits
  sig := g.sig.trans h.sig
  hcan := g.hcan.trans h.hcan
  fcan := g.fcan.trans h.fcan
  routes := g.routes.trans h.routes

/-- A fold whose every step is framed is framed. -/
theorem EventFrame.foldl {α : Type} (f : Dev → α → Dev) (h : ∀ d x, EventFrame d (f d x)) (xs : List α) (d : Dev) :
    EventFrame d (xs.foldl f d) := by
  induction xs generalizing d with
  | nil => exact EventFrame.refl d
  | cons x xs ih => exact (h d x).trans (ih (f d x))

theorem okey_object (o e i : Nat) (he : e < 256) (hi : i < 65536) : okey o e i / 65536 / 256 = o := by
  unfold okey
  omega

/-- A write to an object of the cores, the Lift or the capture units. -/
theorem EventFrame.wr (d : Dev) (o e i : Nat) (v : Int) (he : e < 256) (hi : i < 65536) (h : eventObject o = true) :
    EventFrame d (d.wr o e i v) := by
  refine ⟨rfl, rfl, rfl, ?_, rfl, rfl, rfl, rfl, rfl, ⟨[], (List.append_nil _).symm⟩, rfl, rfl, rfl, rfl, rfl, rfl,
    rfl, rfl, rfl, rfl, rfl, rfl, rfl, rfl⟩
  intro k hk
  refine Tab.find_put_other _ _ _ _ ?_
  intro e'
  subst e'
  rw [okey_object o e i he hi, h] at hk
  exact absurd hk (by decide)

/-- A change of the Lift that keeps its routes. -/
theorem EventFrame.lift (d : Dev) (x : LiftSt) (h : x.routes = d.lift.routes) : EventFrame d { d with lift := x } :=
  { EventFrame.refl d with routes := h }

/-- A change of the capture units. -/
theorem EventFrame.cap (d : Dev) (x : CapSt) : EventFrame d { d with cap := x } :=
  { EventFrame.refl d with }

theorem EventFrame.inc (d : Dev) (o e i : Nat) (he : e < 256) (hi : i < 65536) (h : eventObject o = true) :
    EventFrame d (d.inc o e i) := EventFrame.wr d o e i _ he hi h

theorem EventFrame.coreTouch (d : Dev) (c : Nat) (hc : c < 65536) : EventFrame d (d.coreTouch c) := by
  unfold Dev.coreTouch
  simp only
  split
  · exact EventFrame.lift _ _ rfl
  · exact (EventFrame.wr d 0x8030 2 c _ (by decide) hc (by decide)).trans (EventFrame.lift _ _ rfl)

theorem EventFrame.setCore (d : Dev) (c st : Nat) (hc : c < 65536) : EventFrame d (d.setCore c st) := by
  unfold Dev.setCore
  simp only
  refine (EventFrame.coreTouch d c hc).trans ?_
  refine EventFrame.trans ?_ (EventFrame.wr _ 0x8030 1 c _ (by decide) hc (by decide))
  exact EventFrame.lift _ _ rfl

theorem EventFrame.wakeCore (d : Dev) (c : Nat) (hc : c < 65536) : EventFrame d (d.wakeCore c) := by
  unfold Dev.wakeCore
  simp only
  split
  · exact EventFrame.setCore d c 2 hc
  · exact EventFrame.lift _ _ rfl

theorem EventFrame.poolNote (d : Dev) : EventFrame d d.poolNote := by
  unfold Dev.poolNote
  simp only
  refine EventFrame.trans ?_ (EventFrame.lift _ _ rfl)
  split
  · exact (EventFrame.wr d 0x8040 1 0 _ (by decide) (by decide) (by decide)).trans
      (EventFrame.wr _ 0x8040 2 0 _ (by decide) (by decide) (by decide))
  · exact EventFrame.wr d 0x8040 1 0 _ (by decide) (by decide) (by decide)

/-- A conditional step is framed when both its branches are. -/
theorem EventFrame.ite (p : Prop) [Decidable p] {d e f : Dev} (h : EventFrame d e) (g : EventFrame d f) :
    EventFrame d (if p then e else f) := by
  split
  · exact h
  · exact g

/-- A fold over numbers below a bound. -/
theorem EventFrame.foldl_mem {α : Type} (f : Dev → α → Dev) (xs : List α) (h : ∀ d, ∀ x ∈ xs, EventFrame d (f d x)) (d : Dev) :
    EventFrame d (xs.foldl f d) := by
  induction xs generalizing d with
  | nil => exact EventFrame.refl d
  | cons x xs ih =>
    exact (h d x (List.mem_cons_self ..)).trans (ih (fun d y hy => h d y (List.mem_cons_of_mem _ hy)) (f d x))

theorem EventFrame.enqueue (d : Dev) (it : Item) (q : Nat) (hq : q < 65536) : EventFrame d (d.enqueue it q).1 := by
  unfold Dev.enqueue
  simp only
  refine EventFrame.trans ?_ (EventFrame.ite _ (EventFrame.lift _ _ rfl) (EventFrame.refl _))
  refine EventFrame.trans ?_ (EventFrame.ite _ (EventFrame.foldl_mem _ _ (fun d c hc => ?_) _) (EventFrame.refl _))
  · refine EventFrame.trans ?_ (EventFrame.poolNote _)
    refine EventFrame.trans ?_ (EventFrame.ite _ (EventFrame.wr _ 0x8020 2 q _ (by decide) hq (by decide)) (EventFrame.refl _))
    refine EventFrame.trans ?_ (EventFrame.wr _ 0x8020 1 q _ (by decide) hq (by decide))
    refine EventFrame.trans ?_ (EventFrame.inc _ 0x8020 3 q (by decide) hq (by decide))
    exact EventFrame.lift _ _ rfl
  · exact EventFrame.ite _ (EventFrame.wakeCore d c (by have := List.mem_range.mp hc; omega)) (EventFrame.refl d)

theorem EventFrame.capTake (d : Dev) (u src frac stampNs cycle : Nat) (hu : u < 4) :
    EventFrame d (d.capTake u src frac stampNs cycle).1 := by
  have ho : eventObject (0x6000 + u) = true := by
    simp only [eventObject, Bool.or_eq_true, Bool.and_eq_true, decide_eq_true_eq, beq_iff_eq]
    omega
  unfold Dev.capTake
  simp only
  split
  · refine EventFrame.trans ?_ (EventFrame.wr _ (0x6000 + u) 4 0 _ (by decide) (by decide) ho)
    refine EventFrame.trans ?_ (EventFrame.wr _ (0x6000 + u) 5 0 _ (by decide) (by decide) ho)
    refine EventFrame.trans ?_ (EventFrame.wr _ (0x6000 + u) 1 0 _ (by decide) (by decide) ho)
    exact EventFrame.cap _ _
  · split
    · exact EventFrame.cap _ _
    · split
      · exact EventFrame.cap _ _
      · exact EventFrame.refl _

theorem EventFrame.capTrigger (d : Dev) (u src frac stampNs cycle : Nat) (hu : u < 4) :
    EventFrame d (d.capTrigger u src frac stampNs cycle).1 ∧ ∀ v ∈ (d.capTrigger u src frac stampNs cycle).2, v < 4 := by
  have hacc : ∀ (xs : List Nat) (acc : Dev × List Nat) (d : Dev) (f : Dev × List Nat → Nat → Dev × List Nat),
      (∀ acc v, v < 4 → (EventFrame acc.1 (f acc v).1 ∧ ((f acc v).2 = acc.2 ∨ (f acc v).2 = acc.2 ++ [v]))) →
      (∀ v ∈ xs, v < 4) → EventFrame d acc.1 → (∀ v ∈ acc.2, v < 4) →
      EventFrame d (xs.foldl f acc).1 ∧ ∀ v ∈ (xs.foldl f acc).2, v < 4 := by
    intro xs
    induction xs with
    | nil => intro acc d f _ _ h1 h2; exact ⟨h1, h2⟩
    | cons x xs ih =>
      intro acc d f hf hx h1 h2
      have hx4 := hx x (List.mem_cons_self ..)
      obtain ⟨g1, g2⟩ := hf acc x hx4
      refine ih (f acc x) d f hf (fun v hv => hx v (List.mem_cons_of_mem _ hv)) (h1.trans g1) ?_
      intro v hv
      rcases g2 with g | g
      · rw [g] at hv
        exact h2 v hv
      · rw [g] at hv
        rcases List.mem_append.mp hv with h | h
        · exact h2 v h
        · rw [List.mem_singleton.mp h]
          exact hx4
  unfold Dev.capTrigger
  simp only
  split
  · refine ⟨EventFrame.capTake d u src frac stampNs cycle hu, fun v hv => absurd hv (by simp)⟩
  · have hbase : EventFrame d (if (bit ((d.capU u).reg 0) 2 && Nat.land src 0x15 != 0) = true then
        { (d.capTake u src frac stampNs cycle).1 with cap.slalomNext := true } else (d.capTake u src frac stampNs cycle).1) :=
      EventFrame.ite _ ((EventFrame.capTake d u src frac stampNs cycle hu).trans (EventFrame.cap _ _))
        (EventFrame.capTake d u src frac stampNs cycle hu)
    have hone : ∀ v ∈ [u], v < 4 := fun v hv => by rw [List.mem_singleton.mp hv]; exact hu
    split
    · refine hacc (List.range 4) _ d _ ?_ (fun v hv => by have := List.mem_range.mp hv; omega) hbase hone
      intro acc v hv
      split
      · exact ⟨EventFrame.capTake _ v 2 0 stampNs cycle hv, Or.inr rfl⟩
      · exact ⟨EventFrame.refl _, Or.inl rfl⟩
    · exact ⟨hbase, hone⟩

theorem EventFrame.eventCores (d : Dev) (n : Nat) : EventFrame d (d.eventCores n) := by
  unfold Dev.eventCores Dev.each
  refine EventFrame.foldl_mem _ _ (fun d c hc => ?_) d
  refine EventFrame.ite _ (EventFrame.trans ?_ (EventFrame.wakeCore _ c (by have := List.mem_range.mp hc; omega))) (EventFrame.refl d)
  exact EventFrame.lift _ _ rfl

theorem bits_lt (w hi lo : Nat) (_h : lo ≤ hi) : bits w hi lo < 2 ^ (hi + 1 - lo) := by
  unfold bits
  exact Nat.mod_lt _ (Nat.two_pow_pos _)

theorem EventFrame.eventItem (d : Dev) (n : Nat) (ps : Bytes) : EventFrame d (d.eventItem n ps).1 := by
  have hq : bits (d.route n) 19 14 < 65536 := Nat.lt_of_lt_of_le (bits_lt _ _ _ (by decide)) (by decide)
  unfold Dev.eventItem
  simp only
  split
  · exact EventFrame.refl d
  · split
    · exact EventFrame.lift _ _ rfl
    · split
      · refine EventFrame.trans ?_ (EventFrame.wr _ 0x8040 4 0 _ (by decide) (by decide) (by decide))
        refine EventFrame.trans ?_ (EventFrame.inc _ 0x8020 7 _ (by decide) hq (by decide))
        exact EventFrame.lift _ _ rfl
      · exact EventFrame.enqueue d _ _ hq

/-- The entry that an occurrence leaves in the queue of the history. -/
def eventEntry (d : Dev) (n : Nat) (ps : Bytes) : EvEntry :=
  { num := n, data := fit ps 10, time := d.devTime, quality := d.rn 0x7000 5 0, at_ := d.now }

theorem EventFrame.recordEvent (d : Dev) (n : Nat) (ps : Bytes) :
    EventFrame d (d.recordEvent n ps) ∧ (d.recordEvent n ps).ring.queue = d.ring.queue ++ [eventEntry d n ps] := by
  have h0 : EventFrame d { d with
      lift.evData := Tab.put d.lift.evData n
        { params := fit ps 10, rep := 0, count := ((Tab.get d.lift.evData n {}).count + 1) % 65536 }
      ring.queue := d.ring.queue ++ [eventEntry d n ps] } :=
    { EventFrame.refl d with ring := rfl, queue := ⟨_, rfl⟩, routes := rfl }
  unfold Dev.recordEvent
  simp only
  split
  · split
    · exact ⟨h0.trans { EventFrame.refl _ with }, rfl⟩
    · exact ⟨h0.trans (EventFrame.inc _ 0x8040 6 0 (by decide) (by decide) (by decide)), rfl⟩
  · exact ⟨h0, rfl⟩

theorem EventFrame.raiseN (k : Nat) (d : Dev) (n : Nat) (ps : Bytes) : EventFrame d (Machine.raiseN k d n ps) := by
  induction k generalizing d n ps with
  | zero => exact EventFrame.refl d
  | succ k ih =>
    unfold Machine.raiseN
    simp only
    have h1 := (EventFrame.recordEvent d n ps).1
    have h2 : EventFrame (d.recordEvent n ps) ((List.range 4).foldl (fun d u =>
        if bit (d.route n) u then
          (d.capTrigger u 4 0 d.devNs d.tm.cycle).2.foldl
            (fun d v => Machine.raiseN k d 0xF9 (leBytes v 1 ++ leBytes (d.capU v).trigSrc 1))
            (d.capTrigger u 4 0 d.devNs d.tm.cycle).1
        else d) (d.recordEvent n ps)) := by
      refine EventFrame.foldl_mem _ _ (fun d u hu => ?_) _
      refine EventFrame.ite _ (EventFrame.trans (EventFrame.capTrigger d u 4 0 d.devNs d.tm.cycle (List.mem_range.mp hu)).1 ?_)
        (EventFrame.refl d)
      exact EventFrame.foldl _ (fun d v => ih d _ _) _ _
    have h3 := EventFrame.eventCores ((List.range 4).foldl (fun d u =>
        if bit (d.route n) u then
          (d.capTrigger u 4 0 d.devNs d.tm.cycle).2.foldl
            (fun d v => Machine.raiseN k d 0xF9 (leBytes v 1 ++ leBytes (d.capU v).trigSrc 1))
            (d.capTrigger u 4 0 d.devNs d.tm.cycle).1
        else d) (d.recordEvent n ps)) n
    have h4 := ((h1.trans h2).trans h3).trans (EventFrame.eventItem _ n ps)
    split
    · exact h4.trans (ih _ _ _)
    · exact h4

/-- All that raising an event on the field die can do. -/
theorem raise_frame (d : Dev) (n : Nat) (ps : Bytes) : EventFrame d (d.raise n ps) := by
  unfold Dev.raise
  split
  · exact EventFrame.refl d
  · exact EventFrame.raiseN 8 d n ps

/-- A field die out of reset that raises an event leaves its entry, behind the entries already queued. -/
theorem raise_queue (d : Dev) (n : Nat) (ps : Bytes) (h : d.md.fieldReset = false) :
    ∃ l, (d.raise n ps).ring.queue = d.ring.queue ++ eventEntry d n ps :: l := by
  unfold Dev.raise
  rw [h]
  simp only [Bool.false_eq_true, if_false]
  unfold Machine.raiseN
  simp only
  have h1 := (EventFrame.recordEvent d n ps).2
  have h2 : EventFrame (d.recordEvent n ps) ((List.range 4).foldl (fun d u =>
      if bit (d.route n) u then
        (d.capTrigger u 4 0 d.devNs d.tm.cycle).2.foldl
          (fun d v => Machine.raiseN 7 d 0xF9 (leBytes v 1 ++ leBytes (d.capU v).trigSrc 1))
          (d.capTrigger u 4 0 d.devNs d.tm.cycle).1
      else d) (d.recordEvent n ps)) := by
    refine EventFrame.foldl_mem _ _ (fun d u hu => ?_) _
    refine EventFrame.ite _ (EventFrame.trans (EventFrame.capTrigger d u 4 0 d.devNs d.tm.cycle (List.mem_range.mp hu)).1 ?_)
      (EventFrame.refl d)
    exact EventFrame.foldl _ (fun d v => EventFrame.raiseN 7 d _ _) _ _
  have h3 := (h2.trans (EventFrame.eventCores _ n)).trans (EventFrame.eventItem _ n ps)
  have fin : ∀ e, EventFrame (d.recordEvent n ps) e → ∃ l, e.ring.queue = d.ring.queue ++ eventEntry d n ps :: l := by
    intro e he
    obtain ⟨l, hl⟩ := he.queue
    exact ⟨l, by rw [hl, h1, List.append_assoc]; rfl⟩
  split
  · exact fin _ (h3.trans (EventFrame.raiseN 7 _ _ _))
  · exact fin _ h3

/-! ### The registers that an event leaves -/

@[simp] theorem Dev.raise_now (d : Dev) (n : Nat) (ps : Bytes) : (d.raise n ps).now = d.now := (raise_frame d n ps).now
@[simp] theorem Dev.raise_out (d : Dev) (n : Nat) (ps : Bytes) : (d.raise n ps).out = d.out := (raise_frame d n ps).out
@[simp] theorem Dev.raise_md (d : Dev) (n : Nat) (ps : Bytes) : (d.raise n ps).md = d.md := (raise_frame d n ps).md
@[simp] theorem Dev.raise_ld (d : Dev) (n : Nat) (ps : Bytes) : (d.raise n ps).ld = d.ld := (raise_frame d n ps).ld
@[simp] theorem Dev.raise_tm (d : Dev) (n : Nat) (ps : Bytes) : (d.raise n ps).tm = d.tm := (raise_frame d n ps).tm
@[simp] theorem Dev.raise_segs (d : Dev) (n : Nat) (ps : Bytes) : (d.raise n ps).segs = d.segs := (raise_frame d n ps).segs
@[simp] theorem Dev.raise_eng (d : Dev) (n : Nat) (ps : Bytes) : (d.raise n ps).eng = d.eng := (raise_frame d n ps).eng
@[simp] theorem Dev.raise_gov (d : Dev) (n : Nat) (ps : Bytes) : (d.raise n ps).gov = d.gov := (raise_frame d n ps).gov
@[simp] theorem Dev.raise_line (d : Dev) (n : Nat) (ps : Bytes) : (d.raise n ps).line = d.line := (raise_frame d n ps).line
@[simp] theorem Dev.raise_prof (d : Dev) (n : Nat) (ps : Bytes) : (d.raise n ps).prof = d.prof := (raise_frame d n ps).prof
@[simp] theorem Dev.raise_safe (d : Dev) (n : Nat) (ps : Bytes) : (d.raise n ps).safe = d.safe := (raise_frame d n ps).safe
@[simp] theorem Dev.raise_fb (d : Dev) (n : Nat) (ps : Bytes) : (d.raise n ps).fb = d.fb := (raise_frame d n ps).fb
@[simp] theorem Dev.raise_st (d : Dev) (n : Nat) (ps : Bytes) : (d.raise n ps).st = d.st := (raise_frame d n ps).st
@[simp] theorem Dev.raise_clk (d : Dev) (n : Nat) (ps : Bytes) : (d.raise n ps).clk = d.clk := (raise_frame d n ps).clk
@[simp] theorem Dev.raise_limits (d : Dev) (n : Nat) (ps : Bytes) : (d.raise n ps).limits = d.limits := (raise_frame d n ps).limits
@[simp] theorem Dev.raise_sig (d : Dev) (n : Nat) (ps : Bytes) : (d.raise n ps).sig = d.sig := (raise_frame d n ps).sig
@[simp] theorem Dev.raise_hcan (d : Dev) (n : Nat) (ps : Bytes) : (d.raise n ps).hcan = d.hcan := (raise_frame d n ps).hcan
@[simp] theorem Dev.raise_fcan (d : Dev) (n : Nat) (ps : Bytes) : (d.raise n ps).fcan = d.fcan := (raise_frame d n ps).fcan

/-- An element outside the objects that deliver events reads as before. -/
theorem Dev.rd_raise (d : Dev) (n : Nat) (ps : Bytes) (o e i : Nat) (he : e < 256) (hi : i < 65536)
    (ho : eventObject o = false) : (d.raise n ps).rd o e i = d.rd o e i := by
  unfold Dev.rd
  rw [(raise_frame d n ps).od _ (by rw [okey_object o e i he hi]; exact ho)]

@[simp] theorem Dev.hrd_raise (d : Dev) (n : Nat) (ps : Bytes) (o e i : Nat) : (d.raise n ps).hrd o e i = d.hrd o e i := by
  unfold Dev.hrd
  rw [(raise_frame d n ps).ob]

@[simp] theorem Dev.raise_barHost (d : Dev) (n : Nat) (ps : Bytes) : (d.raise n ps).bar.host = d.bar.host := by
  rw [(raise_frame d n ps).bar]

@[simp] theorem Dev.raise_barLink (d : Dev) (n : Nat) (ps : Bytes) : (d.raise n ps).bar.link = d.bar.link := by
  rw [(raise_frame d n ps).bar]

@[simp] theorem Dev.raise_barTraining (d : Dev) (n : Nat) (ps : Bytes) : (d.raise n ps).bar.training = d.bar.training := by
  rw [(raise_frame d n ps).bar]

@[simp] theorem Dev.raise_barFails (d : Dev) (n : Nat) (ps : Bytes) : (d.raise n ps).bar.fails = d.bar.fails := by
  rw [(raise_frame d n ps).bar]

@[simp] theorem Dev.raise_due (d : Dev) (n : Nat) (ps : Bytes) : (d.raise n ps).ob.due = d.ob.due := by
  rw [(raise_frame d n ps).ob]

/-- The event that a command raised last is among those it raised. -/
theorem raised_raise (d : Dev) (n : Nat) (ps : Bytes) (h : d.md.fieldReset = false) : Raised d (d.raise n ps) n ps := by
  obtain ⟨l, hl⟩ := raise_queue d n ps h
  exact ⟨eventEntry d n ps, by rw [hl]; simp, rfl, rfl⟩

/-- An event stays raised under what only appends to the queue of the history. -/
theorem Raised.mono {d e f : Dev} {n : Nat} {ps : Bytes} (h : Raised d e n ps) (he : ∃ l, e.ring.queue = d.ring.queue ++ l)
    (hf : ∃ l, f.ring.queue = e.ring.queue ++ l) : Raised d f n ps := by
  obtain ⟨x, hx, h1, h2⟩ := h
  obtain ⟨l, hl⟩ := he
  obtain ⟨m, hm⟩ := hf
  refine ⟨x, ?_, h1, h2⟩
  rw [hm, hl]
  rw [hl] at hx
  simp only [List.append_assoc, List.drop_left] at hx ⊢
  exact List.mem_append_left _ hx

end Sys2Proof.Machine
end

