-- ==== Sys2Proof/Laws/Memory.lean ====
section
/-! SUPPORT. What the shared ways to run a command over the device and its memories can do: they answer a next state, leave
the queue, and keep the canonical form of both memories. -/

namespace Sys2Proof.Machine

/-- The bytes stored read back. -/
theorem memSlice_memStore (m : Mem) (a : Nat) (bs : Bytes) (h : m.wf) : memSlice (memStore m a bs) a bs.length = bs := by
  induction bs generalizing m a with
  | nil => rfl
  | cons b bs ih =>
    have w := memWrite_wf m a b h
    show memRead (memStore (memWrite m a b) (a + 1) bs) a :: memSlice (memStore (memWrite m a b) (a + 1) bs) (a + 1) bs.length = _
    rw [ih _ _ w, memRead_memStore_outside _ _ _ _ w (Or.inl (Nat.lt_succ_self a)), memRead_memWrite _ _ _ _ h, if_pos rfl]

/-- A list of stores keeps the canonical form. -/
theorem foldl_wf {α : Type} (g : Mem → α → Mem) (h : ∀ m x, m.wf = true → (g m x).wf = true) (ws : List α) {m : Mem}
    (w : m.wf = true) : (ws.foldl g m).wf = true := by
  induction ws generalizing m with
  | nil => exact w
  | cons x ws ih => exact ih (h m x w)

/-- Whatever a command over the memories does, it answers a next state and keeps the canonical form of both. -/
theorem onMem_keeps (t : Nat) (f : Mem → Mem → Dev → Dev × List (Bool × Nat × Bytes)) (s : State) :
    ∃ e, onMem t f s = .next e ∧ e.pending = s.pending ∧ (s.MemoryCanonical → e.MemoryCanonical) := by
  refine ⟨_, rfl, rfl, fun h => ⟨foldl_wf _ ?_ _ h.1, foldl_wf _ ?_ _ h.2⟩⟩
  all_goals
    intro m x w
    cases x.1 <;> simp only [if_true, if_false, Bool.false_eq_true]
    all_goals first | exact w | exact memStore_wf _ _ _ w

/-- A command over the memories that stores nothing leaves both as they were. -/
theorem onMem_nil (t : Nat) (f : Mem → Mem → Dev → Dev × List (Bool × Nat × Bytes)) (s : State)
    (h : (f s.sram s.nv (s.dev.advance t)).2 = []) :
    onMem t f s = .next { s with dev := (f s.sram s.nv (s.dev.advance t)).1 } := by
  simp [onMem, h]

/-- A command over the device alone answers a next state whose memories are those before it. -/
theorem onDev_next (t : Nat) (f : Dev → Dev) (s : State) : onDev t f s = .next { s with dev := f (s.dev.advance t) } := rfl

end Sys2Proof.Machine
end

