-- ==== Sys2Proof/Laws/Message.lean ====
section
/-! SUPPORT. The fields of a request, and what the field die does with a write that it admits (R86 to R92). -/

namespace Sys2Proof.Machine

/-- The number that `k` bytes of `n` spell. -/
theorem ofLe_leBytes (n k : Nat) : ofLe (leBytes n k) = n % 256 ^ k := by
  induction k generalizing n with
  | zero => simp [leBytes, ofLe, Nat.mod_one]
  | succ k ih =>
    simp only [leBytes, ofLe, ih, BitVec.toNat_ofNat]
    have h : (2 : Nat) ^ 8 = 256 := rfl
    rw [h, Nat.pow_succ, Nat.mul_comm (256 ^ k) 256, Nat.mod_mul]

@[simp] theorem leBytes_length (n k : Nat) : (leBytes n k).length = k := by
  induction k generalizing n with
  | zero => rfl
  | succ k ih => simp [leBytes, ih]

/-- The bytes of a write request, one by one. -/
theorem writeMsg_bytes (req : Req) (o e i : Nat) (v : Bytes) :
    writeMsg req o e i v =
      [2, if tyBytes (tyOf o e) then 1 else 0, BitVec.ofNat 8 req.tag, BitVec.ofNat 8 (req.tag / 256), BitVec.ofNat 8 o,
        BitVec.ofNat 8 (o / 256), BitVec.ofNat 8 e, BitVec.ofNat 8 (tyCode (tyOf o e)), BitVec.ofNat 8 i,
        BitVec.ofNat 8 (i / 256), 0, 0, 0, 0, BitVec.ofNat 8 v.length, BitVec.ofNat 8 (v.length / 256)] ++ v := by
  simp [writeMsg, leBytes, zeros, List.replicate]

theorem two_bytes (n : Nat) (h : n < 65536) : ofLe [BitVec.ofNat 8 n, BitVec.ofNat 8 (n / 256)] = n := by
  simp only [ofLe, BitVec.toNat_ofNat]
  omega

section
variable (req : Req) (o e i : Nat) (v : Bytes)

@[simp] theorem writeMsg_op : mOp (writeMsg req o e i v) = 2 := by
  rw [writeMsg_bytes]
  rfl

theorem writeMsg_flags : mFlags (writeMsg req o e i v) < 2 := by
  rw [writeMsg_bytes]
  simp only [mFlags, byteAt]
  simp
  split <;> simp

theorem writeMsg_tag (h : req.tag < 65536) : mTag (writeMsg req o e i v) = req.tag := by
  rw [writeMsg_bytes]
  simpa [mTag, leAt, slice] using two_bytes req.tag h

theorem writeMsg_obj (h : o < 65536) : mObj (writeMsg req o e i v) = o := by
  rw [writeMsg_bytes]
  simpa [mObj, leAt, slice] using two_bytes o h

theorem writeMsg_el (h : e < 256) : mEl (writeMsg req o e i v) = e := by
  rw [writeMsg_bytes]
  simp only [mEl, byteAt]
  simp
  omega

@[simp] theorem writeMsg_type : mType (writeMsg req o e i v) = tyCode (tyOf o e) := by
  rw [writeMsg_bytes]
  simp only [mType, byteAt]
  simp
  cases tyOf o e <;> decide

theorem writeMsg_inst (h : i < 65536) : mInst (writeMsg req o e i v) = i := by
  rw [writeMsg_bytes]
  simpa [mInst, leAt, slice] using two_bytes i h

@[simp] theorem writeMsg_gate : mGate (writeMsg req o e i v) = 0 := by
  rw [writeMsg_bytes]
  simp [mGate, leAt, slice, ofLe]

@[simp] theorem writeMsg_off : mOff (writeMsg req o e i v) = 0 := by
  rw [writeMsg_bytes]
  simp [mOff, leAt, slice, ofLe]

theorem writeMsg_len (h : v.length < 65536) : mLen (writeMsg req o e i v) = v.length := by
  rw [writeMsg_bytes]
  simpa [mLen, leAt, slice] using two_bytes v.length h

@[simp] theorem writeMsg_val : mVal (writeMsg req o e i v) = v := by
  rw [writeMsg_bytes]
  simp [mVal]

theorem writeMsg_formBad (h : v.length < 65536) : formBad (writeMsg req o e i v) = false := by
  have h1 : 16 ≤ (writeMsg req o e i v).length := by
    rw [writeMsg_bytes]
    simp
  have h2 : ¬ 2 ≤ mFlags (writeMsg req o e i v) := by
    have := writeMsg_flags req o e i v
    omega
  have h3 : ¬ (writeMsg req o e i v).length < 16 := by omega
  simp [formBad, h2, h3, bit, writeMsg_len req o e i v h]
end

/-- A message taken from a mailbox. -/
theorem takeMail_field (d : Dev) (m : Nat) :
    ∃ recv ctl, d.takeMail .field m = { d with bar.field := { d.bar.field with recv := recv, ctl := ctl } } := by
  unfold Dev.takeMail
  simp only
  split
  · exact ⟨_, _, rfl⟩
  · exact ⟨d.bar.field.recv, d.bar.field.ctl, rfl⟩

/-- What a request that is taken leaves of the checks of a write. -/
theorem Taken.reads {d e : Dev} (h : Taken d e) :
    e.ob.od = d.ob.od ∧ e.md = d.md ∧ e.ob.edits = d.ob.edits ∧ e.ob.staging = d.ob.staging ∧ e.ob.due = d.ob.due := by
  obtain ⟨_, _, _, _, rfl⟩ := h
  exact ⟨rfl, rfl, rfl, rfl, rfl⟩

theorem Taken.rd {d e : Dev} (h : Taken d e) (o el i : Nat) : e.rd o el i = d.rd o el i := by
  obtain ⟨_, _, _, _, rfl⟩ := h
  rfl

theorem taken_mail (d : Dev) (m : Nat) (req : Req) : Taken d ((d.takeMail .field m).fieldTake req) := by
  obtain ⟨r, c, hq⟩ := takeMail_field d m
  rw [hq]
  exact ⟨r, c, d.ob.order ++ [(req, none)], d.ob.fcanOpen, rfl⟩

theorem taken_fcan (d : Dev) (req : Req) :
    Taken d ({ d with ob.fcanOpen := d.ob.fcanOpen ++ [req] }.fieldTake req) :=
  ⟨d.bar.field.recv, d.bar.field.ctl, d.ob.order ++ [(req, none)], d.ob.fcanOpen ++ [req], rfl⟩

/-- A write that the field die admits is executed on the state that took it. -/
theorem fieldRequest_admitted (sram nv : Mem) (d : Dev) (req : Req) (o e i : Nat) (v : Bytes)
    (ho : o < 65536) (he : e < 256) (hf : 0x1000 ≤ o ∨ (o = 0x30 ∧ (e = 3 ∨ e = 6 ∨ e = 7)) ∨ (o = 0x20 ∧ e = 8))
    (h : d.Admits req o e i v = true) :
    ∃ d1, Taken d d1 ∧
      fieldRequest req.src (writeMsg req o e i v) sram nv d =
        d1.fieldWrite nv req ((writeMsg req o e i v).take 16) o e i (valueOf (tyOf o e) v) := by
  simp only [Dev.Admits, Bool.and_eq_true, Bool.or_eq_true, Bool.not_eq_true', decide_eq_true_eq, beq_iff_eq] at h
  obtain ⟨⟨⟨⟨⟨⟨⟨⟨⟨⟨⟨⟨⟨hr, hfw⟩, hm⟩, htag⟩, hi⟩, hk⟩, hin⟩, hc⟩, hacc⟩, hb⟩, hl⟩, hh⟩, hv⟩, hs⟩ := h
  have hlen : v.length < 65536 := by
    rw [hl]
    cases tyOf o e <;> decide
  have steps : ∀ (d1 : Dev), Taken d d1 → (∀ base, req.src = .fcan base → 0x1000 ≤ o) →
      d1.fieldSteps sram nv req (writeMsg req o e i v) =
        d1.fieldWrite nv req ((writeMsg req o e i v).take 16) o e i (valueOf (tyOf o e) v) := by
    intro d1 ht hfc
    have hmode : d1.mode = d.mode := by simp only [Dev.mode, Dev.rn, ht.rd]
    have hheld : d1.heldByOther req.src o e i = d.heldByOther req.src o e i := by
      obtain ⟨_, _, _, _, rfl⟩ := ht
      rfl
    have hst : d1.staged o e i = d.staged o e i := by
      obtain ⟨_, _, _, _, rfl⟩ := ht
      rfl
    have hform : d1.writeFormBad req.src o e i (writeMsg req o e i v) = false := by
      simp [Dev.writeFormBad, writeMsg_len req o e i v hlen, hb, hl]
    have hwr : d1.writeSteps nv req o e i (writeMsg req o e i v) =
        d1.fieldWrite nv req ((writeMsg req o e i v).take 16) o e i (valueOf (tyOf o e) v) := by
      unfold Dev.writeSteps
      simp only [hform, hheld, hh, hb, writeMsg_val, hv, hmode]
      rcases hacc with ha | ⟨ha, hm2⟩
      · simp [ha]
      · simp [ha, hm2]
    have h1 : ¬ (d.mode < 2 ∧ 0x1000 ≤ o) := by omega
    have h3 : ¬ objCount o < e := by omega
    unfold Dev.fieldSteps
    simp only [writeMsg_formBad req o e i v hlen, writeMsg_op, writeMsg_obj req o e i v ho, writeMsg_el req o e i v he,
      writeMsg_gate, writeMsg_inst req o e i v hi, hin, hk, hmode, hwr]
    by_cases hlow : o < 0x1000
    · have hel := hf.resolve_left (by omega)
      have hnf : ∀ base, req.src ≠ .fcan base := fun base hb' => by
        have := hfc base hb'
        omega
      have hbig : ¬ 0x1000 ≤ o := by omega
      cases hsrc : req.src with
      | port a b c => rcases hel with ⟨rfl, rfl | rfl | rfl⟩ | ⟨rfl, rfl⟩ <;> simp [h3]
      | hcan a => rcases hel with ⟨rfl, rfl | rfl | rfl⟩ | ⟨rfl, rfl⟩ <;> simp [h3]
      | fcan a => exact absurd hsrc (hnf a)
    · have hm2 : ¬ d.mode < 2 := by omega
      simp [hlow, hm2, h3]
  unfold fieldRequest
  simp only [hr, hfw, writeMsg_tag req o e i v htag, Bool.not_true, Bool.or_self, Bool.false_eq_true, if_false]
  cases hsrc : req.src with
  | port a b c =>
    have hreq : ({ src := .port a b c, tag := req.tag } : Req) = req := by rw [← hsrc]
    have ht := taken_mail d (if (mOp (writeMsg req o e i v) == 2 && mObj (writeMsg req o e i v) == 0x30) = true then
      (if (mEl (writeMsg req o e i v) == 6) = true then 7 else 6) else 4) req
    refine ⟨_, ht, ?_⟩
    rw [← steps _ ht (fun _ hb' => by rw [hsrc] at hb'; cases hb')]
    simp only [hreq]
  | hcan a =>
    have hreq : ({ src := .hcan a, tag := req.tag } : Req) = req := by rw [← hsrc]
    have ht := taken_mail d (if (mOp (writeMsg req o e i v) == 2 && mObj (writeMsg req o e i v) == 0x30) = true then
      (if (mEl (writeMsg req o e i v) == 6) = true then 7 else 6) else 5) req
    refine ⟨_, ht, ?_⟩
    rw [← steps _ ht (fun _ hb' => by rw [hsrc] at hb'; cases hb')]
    simp only [hreq]
  | fcan base =>
    have hreq : ({ src := .fcan base, tag := req.tag } : Req) = req := by rw [← hsrc]
    simp only [hsrc, Bool.and_eq_true, decide_eq_true_eq, bne_iff_ne, ne_eq, Bool.not_eq_true', beq_iff_eq] at hs
    obtain ⟨⟨⟨hs1, hs2⟩, hs3⟩, hs4⟩ := hs
    have hs5 : (d.rn 0x1000 3 0 == 0xFFFF || base != d.rn 0x1000 3 0) = false := by
      rw [hs3]
      simp [hs2]
    have ht := taken_fcan d req
    refine ⟨_, ht, ?_⟩
    rw [← steps _ ht (fun _ _ => hs1)]
    simp only [hs5, hs4, hreq, Bool.false_eq_true, if_false]

end Sys2Proof.Machine
end

