-- ==== Sys2Proof/Laws/Line.lean ====
section
/-! SUPPORT. Check values and lines of the Saffron array: what a sealed line holds (R395), and a set image read back
(R419). -/

namespace Sys2Proof.Machine

theorem crc16Bit_lt (k c : Nat) (h : c < 65536) : crc16Bit k c < 65536 := by
  induction k generalizing c with
  | zero => exact h
  | succ k ih =>
    refine ih _ ?_
    have h1 : c * 2 % 65536 < 2 ^ 16 := Nat.mod_lt _ (by decide)
    split
    · exact Nat.xor_lt_two_pow h1 (by decide)
    · exact h1

/-- A CRC-16 fits 16 bits. -/
theorem crc16_lt (bs : Bytes) : crc16 bs < 65536 := by
  have key : ∀ (l : Bytes) c, c < 65536 → l.foldl crc16Byte c < 65536 := by
    intro l
    induction l with
    | nil => exact fun _ h => h
    | cons b l ih =>
      intro c h
      refine ih _ (crc16Bit_lt _ _ ?_)
      have : b.toNat < 256 := b.isLt
      exact Nat.xor_lt_two_pow (n := 16) h (by omega)
  exact key bs _ (by decide)

theorem crc32Bit_lt (k c : Nat) (h : c < 2 ^ 32) : crc32Bit k c < 2 ^ 32 := by
  induction k generalizing c with
  | zero => exact h
  | succ k ih =>
    refine ih _ ?_
    have h1 : c / 2 < 2 ^ 32 := by omega
    split
    · exact Nat.xor_lt_two_pow h1 (by decide)
    · exact h1

/-- A CRC-32 fits 32 bits. -/
theorem crc32_lt (bs : Bytes) : crc32 bs < 2 ^ 32 := by
  have key : ∀ (l : Bytes) c, c < 2 ^ 32 → l.foldl crc32Byte c < 2 ^ 32 := by
    intro l
    induction l with
    | nil => exact fun _ h => h
    | cons b l ih =>
      intro c h
      refine ih _ (crc32Bit_lt _ _ ?_)
      have : b.toNat < 256 := b.isLt
      exact Nat.xor_lt_two_pow (n := 32) h (by omega)
  exact Nat.xor_lt_two_pow (key bs _ (by decide)) (by decide)

/-- A field read out of three parts. -/
theorem leAt_append (xs ys zs : Bytes) (i k : Nat) (hx : xs.length = i) (hy : ys.length = k) :
    leAt (xs ++ ys ++ zs) i k = ofLe ys := by
  subst hx hy
  simp [leAt, slice]

theorem fit_of_length (bs : Bytes) (k : Nat) (h : bs.length = k) : fit bs k = bs := by
  subst h
  simp [fit]

@[simp] theorem fit_length (bs : Bytes) (k : Nat) : (fit bs k).length = k := by
  simp [fit]; omega

/-- A sealed line: 56 bytes, their CRC-32, the marker. -/
@[simp] theorem sealLine_length (bs : Bytes) : (sealLine bs).length = 64 := by
  simp [sealLine]

theorem leAt_sealLine (bs : Bytes) : leAt (sealLine bs) 56 4 = crc32 (fit bs 56) := by
  have h := leAt_append (fit bs 56) (leBytes (crc32 (fit bs 56)) 4) (leBytes stMarker 4) 56 4 (fit_length _ _) (by simp)
  rw [sealLine, h, ofLe_leBytes]
  exact Nat.mod_eq_of_lt (crc32_lt _)

/-- A sealed line is valid. -/
theorem lineValid_sealLine (bs : Bytes) : lineValid (sealLine bs) = true := by
  have h1 : leAt (sealLine bs) 60 4 = stMarker := by
    have h := leAt_append (fit bs 56 ++ leBytes (crc32 (fit bs 56)) 4) (leBytes stMarker 4) [] 60 4 (by simp) (by simp)
    simp only [List.append_nil] at h
    rw [sealLine, h, ofLe_leBytes]
    decide
  have h3 : (sealLine bs).take 56 = fit bs 56 := by
    have := fit_length bs 56
    simp [sealLine]
  simp [lineValid, h1, h3, leAt_sealLine]

end Sys2Proof.Machine
end

