-- ==== Sys2Proof/Tests/Slice0.lean ====
section
/-! SUPPORT. Tests of the model: ill-formed commands, values that the spec works out, and for every statement with
hypotheses a state and operands that meet them. -/

set_option linter.unusedVariables false

open Sys2Proof Sys2Proof.Machine

/-! ### Ill-formed commands: one for each check -/

theorem test_wf_cell : Instr.wf (.receiveCell 0 .host true [1]) = false := by decide
theorem test_wf_seq : Instr.wf (.cellAckTimeout 0 .host 65536) = false := by decide
theorem test_wf_source : Instr.wf (.downloadAbort 0 (.port 2 0 0) []) = false := by decide
theorem test_wf_sourceHcan : Instr.wf (.downloadAbort 0 (.hcan 2048) []) = false := by decide
theorem test_wf_sourceFcan : Instr.wf (.objectResponse 0 (.fcan 2048) (zeros 16)) = false := by decide
theorem test_wf_tag : Instr.wf (.setStore 0 ⟨.hcan 0, 65536⟩) = false := by decide
theorem test_wf_message : Instr.wf (.objectRead 0 .host (.hcan 0) (zeros 15)) = false := by decide
theorem test_wf_mailbox : Instr.wf (.forwardRequest 0 16) = false := by decide
theorem test_wf_blockMailbox : Instr.wf (.firmwareBlock 0 16 [] []) = false := by decide
theorem test_wf_blockResultMailbox : Instr.wf (.blockResult 0 16 0) = false := by decide
theorem test_wf_segment : Instr.wf (.segmentStart 0 4) = false := by decide
theorem test_wf_position : Instr.wf (.gateResponseTimeout 0 0 0) = false := by decide
theorem test_wf_positionHigh : Instr.wf (.windowWaitExpiry 0 0 4096) = false := by decide
theorem test_wf_ptpPort : Instr.wf (.ptpSync 0 2 ⟨0, 0, 0, false, 0, 0, 0, false⟩) = false := by decide
theorem test_wf_axis : Instr.wf (.hardStopTimer 0 512) = false := by decide
theorem test_wf_unit : Instr.wf (.deadBusTimer 0 8) = false := by decide
theorem test_wf_sdInput : Instr.wf (.sigmaDeltaStuck 0 16) = false := by decide
theorem test_wf_group : Instr.wf (.glideResume 0 ⟨.hcan 0, 0⟩ 8) = false := by decide
theorem test_wf_channel : Instr.wf (.feedbackTransition 0 8 0) = false := by decide
theorem test_wf_line : Instr.wf (.minedgeExpiry 0 0 6) = false := by decide
theorem test_wf_position_key : Instr.wf (.proofRecordSecondEnd 0 (.channel 8)) = false := by decide
theorem test_wf_arrayLine : Instr.wf (.scrubLine 0 524288 true .clean .clean) = false := by decide
theorem test_wf_testSource : Instr.wf (.testPulse 0 2 0) = false := by decide
theorem test_wf_safeInput : Instr.wf (.testPulseRepeat 0 0 16 true) = false := by decide
theorem test_wf_safeOutput : Instr.wf (.outputFaultClear 0 8) = false := by decide
theorem test_wf_canSlot : Instr.wf (.canSlotDue 0 .host 8) = false := by decide
theorem test_wf_core : Instr.wf (.liftGet 0 8) = false := by decide
theorem test_wf_queue : Instr.wf (.liftQueueConfig 0 64 0) = false := by decide
theorem test_wf_coreMailbox : Instr.wf (.mailboxTake 0 0 32 0) = false := by decide
theorem test_wf_barrierMailbox : Instr.wf (.barrierMailboxTake 0 16 0) = false := by decide
theorem test_wf_capture : Instr.wf (.captureArm 0 4) = false := by decide
theorem test_wf_pll : Instr.wf (.pllRelock 0 0) = false := by decide
theorem test_wf_pllHigh : Instr.wf (.pllRelock 0 5) = false := by decide
theorem test_wf_lawAxis : Instr.wf (.outputRecopy 0 .a (.axis 512) true) = false := by decide
theorem test_wf_block : Instr.wf (.receiveFrameBlock 0 0 .a .ds [] true) = false := by decide
theorem test_wf_good : Instr.wf (.objectRead 0 .host (.port 0 1 5000) (zeros 16)) = true := by decide

/-! ### Values that the spec works out -/

/-- The check value of R17. -/
theorem test_crc32 : crc32 (ascii "123456789") = 0xCBF43926 := by decide +kernel
/-- The check value of R148. -/
theorem test_crc16 : crc16 (ascii "123456789") = 0x29B1 := by decide +kernel

/-- A state whose registers are `d`; no byte of memory is listed and no command waits. -/
def at_ (d : Dev) : State := { State.reset with dev := d }
/-- Field firmware runs in mode `m`, and the host part runs. -/
def inMode (m : Nat) : Dev := { ({} : Dev).wr 0x30 1 0 m with md := { fieldFw := true, hostFw := true, hostAccepted := true }, bar := { link := 1, training := false } }
/-- `d` with the numbers of `l` written: object, element, instance, value. -/
def Dev.put (d : Dev) (l : List (Nat × Nat × Nat × Int)) : Dev := l.foldl (fun d w => d.wr w.1 w.2.1 w.2.2.1 w.2.2.2) d


/-- No word spells a command. -/
theorem test_no_words : decodeTableWord 32 5 = none := by decide

/-- The read of 0030h:7 in 04_object_dictionary.md: the 16 bytes of the request and the 20 bytes of the answer. -/
theorem test_read_grace : ∃ e,
    exec (.objectRead 0 .host (.port 0 1 5000) [0x01, 0x00, 0x2A, 0x00, 0x30, 0x00, 0x07, 0x06, 0xFF, 0xFF, 0, 0, 0, 0, 0, 0])
      (at_ { md := { fieldFw := true, hostFw := true, hostAccepted := true } }) = .next e ∧
    e.dev.out = [.response .host (.port 0 1 5000)
      [0x81, 0x00, 0x2A, 0x00, 0x30, 0x00, 0x07, 0x00, 0xFF, 0xFF, 0, 0, 0, 0, 0x04, 0x00, 0xE8, 0x03, 0x00, 0x00]] :=
  ⟨_, rfl, by decide +kernel⟩

/-- The noise burst on channel 2 in 14_feedback_channels.md: A and B in one sample hold Position; Uncertainty becomes 2. -/
theorem test_quadrature_fault : ∃ e,
    exec (.feedbackTransition 5000000 2 24) (at_ { Dev.put (inMode 3) [(0x2700, 2, 2, 1)] with fb := [(2, { pos := 90000 })] }) = .next e ∧
    (e.dev.fbc 2).pos = 90000 ∧ (e.dev.fbc 2).unc = 2 :=
  ⟨_, rfl, by decide +kernel⟩

/-- The same example: at Position 90,110 with IndexValue 0 and 8,192 counts per turn the index repairs Position to 90,112. -/
theorem test_index_repairs : ∃ e,
    exec (.feedbackTransition 5000000 2 32)
      (at_ { Dev.put (inMode 3) [(0x2700, 2, 2, 1), (0x2700, 6, 2, 1), (0x2700, 7, 2, 0), (0x2700, 8, 2, 8192), (0x2700, 9, 2, 2)] with
        fb := [(2, { pos := 90110, unc := 2, dir := 1 })] }) = .next e ∧
    (e.dev.fbc 2).pos = 90112 ∧ (e.dev.fbc 2).unc = 0 ∧ (e.dev.fbc 2).idxDev = -2 :=
  ⟨_, rfl, by decide +kernel⟩

/-- The first attempt of the clash in 17_can_ports.md: a bit error in an own frame adds 8 to TEC. -/
theorem test_clash_counts : ∃ e,
    exec (.canTxError 5 .field .clash) (at_ { inMode 3 with fcan := { ctrl := 0, onBus := some none, fifo := [{ tag := 1, image := [] }] } }) = .next e ∧
    e.dev.fcan.tec = 8 :=
  ⟨_, rfl, by decide +kernel⟩

/-- The StepAddress field of axis 323 in 13_motion_profiles.md: Position 1,234,567, current 234, strong. -/
theorem test_step_field :
    (Dev.put { inMode 3 with prof := { axes := [(323, { current := 234, strong := true })] } } [(0x2250, 11, 323, 0)]).stepField 323 1234567 =
      [0x87, 0xD6, 0x92, 0xEA] := by decide +kernel

/-! ### Witnesses: states and operands that meet the hypotheses of the statements -/

/-- `inMode m` with blade A active, no segment enabled and a verified seal. -/
def bladeUp (m : Nat) : Dev := Dev.put (inMode m) 
  [(0x1100, 1, 0, 0), (0x1101, 1, 0, 0), (0x1102, 1, 0, 0), (0x1103, 1, 0, 0), (0x4000, 3, 0, 0), (0x9020, 1, 0, 0), (0x9020, 2, 0, 1),
   (0x9030, 1, 0, 4)]
/-- A download session of host port 1 under way. -/
def dlSession : Session := { src := .port 0 1 5000, num := 5, accepted := [0], next := 1, headerOk := true, tableOk := true, beginOk := true }
/-- A download header that gives one table block, no host block and two field blocks. -/
def dlHeader : Bytes := zeros 24 ++ leBytes 1 4 ++ leBytes 0 4 ++ leBytes 2 4 ++ zeros 988
/-- Segment 0 in state `st` on both channels, with two gates. -/
def seg0 (st : Nat) (x : Seg) : State :=
  at_ { Dev.put (inMode 2) [(0x1100, 1, 0, 1), (0x1100, 3, 0, 3), (0x1120, 1, 0, st), (0x1120, 2, 0, 2), (0x1120, 3, 0, 3)] with segs := [(0, x)] }
/-- Blade A drives the frames; its law of axis 0, of two stages, is in service at stage `k`. -/
def lawAt (k : Nat) : State :=
  at_ { Dev.put (bladeUp 2) [(0x2000, 1, 0, 1), (0x2100, 1, 0, 2), (0x2100, 2, 0, 0), (0x2100, 3, 0, 0)] with eng := { cutFor := some 3, a := { lanes := [(0, .axis 0)], laws := [(0, { run := some { job := ⟨0, 3, 0, false, [], [], {}⟩, stage := k, outs := [(0, [7, 7])] } })] } } }
/-- The run that `lawAt k` has in service. -/
def runAt (k : Nat) : LawRun := { job := ⟨0, 3, 0, false, [], [], {}⟩, stage := k, outs := [(0, [7, 7])] }
/-- The governor runs adaptively at 800 mV; transaction `k` is in progress. -/
def govAt (k : Nat) : Dev := { Dev.put (inMode 2) [(0x9010, 1, 0, 2), (0x9010, 12, 0, 800), (0x9010, 14, 0, 1)] with gov := { trans := k, linked := true, exp := -12 } }
/-- The store is ready with an idle array; PFAIL_N is high since instant 0. -/
def storeReady : Dev := { Dev.put (inMode 3) [(0x5000, 1, 0, 1)] with now := 20000000 }
/-- The store is ready with idle areas; area 0 is the previous and the factory set. -/
def setDev : Dev := { Dev.put (inMode 2) [(0x5000, 1, 0, 1)] with st := { previous := 0, factory := 0 } }
/-- The header of an empty set with the check code of `setDev` at every Default. -/
def setHead : Bytes := setHeader 0 3 0 0 ((setDev.advance 1).withValues []).checkCode []
/-- The array holds that set in area 0. -/
def setState : State := { at_ setDev with nv := memStore [] (64 * areaLine 0) setHead }

theorem setHead_read : setDev.st.readLine setState.nv (areaLine 0) = setHead := by
  have h := memSlice_memStore [] (64 * areaLine 0) setHead rfl
  rw [show setHead.length = 64 from sealLine_length _] at h
  exact h

theorem setHead_fields : setHead.take 4 = ascii "PSET" ∧ leAt setHead 4 2 = 1 ∧ leAt setHead 12 4 = 0 ∧
    leAt setHead 34 2 = ((setDev.advance 1).withValues []).checkCode ∧ leAt setHead 36 4 = crc32 [] := by
  have hc : ((setDev.advance 1).withValues []).checkCode < 65536 := crc16_lt _
  unfold setHead
  generalize ((setDev.advance 1).withValues []).checkCode = c at hc
  refine ⟨rfl, rfl, rfl, two_bytes c hc, ?_⟩
  exact (show leAt (setHeader 0 3 0 0 c []) 36 4 = ofLe (leBytes (crc32 []) 4) from rfl).trans (by decide)

theorem setState_image : setDev.st.image setState.nv [] 0 = some (setHead, []) := by
  have v : lineValid setHead = true := lineValid_sealLine _
  obtain ⟨h1, h2, h3, -, h5⟩ := setHead_fields
  unfold StoreSt.image
  simp only [setHead_read, v, h1, h2, h3, h5]
  rfl

theorem setState_check : (setDev.advance 1).checkSet (setHead, []) = some ([], 0) := by
  have h := setHead_fields.2.2.2.1
  have g : (touchedGroups []).all (fun g => (groupFail true (setDev.advance 1) ((setDev.advance 1).withValues []) g.1 g.2).isNone) = true := by
    decide +kernel
  simp only [Dev.checkSet, parseBody, List.isEmpty_nil, if_true, List.map_nil, List.all_nil, Bool.and_self, Bool.not_true, Bool.false_eq_true, if_false, h, g, beq_self_eq_true]

/-- The FCAN port is `x`. -/
def fcanAt (x : CanPort) : State := at_ { inMode 3 with fcan := x }
/-- A classic frame of identifier 5 with one byte. -/
def frame5 : CanFrame := { id := 5, xtd := false, rtr := false, dlc := 1, fdf := false, brs := false, esi := false, data := [9] }
/-- Core 2 runs with the Lift state `x`. -/
def liftAt (x : LiftSt) : State := at_ { inMode 3 with lift := { x with cores := [(2, { state := 2 })] } }
/-- Capture unit 1 is `x` with channel 0 taking feedback channel 0. -/
def capAt (x : CapUnit) : State := at_ { Dev.put (inMode 3) [(0x2700, 1, 0, 1)] with cap := { units := [(1, x)] } }

theorem witness_ResetOfADieLeavesItsDefaults_frstLow : ∃ (s : State) (t width : Nat),
    2 * us ≤ width ∧
    s.dev.md.fieldReset = false ∧
    s.dev.st.breath = none :=
  ⟨at_ (inMode 3), 1, 2000000, by decide⟩

theorem witness_ResetOfADieLeavesItsDefaults_frstRelease : ∃ (s : State) (t ssc plls up down : Nat),
    s.dev.md.fieldReset = true ∧
    plls % 8 = 7 :=
  ⟨at_ { md := { fieldReset := true } }, 1, 0, 7, 0, 0, by decide⟩

theorem witness_ResetOfADieLeavesItsDefaults_frstWaits : ∃ (s : State) (t ssc plls up down : Nat),
    s.dev.md.fieldReset = true ∧
    plls % 8 ≠ 7 :=
  ⟨at_ { md := { fieldReset := true } }, 1, 0, 3, 0, 0, by decide⟩

theorem witness_ResetOfADieLeavesItsDefaults_hrstLow : ∃ (s : State) (t width : Nat),
    2 * us ≤ width ∧
    s.dev.md.hostReset = false :=
  ⟨at_ (inMode 3), 1, 2000000, by decide⟩

theorem witness_ResetOfADieLeavesItsDefaults_frstShort : ∃ (s : State) (t width : Nat),
    width < us :=
  ⟨at_ (inMode 3), 1, 900000, by decide⟩

theorem witness_ResetOfADieLeavesItsDefaults_hrstShort : ∃ (s : State) (t width : Nat),
    width < us :=
  ⟨at_ (inMode 3), 1, 900000, by decide⟩

theorem witness_ResetOfADieLeavesItsDefaults_hrstRelease : ∃ (s : State) (t : Nat),
    s.dev.md.hostReset = true :=
  ⟨at_ { md := { hostReset := true } }, 1, by decide⟩

theorem witness_ResetOfADieLeavesItsDefaults_hrstWaits : ∃ (s : State) (t : Nat),
    s.dev.md.hostReset = true :=
  ⟨at_ { md := { hostReset := true } }, 1, by decide⟩

theorem witness_PowerUpSelfTestsChooseTheActiveBlade_judgeOk : ∃ (s : State) (t bitsA bitsB : Nat),
    s.dev.md.fieldReset = false ∧
    s.dev.rn 0x9020 2 0 = 0 :=
  ⟨State.reset, 1, 0, 0, by decide⟩

theorem witness_PowerUpSelfTestsChooseTheActiveBlade_judgeBad : ∃ (s : State) (t bitsA bitsB : Nat),
    s.dev.md.fieldReset = false ∧
    s.dev.rn 0x9020 2 0 = 0 :=
  ⟨State.reset, 1, 0, 0, by decide⟩

theorem witness_BarrierTrainingBringsTheLinkUpOrDown_complete : ∃ (s : State) (t : Nat),
    s.dev.bar.training = true ∧
    s.dev.md.hostReset = false ∧
    s.dev.md.fieldReset = false :=
  ⟨State.reset, 50000000, by decide⟩

theorem witness_BarrierTrainingBringsTheLinkUpOrDown_again : ∃ (s : State) (t : Nat),
    s.dev.bar.training = true ∧
    s.dev.bar.link ≠ 2 ∧
    s.dev.bar.fails + 1 < 3 :=
  ⟨State.reset, 50000000, by decide⟩

theorem witness_BarrierTrainingBringsTheLinkUpOrDown_down : ∃ (s : State) (t : Nat),
    s.dev.bar.training = true ∧
    s.dev.bar.link ≠ 2 ∧
    s.dev.bar.fails = 2 ∧
    s.dev.md.fieldReset = false :=
  ⟨at_ { bar := { fails := 2 } }, 50000000, by decide⟩

theorem witness_BarrierTrainingBringsTheLinkUpOrDown_retrain : ∃ (s : State) (t : Nat),
    s.dev.bar.link = 2 ∧
    s.dev.bar.training = false :=
  ⟨at_ { bar := { link := 2, training := false } }, 50000000, by decide⟩

theorem witness_HostDieJudgesAnAbsentFieldDie_noHeartbeat : ∃ (s : State) (t : Nat),
    s.dev.bar.fieldDue = true ∧
    s.dev.bar.link = 1 ∧
    s.dev.bar.since + 4 * ms ≤ t ∧
    s.dev.bar.host.started = false ∧
    s.dev.md.hostReset = false :=
  ⟨at_ { bar := { link := 1, fieldDue := true } }, 4000000000, by decide⟩

theorem witness_HostDieJudgesAnAbsentFieldDie_held : ∃ (s : State) (t x : Nat),
    s.dev.bar.downAt = some x ∧
    x + sec ≤ t ∧
    s.dev.bar.link ≠ 1 ∧
    s.dev.md.hostReset = false ∧
    s.dev.md.fieldHeld = false :=
  ⟨at_ { bar := { link := 2, downAt := some 5 } }, 1000000000005, 5, by decide⟩

theorem witness_HostDieJudgesAnAbsentFieldDie_holdTime : ∃ (s : State) (t holdMs : Nat),
    s.dev.md.fieldReset = false :=
  ⟨State.reset, 1, 1500, by decide⟩

theorem witness_BarrierSenderPicksItsNextCell_idle : ∃ (s : State) (t : Nat) (die : Die),
    s.dev.bar.link = 1 ∧
    s.dev.inReset die = false ∧
    (s.dev.bd die).ctl = [] ∧
    (s.dev.bd die).idleAgain = [] ∧
    (s.dev.bd die).held = [] ∧
    (s.dev.bd die).hb = none ∧
    (s.dev.bd die).queue = [] :=
  ⟨at_ { bar := { link := 1 } }, 1, .host, by decide⟩

theorem witness_BarrierSenderPicksItsNextCell_heartbeat : ∃ (s : State) (t : Nat) (die : Die) (p : Bytes),
    s.dev.bar.link = 1 ∧
    s.dev.inReset die = false ∧
    (s.dev.bd die).ctl = [] ∧
    (s.dev.bd die).idleAgain = [] ∧
    (s.dev.bd die).held = [] ∧
    (s.dev.bd die).hb = some p :=
  ⟨at_ { bar := { link := 1, host := { hb := some [1, 0, 0, 0, 1] } } }, 1, .host, [1, 0, 0, 0, 1], by decide⟩

theorem witness_BarrierSenderPicksItsNextCell_message : ∃ (s : State) (t : Nat) (die : Die) (m : TxMsg) (c : Bytes) (cs : List Bytes),
    s.dev.bar.link = 1 ∧
    s.dev.inReset die = false ∧
    (s.dev.bd die).ctl = [] ∧
    (s.dev.bd die).idleAgain = [] ∧
    (s.dev.bd die).held = [] ∧
    (s.dev.bd die).hb = none ∧
    nextMsg (s.dev.bd die).queue = some m ∧
    m.rest = c :: cs :=
  ⟨at_ { bar := { link := 1, field := { queue := [{ id := 0, mbx := 9, all := [[7]], rest := [[7]], sent := [] }] } } }, 1, .field, { id := 0, mbx := 9, all := [[7]], rest := [[7]], sent := [] }, [7], [], by decide⟩

theorem witness_BarrierSenderPicksItsNextCell_ackTimeout : ∃ (s : State) (t seq : Nat) (die : Die) (c : HeldCell),
    c ∈ (s.dev.bd die).held ∧
    c.seq = seq ∧
    c.resent = false ∧
    c.sentAt + 20 * us ≤ t :=
  ⟨at_ { bar := { host := { held := [{ seq := 3, ty := 2, b1 := 0, payload := [], sentAt := 0, resent := false, due := false, msg := none }] } } }, 20000000, 3, .host, { seq := 3, ty := 2, b1 := 0, payload := [], sentAt := 0, resent := false, due := false, msg := none }, by decide⟩

theorem witness_BarrierReceiverChecksCells_nak : ∃ (s : State) (t : Nat) (die : Die) (cell : Bytes),
    s.dev.now ≤ t ∧
    s.dev.bar.link = 1 ∧
    s.dev.inReset die = false ∧
    leAt cell 60 4 ≠ crc32 (cell.take 60) ∧
    (s.dev.bd die).nak = none :=
  ⟨at_ { bar := { link := 1 } }, 1, .field, zeros 60 ++ [1, 0, 0, 0], by decide +kernel⟩

theorem witness_BarrierReceiverChecksCells_heartbeat : ∃ (s : State) (t : Nat) (cell : Bytes),
    s.dev.now ≤ t ∧
    s.dev.bar.link = 1 ∧
    s.dev.md.fieldReset = false ∧
    cell.length = 64 ∧
    leAt cell 60 4 = crc32 (cell.take 60) ∧
    leAt cell 2 2 = s.dev.bar.field.expected ∧
    s.dev.bar.field.reorder = [] ∧
    s.dev.bar.field.nak = none ∧
    byteAt cell 0 = 2 ∧
    byteAt cell 1 = 0 ∧
    allZero ((slice cell 6 54).drop 5) = true ∧
    s.dev.bar.field.hbLast ≠ some (leAt (slice cell 6 54) 0 4) :=
  ⟨at_ { bar := { link := 1 } }, 1, cellBytes 2 0 0 0 [1, 0, 0, 0, 1], by decide +kernel⟩

theorem witness_BarrierReceiverChecksCells_nakWait : ∃ (s : State) (t n x : Nat),
    s.dev.bar.link = 1 ∧
    s.dev.md.fieldReset = false ∧
    s.dev.bar.field.nak = some (n, x) ∧
    x + 20 * us ≤ t ∧
    s.dev.mode ≠ 1 :=
  ⟨at_ { bar := { link := 1, field := { nak := some (0, 5) } } }, 20000005, 0, 5, by decide⟩

theorem witness_HeartbeatsTellEachDieOfItsPartner_send : ∃ (s : State) (t : Nat) (die : Die),
    s.dev.inReset die = false ∧
    s.dev.bar.link = 1 ∧
    (die = .field → s.dev.md.fieldFw = true) :=
  ⟨at_ (inMode 2), 1, .field, by decide⟩

theorem witness_HeartbeatsTellEachDieOfItsPartner_hostSilent : ∃ (s : State) (t : Nat),
    s.dev.md.fieldReset = false ∧
    s.dev.bar.field.started = true ∧
    s.dev.bar.field.silent = false ∧
    s.dev.bar.field.hbAt + 3 * ms ≤ t ∧
    (s.dev.mode = 0 ∨ s.dev.mode = 2 ∨ s.dev.mode = 5) :=
  ⟨at_ { inMode 2 with bar := { field := { started := true } } }, 3000000000, by decide⟩

theorem witness_HeartbeatsTellEachDieOfItsPartner_grace : ∃ (s : State) (t : Nat),
    s.dev.now ≤ t ∧
    s.dev.md.fieldReset = false ∧
    s.dev.bar.field.started = true ∧
    s.dev.bar.field.silent = false ∧
    s.dev.bar.field.hbAt + 3 * ms ≤ t ∧
    (s.dev.mode = 3 ∨ s.dev.mode = 4) ∧
    s.dev.rn 0x30 7 0 ≠ 0 :=
  ⟨at_ { inMode 3 with bar := { field := { started := true } } }, 3000000000, by decide⟩

theorem witness_HeartbeatsTellEachDieOfItsPartner_fieldSilent : ∃ (s : State) (t : Nat),
    s.dev.md.hostReset = false ∧
    s.dev.bar.host.started = true ∧
    s.dev.bar.host.silent = false ∧
    s.dev.bar.host.hbAt + 3 * ms ≤ t :=
  ⟨at_ { bar := { host := { started := true } } }, 3000000000, by decide⟩

theorem witness_StatusReportsCarryTheElements_hostSends : ∃ (s : State) (t : Nat),
    s.dev.md.hostReset = false ∧
    s.dev.md.hostFw = true :=
  ⟨at_ (inMode 2), 1, by decide⟩

theorem witness_StatusReportsCarryTheElements_fieldSends : ∃ (s : State) (t : Nat),
    s.dev.md.fieldReset = false ∧
    s.dev.md.fieldFw = true :=
  ⟨at_ (inMode 2), 1, by decide⟩

theorem witness_StatusReportsCarryTheElements_fieldTakes : ∃ (s : State) (t : Nat) (rep : StatusReport),
    s.dev.md.fieldReset = false :=
  ⟨State.reset, 1, { clear := false, vals := [(okey 0x1000 4 0, 7)] }, by decide⟩

theorem witness_StatusReportsCarryTheElements_hostTakes : ∃ (s : State) (t : Nat) (rep : StatusReport),
    s.dev.md.hostReset = false :=
  ⟨State.reset, 1, { clear := false, vals := [(okey 0x30 1 0, 2)] }, by decide⟩

theorem witness_ClearingCountsTakesEffectAtTheBoundary_clear : ∃ (s : State) (t obj inst : Nat) (req : Req),
    (obj = 0x2720 ∨ (0x8100 ≤ obj ∧ obj ≤ 0x8109)) ∧
    s.dev.Admits req obj (if obj == 0x2720 then 8 else 7) inst [1] = true :=
  ⟨at_ (inMode 2), 1, 0x8100, 0, ⟨.port 0 1 5000, 7⟩, by decide⟩

theorem witness_ClearingCountsTakesEffectAtTheBoundary_clearHost : ∃ (s : State) (t : Nat) (req : Req),
    s.dev.Admits req 0x8101 7 0 [1] = true :=
  ⟨at_ (inMode 2), 1, ⟨.port 0 1 5000, 7⟩, by decide⟩

theorem witness_ModeRequestsAndTheStop_run : ∃ (s : State) (t : Nat) (req : Req),
    s.dev.Admits req 0x30 3 0 [3] = true ∧
    s.dev.modeJudge 3 = 0 :=
  ⟨at_ { Dev.put (bladeUp 2) [(0x5000, 1, 0, 1)] with st := { active := 0 } }, 1, ⟨.port 0 1 5000, 7⟩, by decide⟩

theorem witness_ModeRequestsAndTheStop_other : ∃ (s : State) (t value : Nat) (req : Req),
    s.dev.Admits req 0x30 3 0 (leBytes value 1) = true ∧
    value < 256 ∧
    value ≠ 2 ∧
    value ≠ 3 :=
  ⟨at_ (inMode 2), 1, 4, ⟨.port 0 1 5000, 7⟩, by decide⟩

theorem witness_ModeRequestsAndTheStop_stop : ∃ (s : State) (t : Nat) (req : Req),
    s.dev.Admits req 0x30 3 0 [2] = true ∧
    s.dev.mode = 3 ∧
    s.dev.rn 0x30 3 0 = 0xFF ∧
    s.dev.md.stopping = false :=
  ⟨at_ (inMode 3), 1, ⟨.port 0 1 5000, 7⟩, by decide⟩

theorem witness_ModeRequestsAndTheStop_stopDone : ∃ (s : State) (t : Nat),
    s.dev.md.fieldReset = false ∧
    s.dev.md.stopping = true ∧
    s.dev.mode = 3 ∧
    s.dev.enabledAxes.all s.dev.standstill = true :=
  ⟨at_ { inMode 3 with md := { fieldFw := true, stopping := true } }, 1, by decide⟩

theorem witness_SafeHoldIsAcknowledgedAndHostLossEndsInIt_ack : ∃ (s : State) (t value : Nat) (req : Req),
    s.dev.Admits req 0x30 6 0 (leBytes value 4) = true ∧
    value < 2 ^ 32 ∧
    s.dev.mode = 5 ∧
    value = s.dev.rn 0x30 5 0 ∧
    s.dev.torqueAllOff = true ∧
    s.dev.causePersists = false :=
  ⟨at_ (bladeUp 5), 1, 0, ⟨.port 0 1 5000, 7⟩, by decide⟩

theorem witness_SafeHoldIsAcknowledgedAndHostLossEndsInIt_wrong : ∃ (s : State) (t value : Nat) (req : Req),
    s.dev.Admits req 0x30 6 0 (leBytes value 4) = true ∧
    value < 2 ^ 32 ∧
    value ≠ s.dev.rn 0x30 5 0 :=
  ⟨at_ (inMode 5), 1, 9, ⟨.port 0 1 5000, 7⟩, by decide⟩

theorem witness_SafeHoldIsAcknowledgedAndHostLossEndsInIt_grace : ∃ (s : State) (t x : Nat),
    s.dev.md.grace = some x ∧
    x ≤ t ∧
    s.dev.md.fieldReset = false ∧
    s.dev.mode = 3 ∧
    s.dev.md.cause = none :=
  ⟨at_ { inMode 3 with md := { fieldFw := true, grace := some 4 } }, 9, 4, by decide⟩

theorem witness_SafeHoldIsAcknowledgedAndHostLossEndsInIt_graceRide : ∃ (s : State) (t x : Nat),
    s.dev.md.grace = some x ∧
    x ≤ t ∧
    s.dev.md.fieldReset = false ∧
    s.dev.mode = 4 :=
  ⟨at_ { inMode 4 with md := { fieldFw := true, grace := some 4 } }, 9, 4, by decide⟩

theorem witness_DownloadPacketsAreAnswered_badHeader : ∃ (s : State) (t : Nat) (src : Source) (packet : Bytes),
    s.dev.md.hostReset = false ∧
    s.dev.md.hostFw = false ∧
    s.dev.ld.session = none ∧
    s.dev.ld.running = false ∧
    leAt packet 4 4 = 0 ∧
    hdrFieldsOk (packetData packet) = false :=
  ⟨State.reset, 1, .port 0 1 5000, [1, 0, 5, 0, 0, 0, 0, 0], by decide +kernel⟩

theorem witness_DownloadPacketsAreAnswered_tableBlock : ∃ (s : State) (t : Nat) (src : Source) (packet : Bytes) (x : Session),
    s.dev.md.hostReset = false ∧
    s.dev.md.hostFw = false ∧
    s.dev.ld.session = some x ∧
    x.src = src ∧
    leAt packet 2 2 = x.num ∧
    x.next = leAt packet 4 4 ∧
    leAt packet 4 4 ≠ 0 ∧
    leAt packet 4 4 < hdrN s.dev.ld.header ∧
    leAt packet 4 4 < hdrT s.dev.ld.header ∧
    x.accepted = List.range (leAt packet 4 4) ∧
    x.held = [] ∧
    leAt packet 4 4 < 9000 :=
  ⟨at_ { ld := { header := zeros 24 ++ leBytes 2 4 ++ leBytes 0 4 ++ leBytes 2 4 ++ zeros 988, session := some { dlSession with tableOk := false } } }, 1, .port 0 1 5000, [1, 0, 5, 0, 1, 0, 0, 0, 9], { dlSession with tableOk := false }, by decide +kernel⟩

theorem witness_DownloadPacketsAreAnswered_noSession : ∃ (s : State) (t : Nat) (src : Source) (packet : Bytes),
    s.dev.md.hostReset = false ∧
    s.dev.md.hostFw = false ∧
    s.dev.ld.session = none ∧
    leAt packet 4 4 ≠ 0 :=
  ⟨State.reset, 1, .port 0 1 5000, [1, 0, 5, 0, 1, 0, 0, 0], by decide⟩

theorem witness_DownloadPacketsAreAnswered_end : ∃ (s : State) (t : Nat) (src : Source) (packet : Bytes) (x : Session),
    s.dev.md.hostReset = false ∧
    s.dev.md.hostFw = false ∧
    s.dev.ld.session = some x ∧
    x.src = src ∧
    leAt packet 2 2 = x.num ∧
    hdrN s.dev.ld.header ≤ x.accepted.length ∧
    x.tableOk = true ∧
    x.rejoin = false ∧
    x.beginOk = true ∧
    s.dev.ld.accepted.length = hdrF s.dev.ld.header :=
  ⟨at_ { ld := { header := dlHeader, accepted := [0, 1], session := some { dlSession with accepted := [0, 1, 2, 3] } } }, 1, .port 0 1 5000, [2, 0, 5, 0], { dlSession with accepted := [0, 1, 2, 3] }, by decide +kernel⟩

theorem witness_DownloadPacketsAreAnswered_abort : ∃ (s : State) (t : Nat) (src : Source) (packet : Bytes) (x : Session),
    s.dev.md.hostReset = false ∧
    s.dev.md.hostFw = false ∧
    s.dev.ld.session = some x ∧
    x.src = src ∧
    leAt packet 2 2 = x.num :=
  ⟨at_ { ld := { session := some dlSession } }, 1, .port 0 1 5000, [3, 0, 5, 0], dlSession, by decide⟩

theorem witness_DownloadPacketsAreAnswered_timeout : ∃ (s : State) (t : Nat) (x : Session),
    s.dev.ld.session = some x ∧
    x.last + sec ≤ t :=
  ⟨at_ { ld := { session := some dlSession } }, 1000000000000, dlSession, by decide⟩

theorem witness_FirmwareBlocksCrossTheBarrier_forward : ∃ (s : State) (t : Nat) (x : Session),
    s.dev.ld.session = some x ∧
    x.beginOk = true ∧
    s.dev.md.hostReset = false ∧
    s.dev.ld.toForward = [] ∧
    s.dev.ld.fwdNext < hdrF s.dev.ld.header ∧
    hdrT s.dev.ld.header + hdrH s.dev.ld.header + 1 + s.dev.ld.fwdNext ∈ x.accepted ∧
    s.dev.sendBusy .host (s.dev.ld.fwdNext % 2) = false :=
  ⟨at_ { ld := { header := dlHeader, session := some { dlSession with accepted := [0, 1, 2] } } }, 1, { dlSession with accepted := [0, 1, 2] }, by decide +kernel⟩

theorem witness_FirmwareBlocksCrossTheBarrier_good : ∃ (s : State) (t mailbox : Nat) (msg readback : Bytes),
    s.dev.md.fieldReset = false ∧
    s.dev.mode = 1 ∧
    s.dev.rn 0x30 2 0 = 1 ∧
    sha256 (fit readback 1024) = slice msg 8 32 ∧
    leAt msg 0 4 ∉ s.dev.ld.fFailed :=
  ⟨at_ { ob := { od := [(okey 0x30 1 0, 1), (okey 0x30 2 0, 1)] } }, 1, 0, zeros 8 ++ sha256 (fit [] 1024), [], by decide +kernel⟩

theorem witness_FirmwareBlocksCrossTheBarrier_bad : ∃ (s : State) (t mailbox : Nat) (msg readback : Bytes),
    s.dev.md.fieldReset = false ∧
    s.dev.mode = 1 ∧
    s.dev.rn 0x30 2 0 = 1 ∧
    sha256 (fit readback 1024) ≠ slice msg 8 32 ∧
    leAt msg 0 4 ∉ s.dev.ld.fFailed ∧
    byteAt msg 4 = 1 :=
  ⟨at_ { ob := { od := [(okey 0x30 1 0, 1), (okey 0x30 2 0, 1)] } }, 1, 0, [0, 0, 0, 0, 1], [], by decide +kernel⟩

theorem witness_FirmwareBlocksCrossTheBarrier_twice : ∃ (s : State) (t mailbox : Nat) (msg readback : Bytes),
    s.dev.md.fieldReset = false ∧
    s.dev.mode = 1 ∧
    s.dev.rn 0x30 2 0 = 1 ∧
    sha256 (fit readback 1024) ≠ slice msg 8 32 ∧
    leAt msg 0 4 ∈ s.dev.ld.fFailed :=
  ⟨at_ { ob := { od := [(okey 0x30 1 0, 1), (okey 0x30 2 0, 1)] }, ld := { fFailed := [0] } }, 1, 0, [0, 0, 0, 0, 2], [], by decide +kernel⟩

theorem witness_FirmwareBlocksCrossTheBarrier_again : ∃ (s : State) (t mailbox k att : Nat) (x : Session),
    s.dev.md.hostReset = false ∧
    s.dev.ld.session = some x ∧
    s.dev.ld.crossing = [(k, att)] ∧
    k % 2 = mailbox :=
  ⟨at_ { ld := { crossing := [(4, 1)], session := some dlSession } }, 1, 0, 4, 1, dlSession, by decide⟩

theorem witness_FirmwareBlocksCrossTheBarrier_accepted : ∃ (s : State) (t mailbox k att : Nat) (x : Session),
    s.dev.md.hostReset = false ∧
    s.dev.ld.session = some x ∧
    x.endWait = false ∧
    s.dev.ld.crossing = [(k, att)] ∧
    k % 2 = mailbox :=
  ⟨at_ { ld := { crossing := [(4, 1)], session := some dlSession } }, 1, 0, 4, 1, dlSession, by decide⟩

theorem witness_LoadControlMovesTheFieldDie_begin : ∃ (s : State) (t : Nat) (msg : Bytes),
    s.dev.md.fieldReset = false ∧
    s.dev.mode = 0 :=
  ⟨State.reset, 1, [1], by decide⟩

theorem witness_LoadControlMovesTheFieldDie_beginRefused : ∃ (s : State) (t : Nat) (msg : Bytes),
    s.dev.md.fieldReset = false ∧
    s.dev.mode ≠ 0 :=
  ⟨at_ (inMode 3), 1, [1], by decide⟩

theorem witness_LoadControlMovesTheFieldDie_end : ∃ (s : State) (t : Nat) (msg : Bytes),
    s.dev.md.fieldReset = false ∧
    s.dev.mode = 1 ∧
    s.dev.rn 0x30 2 0 = 1 :=
  ⟨at_ { ob := { od := [(okey 0x30 1 0, 1), (okey 0x30 2 0, 1)] } }, 1, [2], by decide⟩

theorem witness_LoadControlMovesTheFieldDie_abort : ∃ (s : State) (t : Nat) (msg : Bytes),
    s.dev.md.fieldReset = false ∧
    s.dev.mode = 1 :=
  ⟨at_ { ob := { od := [(okey 0x30 1 0, 1), (okey 0x30 2 0, 1)] } }, 1, [3, 0x1A], by decide⟩

theorem witness_LoadControlMovesTheFieldDie_rejoin : ∃ (s : State) (t : Nat) (msg : Bytes),
    s.dev.md.fieldReset = false ∧
    s.dev.md.fieldFw = true ∧
    leAt msg 8 8 = s.dev.ld.fIdentity :=
  ⟨at_ (inMode 3), 1, [4], by decide⟩

theorem witness_LoadControlMovesTheFieldDie_rejoinRefused : ∃ (s : State) (t : Nat) (msg : Bytes),
    s.dev.md.fieldReset = false ∧
    leAt msg 8 8 ≠ s.dev.ld.fIdentity :=
  ⟨at_ (inMode 3), 1, [4, 0, 0, 0, 0, 0, 0, 0, 1], by decide⟩

theorem witness_LoadControlMovesTheFieldDie_upset : ∃ (s : State) (t : Nat),
    s.dev.mode = 1 ∧
    s.dev.rn 0x30 2 0 = 2 ∧
    s.dev.ld.verifyAgain = false :=
  ⟨at_ { ob := { od := [(okey 0x30 1 0, 1), (okey 0x30 2 0, 2)] } }, 1, by decide⟩

theorem witness_LoadControlMovesTheFieldDie_verified : ∃ (s : State) (t : Nat),
    s.dev.mode = 1 ∧
    s.dev.rn 0x30 2 0 = 2 ∧
    s.dev.ld.verifyAgain = false ∧
    s.dev.ld.rollback ≤ s.dev.ld.fSecurity ∧
    sha256 ((List.range s.dev.ld.fBlocks).map fun k => Tab.get s.dev.ld.fw k (zeros 1024)).flatten = s.dev.ld.fDigest :=
  ⟨at_ { ob := { od := [(okey 0x30 1 0, 1), (okey 0x30 2 0, 2)] }, ld := { fDigest := sha256 [] } }, 1, by decide +kernel⟩

theorem witness_LoadControlMovesTheFieldDie_begun : ∃ (s : State) (t : Nat) (msg : Bytes) (x : Session),
    s.dev.md.hostReset = false ∧
    byteAt msg 1 = 0 ∧
    s.dev.ld.session = some x ∧
    x.rejoin = false :=
  ⟨at_ { ld := { session := some dlSession } }, 1, [0x81, 0, 1], dlSession, by decide⟩

theorem witness_LoadControlMovesTheFieldDie_started : ∃ (s : State) (t : Nat) (msg : Bytes),
    s.dev.md.hostReset = false ∧
    byteAt msg 1 = 1 ∧
    byteAt msg 2 = 3 ∧
    s.dev.ld.running = true :=
  ⟨at_ { ld := { running := true } }, 1, [0x81, 1, 3], by decide⟩

theorem witness_LoadControlMovesTheFieldDie_transferTimeout : ∃ (s : State) (t : Nat),
    s.dev.md.fieldReset = false ∧
    s.dev.mode = 1 ∧
    s.dev.rn 0x30 2 0 = 1 ∧
    s.dev.ld.lastCell + 100 * ms ≤ t :=
  ⟨at_ { ob := { od := [(okey 0x30 1 0, 1), (okey 0x30 2 0, 1)] } }, 100000000000, by decide⟩

theorem witness_LoadTimersEndTheLoad_field : ∃ (s : State) (t : Nat),
    s.dev.md.fieldReset = false ∧
    s.dev.mode = 1 ∧
    s.dev.rn 0x30 2 0 = 3 ∧
    s.dev.md.fieldBeat = false ∧
    s.dev.ld.phaseAt + 100 * ms ≤ t :=
  ⟨at_ { ob := { od := [(okey 0x30 1 0, 1), (okey 0x30 2 0, 3)] } }, 100000000000, by decide⟩

theorem witness_LoadTimersEndTheLoad_host : ∃ (s : State) (t x : Nat),
    s.dev.ld.hostStartAt = some x ∧
    s.dev.md.hostFw = true ∧
    s.dev.md.hostBeat = false ∧
    x + 100 * ms ≤ t :=
  ⟨at_ { md := { hostFw := true }, ld := { hostStartAt := some 7 } }, 100000000007, 7, by decide⟩

theorem witness_LoadTimersEndTheLoad_rejoin : ∃ (s : State) (t x : Nat) (y : Session),
    s.dev.ld.rejoinAt = some x ∧
    x + 100 * ms ≤ t ∧
    s.dev.ld.session = some y ∧
    y.rejoin = true :=
  ⟨at_ { ld := { rejoinAt := some 7, session := some { dlSession with rejoin := true } } }, 100000000007, 7, { dlSession with rejoin := true }, by decide⟩

theorem witness_KeySlotCounterAndBootExchange_key : ∃ (s : State) (t : Nat) (req : Req) (value : Bytes),
    s.dev.md.hostReset = false ∧
    s.dev.hostServes req.src = true ∧
    s.dev.ob.outstanding = [] ∧
    s.dev.ob.kept.any (fun k => k.src == req.src) = false ∧
    s.dev.ob.staging = [] ∧
    s.dev.hrn 0x30 1 0 = 0 ∧
    s.dev.ld.session = none ∧
    s.dev.ld.keySlot1 = [] ∧
    value.length = 32 ∧
    allZero value = false :=
  ⟨State.reset, 1, ⟨.port 0 1 5000, 7⟩, List.replicate 32 5, by decide +kernel⟩

theorem witness_KeySlotCounterAndBootExchange_advance : ∃ (s : State) (t : Nat) (req : Req),
    s.dev.Admits req 0x20 8 0 [1] = true ∧
    s.dev.ld.rollback < s.dev.ld.fSecurity :=
  ⟨at_ { inMode 2 with ld := { fSecurity := 3 } }, 1, ⟨.port 0 1 5000, 7⟩, by decide⟩

theorem witness_KeySlotCounterAndBootExchange_same : ∃ (s : State) (t : Nat) (req : Req),
    s.dev.Admits req 0x20 8 0 [1] = true ∧
    s.dev.ld.fSecurity ≤ s.dev.ld.rollback :=
  ⟨at_ (inMode 2), 1, ⟨.port 0 1 5000, 7⟩, by decide⟩

theorem witness_KeySlotCounterAndBootExchange_wake : ∃ (s : State) (t : Nat) (data : Bytes),
    s.dev.md.hostReset = false ∧
    s.dev.md.hostFw = false ∧
    leAt data 0 6 = Config.headIdentity % 2 ^ 48 ∧
    byteAt data 6 = 1 :=
  ⟨State.reset, 1, leBytes Config.headIdentity 6 ++ [1], by refine ⟨rfl, rfl, ?_, ?_⟩ <;> simp [leAt, byteAt, slice, leBytes, ofLe, fit, zeros] <;> omega⟩

theorem witness_KeySlotCounterAndBootExchange_first : ∃ (s : State) (t : Nat) (data : Bytes),
    s.dev.md.hostReset = false ∧
    s.dev.ld.hcanWake = true ∧
    data.length = 64 ∧
    byteAt data 3 = 0 :=
  ⟨at_ { ld := { hcanWake := true } }, 1, zeros 64, by decide⟩

theorem witness_KeySlotCounterAndBootExchange_endNone : ∃ (s : State) (t : Nat) (data : Bytes),
    s.dev.md.hostReset = false ∧
    s.dev.md.hostFw = false ∧
    s.dev.ld.hcanWake = true ∧
    s.dev.ld.session = none ∧
    data.length = 64 ∧
    byteAt data 3 = 0xFE :=
  ⟨at_ { ld := { hcanWake := true } }, 1, [0, 0, 0, 0xFE] ++ zeros 60, by decide⟩

theorem witness_FieldDieServesObjects_read : ∃ (s : State) (t n ip udp tag o el i : Nat),
    s.dev.md.fieldReset = false ∧
    s.dev.md.fieldFw = true ∧
    2 ≤ s.dev.mode ∧
    s.dev.mailIdle = true ∧
    tag < 65536 ∧
    o < 65536 ∧
    objKnown o = true ∧
    0x1000 ≤ o ∧
    instOf o i = some i ∧
    i < 65536 ∧
    el ≤ objCount o ∧
    el < 256 ∧
    tyBytes (tyOf o el) = false :=
  ⟨at_ (inMode 2), 1, 0, 1, 5000, 7, 0x7010, 1, 0, by decide⟩

theorem witness_FieldDieServesObjects_describe : ∃ (s : State) (t n ip udp tag o el i : Nat),
    s.dev.md.fieldReset = false ∧
    s.dev.md.fieldFw = true ∧
    2 ≤ s.dev.mode ∧
    s.dev.mailIdle = true ∧
    tag < 65536 ∧
    o < 65536 ∧
    objKnown o = true ∧
    0x1000 ≤ o ∧
    instOf o i = some i ∧
    i < 65536 ∧
    el ≤ objCount o ∧
    el < 256 :=
  ⟨at_ (inMode 2), 1, 0, 1, 5000, 7, 0x7010, 1, 0, by decide⟩

theorem witness_FieldDieServesObjects_next : ∃ (s : State) (t n ip udp tag o el i : Nat),
    s.dev.md.fieldReset = false ∧
    s.dev.md.fieldFw = true ∧
    2 ≤ s.dev.mode ∧
    s.dev.mailIdle = true ∧
    tag < 65536 ∧
    o < 65536 ∧
    i < 65536 ∧
    el < 256 :=
  ⟨at_ (inMode 2), 1, 0, 1, 5000, 7, 0x7010, 1, 0, by decide⟩

theorem witness_FieldDieServesObjects_write : ∃ (s : State) (t o el i : Nat) (req : Req) (v : Bytes),
    s.dev.Admits req o el i v = true ∧
    0x1060 ≤ o ∧
    groupRec o el = 0 ∧
    o ≠ 0x2210 ∧
    o ≠ 0x4040 ∧
    o ≠ 0x5070 ∧
    (o = 0x5000 → el ≠ 8) ∧
    (s.dev.advance t).dueCheck o el i (valueOf (tyOf o el) v) = 0 :=
  ⟨at_ (inMode 2), 1, 0x7000, 2, 0, ⟨.port 0 1 5000, 7⟩, leBytes 0x400000000 8, by decide⟩

theorem witness_FieldDieServesObjects_group : ∃ (s : State) (t o el i : Nat) (req : Req) (v : Bytes),
    s.dev.Admits req o el i v = true ∧
    0x1060 ≤ o ∧
    groupRec o el ≠ 0 ∧
    rangeOk (((desc? o el).map Desc.rng).getD .any) (valueOf (tyOf o el) v) = true ∧
    lengthOk o el (valueOf (tyOf o el) v) = true ∧
    s.dev.edit (groupRec o el) (groupInst (groupRec o el) i) = none :=
  ⟨at_ (inMode 2), 1, 0x7010, 1, 0, ⟨.port 0 1 5000, 7⟩, leBytes 250000 4, by decide⟩

theorem witness_HostDieServesBootObjects_read : ∃ (s : State) (t tag o el i : Nat) (src : Source),
    s.dev.md.hostReset = false ∧
    s.dev.hostServes src = true ∧
    s.dev.ob.outstanding = [] ∧
    s.dev.ob.kept.any (fun k => k.src == src) = false ∧
    tag < 65536 ∧
    o < 0x1000 ∧
    el < 256 ∧
    objKnown o = true ∧
    instOf o i = some 0 ∧
    i < 65536 ∧
    el ≤ objCount o ∧
    tyBytes (tyOf o el) = false ∧
    (o = 0x40 → el ≠ 2) :=
  ⟨State.reset, 1, 7, 0x30, 1, 0, .port 0 1 5000, by decide⟩

theorem witness_HostDieServesBootObjects_describe : ∃ (s : State) (t tag o el i : Nat) (src : Source),
    s.dev.md.hostReset = false ∧
    s.dev.hostServes src = true ∧
    s.dev.ob.outstanding = [] ∧
    s.dev.ob.kept.any (fun k => k.src == src) = false ∧
    tag < 65536 ∧
    o < 0x1000 ∧
    el < 256 ∧
    objKnown o = true ∧
    instOf o i = some 0 ∧
    i < 65536 ∧
    el ≤ objCount o :=
  ⟨State.reset, 1, 7, 0x30, 1, 0, .port 0 1 5000, by decide⟩

theorem witness_HostDieServesBootObjects_next : ∃ (s : State) (t tag o el i : Nat) (src : Source),
    s.dev.md.hostReset = false ∧
    s.dev.hostServes src = true ∧
    s.dev.ob.outstanding = [] ∧
    s.dev.ob.kept.any (fun k => k.src == src) = false ∧
    tag < 65536 ∧
    o < 65536 ∧
    el < 256 ∧
    i < 65536 ∧
    s.dev.hrn 0x30 1 0 < 2 :=
  ⟨State.reset, 1, 7, 0x30, 1, 0, .port 0 1 5000, by decide⟩

theorem witness_RequestsCrossAndComeBack_forward : ∃ (s : State) (t mailbox : Nat) (src : Source) (msg : Bytes) (rest : List (Source × Bytes)),
    s.dev.md.hostReset = false ∧
    (mailbox = 4 ∨ mailbox = 5 ∨ mailbox = 6 ∨ mailbox = 7) ∧
    (if mailbox = 4 then s.dev.ob.fwd4 else if mailbox = 5 then s.dev.ob.fwd5 else if mailbox = 6 then s.dev.ob.fwd6 else s.dev.ob.fwd7) = (src, msg) :: rest ∧
    s.dev.sendBusy .host mailbox = false ∧
    mayForward src (mTag msg) mailbox s.dev.ob.outstanding = true :=
  ⟨at_ { ob := { fwd4 := [(.port 0 1 5000, askMsg 1 7 0x7010 1 0)] } }, 1, 4, .port 0 1 5000, askMsg 1 7 0x7010 1 0, [], by decide⟩

theorem witness_RequestsCrossAndComeBack_response : ∃ (s : State) (t : Nat) (src : Source) (msg : Bytes) (x : Outstanding),
    s.dev.md.hostReset = false ∧
    s.dev.ob.outstanding = [x] ∧
    x.route ≠ 0 ∧
    x.resp = none ∧
    x.later = 0 ∧
    x.src = src ∧
    x.tag = mTag msg ∧
    mObj msg ≠ 0x30 :=
  ⟨at_ { ob := { outstanding := [{ src := .port 0 1 5000, tag := 7, msg := askMsg 1 7 0x7010 1 0, at_ := 0, route := 4 }] } }, 1, .port 0 1 5000, respMsg (askMsg 1 7 0x7010 1 0) 0 [1, 0, 0, 0] false, { src := .port 0 1 5000, tag := 7, msg := askMsg 1 7 0x7010 1 0, at_ := 0, route := 4 }, by decide⟩

theorem witness_RequestsCrossAndComeBack_timeout : ∃ (s : State) (t tag : Nat) (src : Source) (x : Outstanding),
    s.dev.md.hostReset = false ∧
    s.dev.ob.outstanding = [x] ∧
    x.route ≠ 0 ∧
    x.resp = none ∧
    x.later = 0 ∧
    x.src = src ∧
    x.tag = tag ∧
    x.at_ + 500 * ms ≤ t :=
  ⟨at_ { ob := { outstanding := [{ src := .port 0 1 5000, tag := 7, msg := askMsg 1 7 0x7010 1 0, at_ := 0, route := 4 }] } }, 500000000000, 7, .port 0 1 5000, { src := .port 0 1 5000, tag := 7, msg := askMsg 1 7 0x7010 1 0, at_ := 0, route := 4 }, by decide⟩

theorem witness_RequestsCrossAndComeBack_kept : ∃ (s : State) (t tag : Nat) (src : Source),
    s.dev.now ≤ t :=
  ⟨at_ { ob := { kept := [{ src := .port 0 1 5000, tag := 7, resp := [], at_ := 0, expired := false }] } }, 2000000000000, 7, .port 0 1 5000, by decide⟩

theorem witness_RequestsCrossAndComeBack_staging : ∃ (s : State) (t obj el inst : Nat) (x : Staging),
    s.dev.staged obj el inst = some x ∧
    x.touched + 10 * sec ≤ t :=
  ⟨at_ { ob := { staging := [{ o := 0x2600, e := 1, i := 0, src := .port 0 1 5000, data := [], touched := 0 }] } }, 10000000000000, 0x2600, 1, 0, { o := 0x2600, e := 1, i := 0, src := .port 0 1 5000, data := [], touched := 0 }, by decide⟩

theorem witness_EditsAreCommittedOrDropped_commit : ∃ (s : State) (t grp inst : Nat) (req : Req) (x : Edit),
    0x1020 ≤ grp ∧
    grp ≤ 0x1034 ∧
    s.dev.Admits req grp 1 inst [1] = true ∧
    s.dev.edit grp inst = some x ∧
    x.owner = req.src ∧
    x.pending = none :=
  ⟨at_ { inMode 2 with ob := { od := [(okey 0x30 1 0, 2)], edits := [(editKey 0x1020 0, { owner := .port 0 1 5000, touched := 0, shadows := [((0x7010, 1, 0), .num 500000)], pending := none })] } }, 1, 0x1020, 0, ⟨.port 0 1 5000, 7⟩, { owner := .port 0 1 5000, touched := 0, shadows := [((0x7010, 1, 0), .num 500000)], pending := none }, by decide⟩

theorem witness_EditsAreCommittedOrDropped_discard : ∃ (s : State) (t grp inst : Nat) (req : Req) (x : Edit),
    0x1020 ≤ grp ∧
    grp ≤ 0x1034 ∧
    s.dev.Admits req grp 1 inst [2] = true ∧
    s.dev.edit grp inst = some x ∧
    x.owner = req.src :=
  ⟨at_ { inMode 2 with ob := { od := [(okey 0x30 1 0, 2)], edits := [(editKey 0x1020 0, { owner := .port 0 1 5000, touched := 0, shadows := [((0x7010, 1, 0), .num 500000)], pending := none })] } }, 1, 0x1020, 0, ⟨.port 0 1 5000, 7⟩, { owner := .port 0 1 5000, touched := 0, shadows := [((0x7010, 1, 0), .num 500000)], pending := none }, by decide⟩

theorem witness_EditsAreCommittedOrDropped_timeout : ∃ (s : State) (t grp inst : Nat) (x : Edit),
    s.dev.md.fieldReset = false ∧
    grp < 65536 ∧
    inst < 65536 ∧
    s.dev.edit grp inst = some x ∧
    x.pending = none ∧
    x.touched + 10 * sec ≤ t :=
  ⟨at_ { ob := { edits := [(editKey 0x1020 0, { owner := .port 0 1 5000, touched := 0, shadows := [], pending := none })] } }, 10000000000000, 0x1020, 0, { owner := .port 0 1 5000, touched := 0, shadows := [], pending := none }, by decide⟩

theorem witness_CanFragmentsAndGateRequests_hostFirst : ∃ (s : State) (t base : Nat) (data : Bytes),
    s.dev.md.hostReset = false ∧
    s.dev.hostServes (.hcan base) = true ∧
    byteAt data 0 = 0 ∧
    s.dev.ob.asmHcan = none :=
  ⟨at_ { inMode 2 with ob := { hostHcanBase := 0x540 } }, 1, 0x540, [0, 1, 2], by decide⟩

theorem witness_CanFragmentsAndGateRequests_fieldFirst : ∃ (s : State) (t base : Nat) (data : Bytes),
    s.dev.md.fieldReset = false ∧
    s.dev.md.fieldFw = true ∧
    base = s.dev.rn 0x1000 3 0 ∧
    base ≠ 0xFFFF ∧
    byteAt data 0 = 0 ∧
    s.dev.ob.asmFcan = none :=
  ⟨at_ (Dev.put (inMode 2) [(0x1000, 3, 0, 0x600)]), 1, 0x600, [0, 1, 2], by decide⟩

theorem witness_CanFragmentsAndGateRequests_gate : ∃ (s : State) (t seg pos x : Nat) (g : GateReq) (rest : List GateReq),
    s.dev.md.fieldReset = false ∧
    Tab.find s.dev.ob.gates (gateKey seg pos) = some (g :: rest) ∧
    g.at_ = some x ∧
    (s.dev.sg seg).up = none ∧
    x + 2 * ms ≤ t :=
  ⟨at_ { ob := { gates := [(gateKey 0 1, [{ req := ⟨.port 0 1 5000, 7⟩, msg := askMsg 1 7 1 1 0, at_ := some 5 }])] } }, 2000000005, 0, 1, 5, { req := ⟨.port 0 1 5000, 7⟩, msg := askMsg 1 7 1 1 0, at_ := some 5 }, [], by decide⟩

theorem witness_TheCycleBoundary_next : ∃ (s : State) (t : Nat) (sd : List SdOut),
    s.dev.md.fieldReset = false ∧
    s.dev.tm.running = true ∧
    s.dev.tm.started = true ∧
    s.dev.tm.nextNs * 1000 ≤ t :=
  ⟨at_ { inMode 2 with tm := { running := true, started := true, nextNs := 250000 } }, 250000000, [], by decide⟩

theorem witness_TheCycleBoundary_first : ∃ (s : State) (t : Nat) (sd : List SdOut),
    s.dev.md.fieldReset = false ∧
    s.dev.tm.running = true ∧
    s.dev.tm.started = false :=
  ⟨at_ { inMode 2 with tm := { running := true } }, 250000000, [], by decide⟩

theorem witness_TheCycleBoundary_stands : ∃ (s : State) (t : Nat) (sd : List SdOut),
    s.dev.tm.running = false :=
  ⟨State.reset, 250000000, [], by decide⟩

theorem witness_TheCycleBoundary_run : ∃ (s : State) (t : Nat) (sd : List SdOut),
    s.dev.md.fieldReset = false ∧
    s.dev.tm.running = true ∧
    s.dev.tm.started = true ∧
    s.dev.tm.nextNs * 1000 ≤ t ∧
    s.dev.mode = 2 ∧
    s.dev.rn 0x30 3 0 = 3 ∧
    s.dev.ob.due = [] ∧
    s.dev.line.units = [] :=
  ⟨at_ { Dev.put (inMode 2) [(0x30, 3, 0, 3)] with tm := { running := true, started := true, nextNs := 250000 } }, 250000000, [], by decide⟩

theorem witness_TheCycleBoundary_hold : ∃ (s : State) (t ev : Nat) (sd : List SdOut),
    s.dev.md.fieldReset = false ∧
    s.dev.tm.running = true ∧
    s.dev.tm.started = true ∧
    s.dev.tm.nextNs * 1000 ≤ t ∧
    (s.dev.mode = 3 ∨ s.dev.mode = 4) ∧
    s.dev.md.cause = some ev ∧
    s.dev.ob.due = [] :=
  ⟨at_ { inMode 3 with md := { fieldFw := true, cause := some 5 }, tm := { running := true, started := true, nextNs := 250000 } }, 250000000, 5, [], by decide⟩

theorem witness_FramesAreLaunched_launch : ∃ (s : State) (t residual : Nat),
    s.dev.md.fieldReset = false ∧
    s.dev.clk.lost.contains 1 = false ∧
    s.dev.tm.started = true ∧
    (s.dev.tm.latchNs + 1000) * 1000 ≤ t :=
  ⟨at_ { Dev.put (inMode 2) [(0x1120, 1, 0, 5)] with tm := { started := true } }, 1000000, 3, by decide⟩

theorem witness_FramesAreLaunched_early : ∃ (s : State) (t residual : Nat),
    (max s.dev.now t < (s.dev.tm.latchNs + 1000) * 1000 ∨ s.dev.tm.started = false) :=
  ⟨State.reset, 1, 3, by decide⟩

theorem witness_DeviceTimeIsSet_set : ∃ (s : State) (t value : Nat) (req : Req),
    s.dev.Admits req 0x7000 3 0 (leBytes value 10) = true ∧
    value < 2 ^ 80 ∧
    s.dev.rn 0x7000 4 0 = 0 :=
  ⟨at_ (inMode 2), 1, timeOf 5000000000, ⟨.port 0 1 5000, 7⟩, by decide⟩

theorem witness_DeviceTimeIsSet_increment : ∃ (s : State) (t value : Nat) (req : Req),
    s.dev.Admits req 0x7000 2 0 (leBytes value 8) = true ∧
    3998 * 2 ^ 32 ≤ value * 1000 ∧
    value * 1000 ≤ 4002 * 2 ^ 32 ∧
    s.dev.rn 0x7000 4 0 = 0 :=
  ⟨at_ (inMode 2), 1, 0x400000001, ⟨.port 0 1 5000, 7⟩, by decide⟩

theorem witness_DeviceTimeIsSet_steering : ∃ (s : State) (t value : Nat) (req : Req),
    s.dev.Admits req 0x7000 4 0 (leBytes value 1) = true ∧
    value ≤ 1 :=
  ⟨at_ (inMode 2), 1, 1, ⟨.port 0 1 5000, 7⟩, by decide⟩

theorem witness_PlantTimeFollowsTheBestMaster_announce : ∃ (s : State) (t port : Nat) (a : Announce),
    s.dev.md.hostReset = false ∧
    s.dev.md.hostFw = true ∧
    s.dev.hrn 0x7020 1 0 = port + 1 ∧
    a.domain = s.dev.hrn 0x7020 2 0 ∧
    s.dev.tm.best = none :=
  ⟨at_ { md := { hostFw := true }, ob := { hod := [(okey 0x7020 1 0, 1), (okey 0x7020 2 0, 0)] } }, 1, 0, ⟨0, 9, 9, 1, 6, 0, 0, 1, 0⟩, by decide⟩

theorem witness_PlantTimeFollowsTheBestMaster_otherDomain : ∃ (s : State) (t port : Nat) (a : Announce),
    s.dev.md.hostReset = false ∧
    s.dev.md.hostFw = true ∧
    s.dev.hrn 0x7020 1 0 = port + 1 ∧
    a.domain ≠ s.dev.hrn 0x7020 2 0 :=
  ⟨at_ { md := { hostFw := true }, ob := { hod := [(okey 0x7020 1 0, 1), (okey 0x7020 2 0, 0)] } }, 1, 0, ⟨4, 9, 9, 1, 6, 0, 0, 1, 0⟩, by decide⟩

theorem witness_PlantTimeFollowsTheBestMaster_sync : ∃ (s : State) (t port : Nat) (m : PtpMsg) (b : Announce),
    s.dev.md.hostReset = false ∧
    s.dev.md.hostFw = true ∧
    s.dev.hrn 0x7020 1 0 = port + 1 ∧
    m.domain = s.dev.hrn 0x7020 2 0 ∧
    m.twoStep = true ∧
    m.unsupported = false ∧
    s.dev.tm.best = some b ∧
    b.sender = m.sender :=
  ⟨at_ { md := { hostFw := true }, ob := { hod := [(okey 0x7020 1 0, 1), (okey 0x7020 2 0, 0), (okey 0x7020 3 0, 2), (okey 0x7020 6 0, 40)] }, tm := { best := some ⟨0, 9, 9, 1, 6, 0, 0, 1, 0⟩, syncOpen := true, syncSeq := 4, syncRx := 5000, delayOpen := true, delaySeq := 4, t2mt1 := 60 } }, 1, 0, ⟨0, 9, 4, true, 3000, 0, 0, false⟩, ⟨0, 9, 9, 1, 6, 0, 0, 1, 0⟩, by decide⟩

theorem witness_PlantTimeFollowsTheBestMaster_followUp : ∃ (s : State) (t port : Nat) (m : PtpMsg) (b : Announce),
    s.dev.md.hostReset = false ∧
    s.dev.md.hostFw = true ∧
    s.dev.hrn 0x7020 1 0 = port + 1 ∧
    m.domain = s.dev.hrn 0x7020 2 0 ∧
    m.unsupported = false ∧
    s.dev.tm.best = some b ∧
    b.sender = m.sender ∧
    s.dev.tm.syncOpen = true ∧
    m.seq = s.dev.tm.syncSeq :=
  ⟨at_ { md := { hostFw := true }, ob := { hod := [(okey 0x7020 1 0, 1), (okey 0x7020 2 0, 0), (okey 0x7020 3 0, 2), (okey 0x7020 6 0, 40)] }, tm := { best := some ⟨0, 9, 9, 1, 6, 0, 0, 1, 0⟩, syncOpen := true, syncSeq := 4, syncRx := 5000, delayOpen := true, delaySeq := 4, t2mt1 := 60 } }, 1, 0, ⟨0, 9, 4, true, 3000, 0, 0, false⟩, ⟨0, 9, 9, 1, 6, 0, 0, 1, 0⟩, by decide⟩

theorem witness_PlantTimeFollowsTheBestMaster_delay : ∃ (s : State) (t port : Nat) (m : PtpMsg) (b : Announce),
    s.dev.md.hostReset = false ∧
    s.dev.md.hostFw = true ∧
    s.dev.hrn 0x7020 1 0 = port + 1 ∧
    m.domain = s.dev.hrn 0x7020 2 0 ∧
    m.unsupported = false ∧
    s.dev.tm.best = some b ∧
    b.sender = m.sender ∧
    s.dev.tm.delayOpen = true ∧
    m.seq = s.dev.tm.delaySeq :=
  ⟨at_ { md := { hostFw := true }, ob := { hod := [(okey 0x7020 1 0, 1), (okey 0x7020 2 0, 0), (okey 0x7020 3 0, 2), (okey 0x7020 6 0, 40)] }, tm := { best := some ⟨0, 9, 9, 1, 6, 0, 0, 1, 0⟩, syncOpen := true, syncSeq := 4, syncRx := 5000, delayOpen := true, delaySeq := 4, t2mt1 := 60 } }, 1, 0, ⟨0, 9, 4, true, 3000, 0, 0, false⟩, ⟨0, 9, 9, 1, 6, 0, 0, 1, 0⟩, by decide⟩

theorem witness_PlantTimeFollowsTheBestMaster_delayReq : ∃ (s : State) (t : Nat),
    s.dev.md.hostReset = false ∧
    s.dev.md.hostFw = true ∧
    s.dev.hrn 0x7020 1 0 ≠ 0 ∧
    (s.dev.hrn 0x7020 3 0 = 2 ∨ s.dev.hrn 0x7020 3 0 = 3) :=
  ⟨at_ { md := { hostFw := true }, ob := { hod := [(okey 0x7020 1 0, 1), (okey 0x7020 2 0, 0), (okey 0x7020 3 0, 2), (okey 0x7020 6 0, 40)] }, tm := { best := some ⟨0, 9, 9, 1, 6, 0, 0, 1, 0⟩, syncOpen := true, syncSeq := 4, syncRx := 5000, delayOpen := true, delaySeq := 4, t2mt1 := 60 } }, 1, by decide⟩

theorem witness_PlantTimeFollowsTheBestMaster_lost : ∃ (s : State) (t : Nat),
    s.dev.md.hostReset = false ∧
    s.dev.md.hostFw = true ∧
    s.dev.tm.best.isSome = true :=
  ⟨at_ { md := { hostFw := true }, ob := { hod := [(okey 0x7020 1 0, 1), (okey 0x7020 2 0, 0), (okey 0x7020 3 0, 2), (okey 0x7020 6 0, 40)] }, tm := { best := some ⟨0, 9, 9, 1, 6, 0, 0, 1, 0⟩, syncOpen := true, syncSeq := 4, syncRx := 5000, delayOpen := true, delaySeq := 4, t2mt1 := 60 } }, 1, by decide⟩

theorem witness_TimeCrossesTheBarrier_send : ∃ (s : State) (t : Nat),
    s.dev.md.hostReset = false ∧
    s.dev.md.hostFw = true ∧
    s.dev.hrn 0x7020 3 0 ≠ 3 :=
  ⟨at_ (inMode 2), 1, by decide⟩

theorem witness_TimeCrossesTheBarrier_free : ∃ (s : State) (t : Nat) (msg : Bytes),
    s.dev.md.fieldReset = false ∧
    s.dev.rn 0x7000 4 0 = 1 ∧
    byteAt msg 1 ≠ 3 :=
  ⟨at_ (Dev.put (inMode 2) [(0x7000, 4, 0, 1)]), 1, [1, 2], by decide⟩

theorem witness_TimeCrossesTheBarrier_grandmaster : ∃ (s : State) (t : Nat) (msg : Bytes),
    s.dev.md.fieldReset = false ∧
    s.dev.rn 0x7000 4 0 = 1 ∧
    byteAt msg 1 = 3 ∧
    leAt msg 14 8 ≠ s.dev.tm.lastGm :=
  ⟨at_ (Dev.put (inMode 2) [(0x7000, 4, 0, 1)]), 1, [1, 3] ++ zeros 12 ++ [9], by decide⟩

theorem witness_TimeCrossesTheBarrier_settle : ∃ (s : State) (t : Nat) (msg : Bytes),
    s.dev.md.fieldReset = false ∧
    s.dev.rn 0x7000 4 0 = 1 ∧
    byteAt msg 1 = 3 ∧
    leAt msg 14 8 = s.dev.tm.lastGm ∧
    0 < s.dev.tm.settle :=
  ⟨at_ { Dev.put (inMode 2) [(0x7000, 4, 0, 1)] with tm := { settle := 3 } }, 1, [1, 3], by decide⟩

theorem witness_TimeCrossesTheBarrier_report : ∃ (s : State) (t : Nat),
    s.dev.md.fieldReset = false ∧
    s.dev.md.fieldFw = true :=
  ⟨at_ (inMode 2), 1, by decide⟩

theorem witness_TimeCrossesTheBarrier_take : ∃ (s : State) (t : Nat) (msg : Bytes),
    s.dev.md.hostReset = false :=
  ⟨State.reset, 1, [0x81], by decide⟩

theorem witness_TimeCrossesTheBarrier_silent : ∃ (s : State) (t : Nat),
    s.dev.md.fieldReset = false ∧
    s.dev.rn 0x7000 4 0 = 1 ∧
    s.dev.tm.lastMsg + 3 * sec ≤ t ∧
    s.dev.md.fieldFw = true :=
  ⟨at_ (Dev.put (inMode 2) [(0x7000, 4, 0, 1)]), 3000000000000, by decide⟩

theorem witness_ReturningFramesAreTaken_sof : ∃ (s : State) (t seg : Nat) (ch : Chan) (port : Port),
    s.dev.md.fieldReset = false ∧
    seg < 4 ∧
    (s.dev.sg seg).launched = true ∧
    s.dev.segState seg ≠ 1 ∧
    ((s.dev.sg seg).chan ch).copy.sof = false ∧
    ((s.dev.sg seg).chan ch).copy.timedOut = false ∧
    s.dev.inUse seg ch = true ∧
    ((s.dev.sg seg).chan ch).latency ≠ 0 ∧
    max s.dev.now t ≤ (s.dev.sg seg).launchAt + ((s.dev.sg seg).chan ch).latency + 50000 :=
  ⟨seg0 5 { launched := true, a := { latency := 3000000 } }, 1, 0, .a, .ds, by decide⟩

theorem witness_ReturningFramesAreTaken_badBlock : ∃ (s : State) (t seg : Nat) (ch : Chan) (port : Port) (block : Bytes) (corrupted : Bool),
    s.dev.md.fieldReset = false ∧
    seg < 4 ∧
    s.dev.segState seg ≠ 7 ∧
    (s.dev.sg seg).launched = true ∧
    ((s.dev.sg seg).chan ch).copy.sof = true ∧
    ((s.dev.sg seg).chan ch).copy.done = false ∧
    ((s.dev.sg seg).chan ch).copy.idx < (s.dev.sg seg).blocks ∧
    s.dev.inUse seg ch = true ∧
    blockGood block ((s.dev.sg seg).chan ch).copy.idx (s.dev.sg seg).blocks corrupted = false ∧
    (s.dev.sg seg).asg = [] :=
  ⟨seg0 5 { launched := true, blocks := 3, a := { copy := { sof := true } } }, 1, 0, .a, .ds, [], true, by decide⟩

set_option maxRecDepth 20000 in
theorem witness_ReturningFramesAreTaken_goodBlock : ∃ (s : State) (t seg : Nat) (ch : Chan) (port : Port) (block : Bytes) (corrupted : Bool),
    s.dev.md.fieldReset = false ∧
    seg < 4 ∧
    s.dev.segState seg ≠ 7 ∧
    (s.dev.sg seg).launched = true ∧
    ((s.dev.sg seg).chan ch).copy.sof = true ∧
    ((s.dev.sg seg).chan ch).copy.done = false ∧
    ((s.dev.sg seg).chan ch).copy.idx < (s.dev.sg seg).blocks ∧
    s.dev.inUse seg ch = true ∧
    blockGood block ((s.dev.sg seg).chan ch).copy.idx (s.dev.sg seg).blocks corrupted = true ∧
    (s.dev.sg seg).judged = true :=
  ⟨seg0 5 { launched := true, blocks := 3, a := { copy := { sof := true } } }, 1, 0, .a, .ds, zeros 262 ++ leBytes (crc16 (zeros 262)) 2, false, by decide +kernel⟩

theorem witness_ReturningFramesAreTaken_eof : ∃ (s : State) (t seg crc blocks : Nat) (ch : Chan),
    s.dev.md.fieldReset = false ∧
    seg < 4 ∧
    (s.dev.sg seg).launched = true ∧
    (s.dev.sg seg).judged = true ∧
    ((s.dev.sg seg).chan ch).copy.sof = true ∧
    ((s.dev.sg seg).chan ch).copy.done = false ∧
    ((s.dev.sg seg).chan ch).copy.bad = [] ∧
    ((s.dev.sg seg).chan ch).copy.idx = (s.dev.sg seg).blocks ∧
    Nat.xor ((s.dev.sg seg).chan ch).copy.crc 0xFFFFFFFF ≠ crc :=
  ⟨seg0 5 { launched := true, blocks := 0, a := { copy := { sof := true } } }, 1, 0, 7, 0, .a, by decide⟩

theorem witness_ReturningFramesAreTaken_eofGood : ∃ (s : State) (t seg crc blocks : Nat) (ch : Chan),
    s.dev.md.fieldReset = false ∧
    seg < 4 ∧
    (s.dev.sg seg).launched = true ∧
    (s.dev.sg seg).judged = true ∧
    ((s.dev.sg seg).chan ch).copy.sof = true ∧
    ((s.dev.sg seg).chan ch).copy.done = false ∧
    Nat.xor ((s.dev.sg seg).chan ch).copy.crc 0xFFFFFFFF = crc :=
  ⟨seg0 5 { launched := true, blocks := 0, a := { copy := { sof := true } } }, 1, 0, 0, 0, .a, by decide⟩

theorem witness_ReturningFramesAreTaken_absent : ∃ (s : State) (t seg : Nat) (ch : Chan),
    s.dev.md.fieldReset = false ∧
    seg < 4 ∧
    (s.dev.sg seg).launched = true ∧
    (s.dev.sg seg).judged = true ∧
    ((s.dev.sg seg).chan ch).copy.sof = false ∧
    (s.dev.sg seg).launchAt + ((s.dev.sg seg).chan ch).latency + us ≤ t :=
  ⟨seg0 5 { launched := true }, 1000000, 0, .a, by decide⟩

theorem witness_ReturningFramesAreTaken_window : ∃ (s : State) (t seg pos : Nat),
    s.dev.md.fieldReset = false ∧
    seg < 4 ∧
    (s.dev.sg seg).launched = true ∧
    ((s.dev.sg seg).gate pos).waiting = true ∧
    ((s.dev.sg seg).gate pos).decided = false ∧
    (s.dev.sg seg).launchAt + max ((s.dev.sg seg).chan .a).latency ((s.dev.sg seg).chan .b).latency + s.dev.ser (1 + 33 * ((Tab.get (s.dev.sg seg).asg pos ⟨0, 0, 0, 0, 0, 0⟩).inOff / 256 + 1)) + 200000 ≤ t :=
  ⟨seg0 5 { launched := true, gates := [(1, { waiting := true })] }, 9000000, 0, 1, by decide⟩

theorem witness_SegmentsStartAndClaim_start : ∃ (s : State) (t seg : Nat),
    s.dev.md.fieldReset = false ∧
    seg < 4 ∧
    s.dev.clk.lost.contains 1 = false ∧
    (s.dev.sg seg).startDue = true ∧
    s.dev.rb (0x1100 + seg) 1 0 = true :=
  ⟨seg0 0 { startDue := true }, 1, 0, by decide⟩

theorem witness_SegmentsStartAndClaim_locked : ∃ (s : State) (t seg : Nat) (ch : Chan),
    s.dev.md.fieldReset = false ∧
    seg < 4 ∧
    s.dev.segState seg = 1 ∧
    (s.dev.sg seg).round = 0 ∧
    (s.dev.sg seg).startDue = false ∧
    s.dev.inUse seg ch = true ∧
    (s.dev.inUse seg (chOther ch) = true → ((s.dev.sg seg).chan (chOther ch)).locked = true) :=
  ⟨seg0 1 { b := { locked := true } }, 1, 0, .a, by decide⟩

theorem witness_SegmentsStartAndClaim_lockOne : ∃ (s : State) (t seg : Nat) (ch : Chan),
    s.dev.md.fieldReset = false ∧
    seg < 4 ∧
    s.dev.segState seg = 1 ∧
    (s.dev.sg seg).round = 0 ∧
    (s.dev.sg seg).startDue = false ∧
    (s.dev.sg seg).startAt + 100 * ms ≤ t ∧
    s.dev.inUse seg ch = true ∧
    ((s.dev.sg seg).chan ch).locked = true :=
  ⟨seg0 1 { a := { locked := true } }, 100000000000, 0, .a, by decide⟩

theorem witness_SegmentsStartAndClaim_lockNone : ∃ (s : State) (t seg : Nat),
    s.dev.md.fieldReset = false ∧
    seg < 4 ∧
    s.dev.segState seg = 1 ∧
    (s.dev.sg seg).round = 0 ∧
    (s.dev.sg seg).startDue = false ∧
    (s.dev.sg seg).startAt + 100 * ms ≤ t ∧
    (s.dev.sg seg).a.locked = false ∧
    (s.dev.sg seg).b.locked = false ∧
    s.dev.gateCount seg = 0 :=
  ⟨at_ { Dev.put (inMode 2) [(0x1120, 1, 0, 1)] with now := 5 }, 100000000000, 0, by decide⟩

theorem witness_SegmentsStartAndClaim_round : ∃ (s : State) (t seg : Nat),
    s.dev.md.fieldReset = false ∧
    seg < 4 ∧
    s.dev.segState seg = 1 ∧
    ((s.dev.sg seg).round = 1 ∨ (s.dev.sg seg).round = 2) ∧
    (s.dev.sg seg).roundAt + ms ≤ t :=
  ⟨seg0 1 { round := 1 }, 1000000000, 0, by decide⟩

theorem witness_SegmentsStartAndClaim_own : ∃ (s : State) (t seg round : Nat) (ch : Chan) (port : Port),
    s.dev.md.fieldReset = false ∧
    seg < 4 ∧
    1 ≤ s.dev.segState seg ∧
    s.dev.segState seg ≤ 5 :=
  ⟨seg0 1 {}, 1, 0, 1, .a, .rt, by decide⟩

theorem witness_SegmentsStartAndClaim_higher : ∃ (s : State) (t seg ident round : Nat) (ch : Chan) (port : Port),
    s.dev.md.fieldReset = false ∧
    seg < 4 ∧
    1 ≤ s.dev.segState seg ∧
    s.dev.segState seg ≤ 5 ∧
    headId < ident :=
  ⟨seg0 1 {}, 1, 0, headId + 1, 1, .a, .rt, by refine ⟨rfl, by decide, by decide, by decide, Nat.lt_succ_self _⟩⟩

theorem witness_SegmentsStartAndClaim_concede : ∃ (s : State) (t seg ident : Nat) (ch : Chan) (port : Port),
    s.dev.md.fieldReset = false ∧
    seg < 4 ∧
    s.dev.segState seg = 1 ∧
    ident ≠ headId :=
  ⟨seg0 1 { round := 2 }, 1, 0, headId + 1, .a, .ds, by refine ⟨rfl, by decide, by decide, Nat.succ_ne_self _⟩⟩

theorem witness_SegmentsStartAndClaim_won : ∃ (s : State) (t seg : Nat) (ch : Chan),
    s.dev.md.fieldReset = false ∧
    seg < 4 ∧
    s.dev.segState seg = 1 ∧
    (s.dev.sg seg).round = 3 ∧
    (s.dev.sg seg).roundAt + ms ≤ t ∧
    (s.dev.upChans seg).head? = some ch :=
  ⟨seg0 1 { round := 3 }, 1000000000, 0, .a, by decide⟩

theorem witness_GatesAreNumberedAndMeasured_number : ∃ (s : State) (t seg value : Nat) (ch : Chan) (port : Port),
    s.dev.md.fieldReset = false ∧
    seg < 4 ∧
    s.dev.segState seg = 2 ∧
    (s.dev.sg seg).numStage = 1 ∧
    (s.dev.sg seg).numCh = ch ∧
    2 ≤ value ∧
    value ≤ 4096 :=
  ⟨seg0 2 { numStage := 1 }, 1, 0, 3, .a, .rt, by decide⟩

theorem witness_GatesAreNumberedAndMeasured_noGate : ∃ (s : State) (t seg : Nat) (ch : Chan) (port : Port),
    s.dev.md.fieldReset = false ∧
    seg < 4 ∧
    s.dev.segState seg = 2 ∧
    (s.dev.sg seg).numStage = 1 ∧
    (s.dev.sg seg).numCh = ch :=
  ⟨seg0 2 { numStage := 1 }, 1, 0, .a, .rt, by decide⟩

theorem witness_GatesAreNumberedAndMeasured_verify : ∃ (s : State) (t seg value : Nat) (ch : Chan) (port : Port),
    s.dev.md.fieldReset = false ∧
    seg < 4 ∧
    s.dev.segState seg = 2 ∧
    (s.dev.sg seg).numStage = 2 ∧
    (s.dev.sg seg).numCh = ch ∧
    (s.dev.sg seg).numValue = value ∧
    (s.dev.upChans seg).contains (chOther ch) = true :=
  ⟨seg0 2 { numStage := 2, numValue := 3 }, 1, 0, 3, .a, .rt, by decide⟩

theorem witness_GatesAreNumberedAndMeasured_again : ∃ (s : State) (t seg : Nat),
    s.dev.md.fieldReset = false ∧
    seg < 4 ∧
    s.dev.segState seg = 2 ∧
    ((s.dev.sg seg).numStage = 1 ∨ (s.dev.sg seg).numStage = 2) ∧
    (s.dev.sg seg).numTry = 0 ∧
    (s.dev.sg seg).linkAt + ms ≤ t :=
  ⟨seg0 2 { numStage := 2 }, 1000000000, 0, by decide⟩

theorem witness_GatesAreNumberedAndMeasured_delay : ∃ (s : State) (t seg pos trt turnaround : Nat) (ch : Chan) (x : DelayRun),
    s.dev.md.fieldReset = false ∧
    seg < 4 ∧
    ((s.dev.sg seg).chan ch).run = some x ∧
    x.pos = pos ∧
    x.drift = false ∧
    pos ≤ s.dev.gateCount seg ∧
    x.n < 15 :=
  ⟨seg0 2 { a := { run := some { pos := 1, last := 3 } } }, 1, 0, 1, 5000, 1000, .a, { pos := 1, last := 3 }, by decide⟩

theorem witness_GatesAreNumberedAndMeasured_sixteenth : ∃ (s : State) (t seg pos trt turnaround : Nat) (ch : Chan) (x : DelayRun),
    s.dev.md.fieldReset = false ∧
    seg < 4 ∧
    ((s.dev.sg seg).chan ch).run = some x ∧
    x.pos = pos ∧
    x.drift = false ∧
    pos ≤ s.dev.gateCount seg ∧
    pos < 65536 ∧
    pos < x.last ∧
    x.n = 15 :=
  ⟨seg0 2 { a := { run := some { pos := 1, last := 3, n := 15 } } }, 1, 0, 1, 5000, 1000, .a, { pos := 1, last := 3, n := 15 }, by decide⟩

theorem witness_GatesAreNumberedAndMeasured_silent : ∃ (s : State) (t seg : Nat) (ch : Chan) (x : DelayRun),
    s.dev.md.fieldReset = false ∧
    seg < 4 ∧
    ((s.dev.sg seg).chan ch).run = some x ∧
    x.silent = false :=
  ⟨seg0 2 { a := { run := some { pos := 1, last := 3 } } }, 1, 0, .a, { pos := 1, last := 3 }, by decide⟩

theorem witness_SegmentsFailAndRestart_notCyclic : ∃ (s : State) (t seg : Nat),
    s.dev.md.fieldReset = false ∧
    seg < 4 ∧
    s.dev.segState seg = 4 ∧
    (s.dev.sg seg).tagged = true ∧
    64 ≤ (s.dev.sg seg).frames :=
  ⟨seg0 4 { tagged := true, frames := 64 }, 1, 0, by decide⟩

theorem witness_SegmentsFailAndRestart_restart : ∃ (s : State) (t seg : Nat) (req : Req),
    seg < 4 ∧
    s.dev.Admits req (0x1120 + seg) 5 0 [1] = true ∧
    (s.dev.segState seg = 5 ∨ s.dev.segState seg = 6) ∧
    s.dev.mode = 2 :=
  ⟨seg0 6 {}, 1, 0, ⟨.port 0 1 5000, 7⟩, by decide⟩

theorem witness_SegmentsFailAndRestart_auto : ∃ (s : State) (t seg : Nat),
    s.dev.md.fieldReset = false ∧
    seg < 4 ∧
    s.dev.segState seg = 6 ∧
    bit (s.dev.rn (0x1120 + seg) 6 0) 8 = true ∧
    (s.dev.sg seg).autoAt ≤ t ∧
    2 ≤ s.dev.mode :=
  ⟨at_ (Dev.put (inMode 2) [(0x1120, 1, 0, 6), (0x1120, 6, 0, 0x101)]), 1, 0, by decide⟩

theorem witness_SegmentsFailAndRestart_broken : ∃ (s : State) (t seg pos lockBits corrupted : Nat) (ch : Chan) (looped : Bool),
    s.dev.md.fieldReset = false ∧
    seg < 4 ∧
    ((s.dev.sg seg).chan ch).query = some pos ∧
    bit lockBits 1 = false :=
  ⟨seg0 5 { a := { query := some 1 } }, 1, 0, 1, 1, 0, .a, false, by decide⟩

theorem witness_SegmentsFailAndRestart_onward : ∃ (s : State) (t seg pos lockBits corrupted : Nat) (ch : Chan) (looped : Bool),
    s.dev.md.fieldReset = false ∧
    seg < 4 ∧
    ((s.dev.sg seg).chan ch).query = some pos ∧
    bit lockBits 1 = true ∧
    pos < s.dev.gateCount seg :=
  ⟨seg0 5 { a := { query := some 1 } }, 1, 0, 1, 2, 0, .a, false, by decide⟩

theorem witness_SegmentsFailAndRestart_unanswered : ∃ (s : State) (t seg x : Nat) (ch : Chan),
    s.dev.md.fieldReset = false ∧
    seg < 4 ∧
    ((s.dev.sg seg).chan ch).query = some x :=
  ⟨seg0 5 { a := { query := some 1 } }, 1, 0, 1, .a, by decide⟩

theorem witness_LawsRunStageByStage_stage : ∃ (s : State) (t a : Nat) (b : Blade) (x : LawRun),
    s.dev.md.fieldReset = false ∧
    (s.dev.axLaw b a).run = some x ∧
    s.dev.evaluates b = true ∧
    (s.dev.bl b).jobs = [] ∧
    x.stage < s.dev.stageCount a :=
  ⟨lawAt 1, 1, 0, .a, runAt 1, by decide⟩

theorem witness_LawsRunStageByStage_once : ∃ (s : State) (t a : Nat) (b : Blade) (x : LawRun),
    s.dev.md.fieldReset = false ∧
    (s.dev.axLaw b a).run = some x ∧
    s.dev.evaluates b = true ∧
    (s.dev.bl b).jobs = [] ∧
    x.stage < s.dev.stageCount a :=
  ⟨lawAt 1, 1, 0, .a, runAt 1, by decide⟩

theorem witness_LawsRunStageByStage_twice : ∃ (s : State) (t a : Nat) (b : Blade) (x : LawRun),
    s.dev.md.fieldReset = false ∧
    (s.dev.axLaw b a).run = some x ∧
    s.dev.evaluates b = true ∧
    (s.dev.bl b).jobs = [] ∧
    x.stage < s.dev.stageCount a :=
  ⟨lawAt 1, 1, 0, .a, runAt 1, by decide⟩

theorem witness_LawsRunStageByStage_complete : ∃ (s : State) (t a : Nat) (b : Blade) (x : LawRun) (bad : Bool),
    s.dev.md.fieldReset = false ∧
    (s.dev.axLaw b a).run = some x ∧
    s.dev.evaluates b = true ∧
    (s.dev.bl b).jobs = [] ∧
    x.stage = s.dev.stageCount a :=
  ⟨lawAt 2, 1, 0, .a, runAt 2, false, by decide⟩

theorem witness_LawsRunStageByStage_handed : ∃ (s : State) (t a : Nat) (b : Blade) (x : LawRun),
    s.dev.md.fieldReset = false ∧
    (s.dev.axLaw b a).run = some x ∧
    s.dev.evaluates b = true ∧
    (s.dev.bl b).jobs = [] ∧
    x.stage = s.dev.stageCount a ∧
    s.dev.active = some b ∧
    s.dev.eng.cutFor = some x.job.cycle :=
  ⟨lawAt 2, 1, 0, .a, runAt 2, by decide⟩

theorem witness_LawsRunStageByStage_checkFails : ∃ (s : State) (t a : Nat) (b : Blade) (x : LawRun),
    s.dev.md.fieldReset = false ∧
    (s.dev.axLaw b a).run = some x ∧
    s.dev.evaluates b = true ∧
    (s.dev.bl b).jobs = [] ∧
    x.stage = s.dev.stageCount a ∧
    s.dev.active = some b ∧
    s.dev.eng.cutFor = some x.job.cycle :=
  ⟨lawAt 2, 1, 0, .a, runAt 2, by decide⟩

theorem witness_OutputsAreCheckedAndFramesClose_good : ∃ (s : State) (t a k : Nat) (b : Blade),
    s.dev.md.fieldReset = false ∧
    s.dev.eng.recopy.contains (b, .axis a) = true ∧
    (s.dev.axLaw b a).done = some k ∧
    s.dev.eng.cutFor = some k ∧
    s.dev.writes b = true :=
  ⟨at_ { bladeUp 2 with eng := { cutFor := some 3, recopy := [(.a, .axis 0)], a := { laws := [(0, { done := some 3, out := [7, 7] })] } } }, 1, 0, 3, .a, by decide⟩

theorem witness_OutputsAreCheckedAndFramesClose_bad : ∃ (s : State) (t a : Nat) (b : Blade),
    s.dev.md.fieldReset = false ∧
    s.dev.eng.recopy.contains (b, .axis a) = true :=
  ⟨at_ { bladeUp 2 with eng := { cutFor := some 3, recopy := [(.a, .axis 0)], a := { laws := [(0, { done := some 3, out := [7, 7] })] } } }, 1, 0, .a, by decide⟩

theorem witness_OutputsAreCheckedAndFramesClose_cutoff : ∃ (s : State) (t k : Nat),
    s.dev.md.fieldReset = false ∧
    s.dev.eng.cutFor = some k ∧
    s.dev.tm.cycle = k + 1 ∧
    (s.dev.tm.latchNs + 500) * 1000 ≤ t :=
  ⟨at_ { bladeUp 2 with eng := { cutFor := some 3 }, tm := { cycle := 4, latchNs := 9000 } }, 9500000, 3, by decide⟩

theorem witness_OutputsAreCheckedAndFramesClose_early : ∃ (s : State) (t k : Nat),
    s.dev.eng.cutFor = some k ∧
    max s.dev.now t < (s.dev.tm.latchNs + 500) * 1000 :=
  ⟨at_ { bladeUp 2 with eng := { cutFor := some 3 }, tm := { cycle := 4, latchNs := 9000 } }, 9499999, 3, by decide⟩

theorem witness_RequestsJudgedAtStepEleven_faultAck : ∃ (s : State) (t axis : Nat) (req : Req),
    s.dev.Admits req 0x2160 5 axis [1] = true ∧
    s.dev.axState axis = 3 ∧
    s.dev.rb 0x2000 1 axis = true ∧
    s.dev.torqueOff axis = true ∧
    s.dev.faultPersists axis = false :=
  ⟨at_ (Dev.put (inMode 2) [(0x2160, 3, 1, 3), (0x2160, 4, 1, 1), (0x2000, 1, 1, 1), (0x4040, 1, 1, 3)]), 1, 1, ⟨.port 0 1 5000, 7⟩, by decide⟩

theorem witness_RequestsJudgedAtStepEleven_force : ∃ (s : State) (t axis value : Nat) (req : Req),
    s.dev.Admits req 0x2170 2 axis (leBytes value 1) = true ∧
    (value = 255 ∨ value < s.dev.regions axis) ∧
    value < 256 :=
  ⟨at_ (inMode 2), 1, 1, 255, ⟨.port 0 1 5000, 7⟩, by decide⟩

theorem witness_RequestsJudgedAtStepEleven_swap : ∃ (s : State) (t : Nat) (req : Req),
    s.dev.Admits req 0x9020 3 0 [1] = true ∧
    s.dev.mode = 2 ∧
    s.dev.redundancy = 0 ∧
    s.dev.eng.takeover = none ∧
    s.dev.eng.revoking = none ∧
    s.dev.eng.swapDue = false :=
  ⟨at_ (Dev.put (bladeUp 2) [(0x9031, 1, 0, 3)]), 1, ⟨.port 0 1 5000, 7⟩, by decide⟩

theorem witness_GovernorStepsTheCoreVoltage_raise : ∃ (s : State) (t : Nat) (p : Int × Int),
    s.dev.md.fieldReset = false ∧
    s.dev.govOn = true ∧
    s.dev.gov.evalAt ≤ t ∧
    s.dev.gov.smin = some p ∧
    p.1 * 100 < (s.dev.gv 4 : Int) * p.2 ∧
    s.dev.gov.trans = 0 ∧
    max (s.dev.gv 7) (min (s.dev.gv 8) (s.dev.gv 12 + s.dev.gv 6)) ≠ s.dev.gv 12 :=
  ⟨at_ { govAt 0 with gov := { linked := true, exp := -12, smin := some (10, 100) } }, 1, (10, 100), by decide⟩

theorem witness_GovernorStepsTheCoreVoltage_settle : ∃ (s : State) (t x : Nat) (again : Bool) (rest : List (Nat × Bool)),
    s.dev.md.fieldReset = false ∧
    s.dev.gov.settles = (x, again) :: rest ∧
    s.dev.gov.trans = 0 ∧
    x ≤ t :=
  ⟨at_ { govAt 0 with gov := { linked := true, settles := [(5, false)] } }, 5, 5, false, [], by decide⟩

theorem witness_GovernorStepsTheCoreVoltage_voltage : ∃ (s : State) (t data : Nat),
    s.dev.md.fieldReset = false ∧
    s.dev.gov.trans = 4 ∧
    s.dev.gov.restart = false ∧
    s.dev.gov.again = false ∧
    s.dev.gov.want = false ∧
    s.dev.gov.readAgain = false ∧
    s.dev.gv 12 ≤ voutMv data s.dev.gov.exp + 20 ∧
    voutMv data s.dev.gov.exp ≤ s.dev.gv 12 + 20 :=
  ⟨at_ (govAt 4), 1, 3277, by decide⟩

theorem witness_GovernorStepsTheCoreVoltage_mode : ∃ (s : State) (t data : Nat),
    s.dev.md.fieldReset = false ∧
    s.dev.gov.trans = 2 ∧
    s.dev.gov.restart = false ∧
    s.dev.gov.again = false ∧
    bits data 7 5 = 0 :=
  ⟨at_ (govAt 2), 1, 20, by decide⟩

theorem witness_GovernorStepsTheCoreVoltage_repeated : ∃ (s : State) (t data : Nat) (ack pec : Bool),
    s.dev.md.fieldReset = false ∧
    s.dev.gov.trans = 4 ∧
    s.dev.gov.restart = false ∧
    s.dev.gov.again = false ∧
    (ack && pec) = false :=
  ⟨at_ (govAt 4), 1, 0, true, false, by decide⟩

theorem witness_GovernorStepsTheCoreVoltage_failed : ∃ (s : State) (t data : Nat) (ack pec : Bool),
    s.dev.md.fieldReset = false ∧
    s.dev.gov.trans ≠ 0 ∧
    s.dev.gov.restart = false ∧
    s.dev.gov.again = true ∧
    (ack && pec) = false :=
  ⟨at_ { govAt 4 with gov := { trans := 4, again := true } }, 1, 0, false, true, by decide⟩

theorem witness_JudgeFailsOverToTheStandby_heartbeat : ∃ (s : State) (t : Nat) (b : Blade),
    s.dev.md.fieldReset = false ∧
    s.dev.rn 0x9020 2 0 = 1 ∧
    s.dev.active = some b ∧
    s.dev.blState b = 4 ∧
    s.dev.blState (bladeOther b) = 3 :=
  ⟨at_ (Dev.put (bladeUp 2) [(0x9031, 1, 0, 3)]), 1, .a, by decide⟩

theorem witness_JudgeFailsOverToTheStandby_report : ∃ (s : State) (t cause : Nat) (b : Blade),
    s.dev.md.fieldReset = false ∧
    (s.dev.bl b).reports.contains cause = true ∧
    s.dev.active ≠ some b ∧
    s.dev.blState b = 3 ∧
    s.dev.rn (0x9030 + bladeNum b) 3 0 < s.dev.rn 0x9020 9 0 ∧
    s.dev.rn 0x9020 9 0 < 4294967295 :=
  ⟨at_ { Dev.put (bladeUp 2) [(0x9031, 1, 0, 3), (0x9020, 9, 0, 3)] with eng := { b := { reports := [2] } } }, 1, 2, .b, by decide⟩

theorem witness_JudgeFailsOverToTheStandby_acknowledged : ∃ (s : State) (t x : Nat) (b : Blade),
    s.dev.md.fieldReset = false ∧
    s.dev.eng.revoking = some (b, x) ∧
    x ≤ t ∧
    s.dev.rn (0x9030 + bladeNum b) 3 0 ≤ s.dev.rn 0x9020 9 0 :=
  ⟨at_ { Dev.put (bladeUp 2) [(0x9031, 1, 0, 3)] with eng := { revoking := some (.b, 5) } }, 5, 5, .b, by decide⟩

theorem witness_JudgeFailsOverToTheStandby_unacknowledged : ∃ (s : State) (t x : Nat) (b : Blade),
    s.dev.md.fieldReset = false ∧
    s.dev.eng.revoking = some (b, x) ∧
    x + 2 * us ≤ t ∧
    s.dev.rn (0x9030 + bladeNum b) 3 0 ≤ s.dev.rn 0x9020 9 0 :=
  ⟨at_ { Dev.put (bladeUp 2) [(0x9031, 1, 0, 3)] with eng := { revoking := some (.b, 5) } }, 2000005, 5, .b, by decide⟩

theorem witness_JudgeFailsOverToTheStandby_takeover : ∃ (s : State) (t c x y : Nat) (b : Blade),
    s.dev.md.fieldReset = false ∧
    s.dev.eng.takeover = some (c, x, y) ∧
    s.dev.active = some b :=
  ⟨at_ { bladeUp 2 with eng := { takeover := some (1, 0, 1000) } }, 5000, 1, 0, 1000, .a, by decide⟩

theorem witness_JudgeFailsOverToTheStandby_passed : ∃ (s : State) (t : Nat) (b : Blade),
    s.dev.md.fieldReset = false ∧
    (s.dev.bl b).testing = true :=
  ⟨at_ { bladeUp 2 with eng := { b := { testing := true } } }, 1, .b, by decide⟩

theorem witness_JudgeFailsOverToTheStandby_notPassed : ∃ (s : State) (t units : Nat) (b : Blade),
    s.dev.md.fieldReset = false ∧
    (s.dev.bl b).testing = true ∧
    units ≠ 0 :=
  ⟨at_ { bladeUp 2 with eng := { b := { testing := true } } }, 1, 4, .b, by decide⟩

theorem witness_JudgeFailsOverToTheStandby_judge : ∃ (s : State) (t : Nat),
    s.dev.md.fieldReset = false ∧
    s.dev.rn 0x9020 2 0 ≠ 2 :=
  ⟨at_ (bladeUp 2), 1, by decide⟩

theorem witness_LineLawsAndTheirTimers_law : ∃ (s : State) (t unit : Nat) (b : Blade) (j : LineJob) (rest : List LineJob) (bad : Bool),
    s.dev.md.fieldReset = false ∧
    (s.dev.units.any fun u => (s.dev.advance t).lineReady u s.dev.tm.cycle) = false ∧
    (s.dev.lineLaw b unit).jobs = j :: rest ∧
    s.dev.evaluates b = true ∧
    Tab.find (s.dev.bl b).lanes (28 + unit % 4) = some (.unit unit) :=
  ⟨at_ { Dev.put (bladeUp 2) [(0x3040, 1, 1, 1)] with eng := { cutFor := some 3, a := { lanes := [(29, .unit 1)], lines := [(1, { jobs := [{ cycle := 3, at_ := 0, ia := ⟨0, 0⟩, ib := ⟨0, 0⟩, ic := ⟨0, 0⟩, vdc := ⟨0, 0⟩, st := 1, brk := false, valid := false, v := ⟨0, 0⟩, theta := 0, f := ⟨0, 0⟩, closing := false }] })] } } }, 1, 1, .a, { cycle := 3, at_ := 0, ia := ⟨0, 0⟩, ib := ⟨0, 0⟩, ic := ⟨0, 0⟩, vdc := ⟨0, 0⟩, st := 1, brk := false, valid := false, v := ⟨0, 0⟩, theta := 0, f := ⟨0, 0⟩, closing := false }, [], false, by decide⟩

theorem witness_LineLawsAndTheirTimers_handed : ∃ (s : State) (t unit : Nat) (b : Blade) (j : LineJob) (rest : List LineJob),
    s.dev.md.fieldReset = false ∧
    (s.dev.units.any fun u => (s.dev.advance t).lineReady u s.dev.tm.cycle) = false ∧
    (s.dev.lineLaw b unit).jobs = j :: rest ∧
    s.dev.evaluates b = true ∧
    Tab.find (s.dev.bl b).lanes (28 + unit % 4) = some (.unit unit) ∧
    s.dev.active = some b ∧
    s.dev.eng.cutFor = some j.cycle :=
  ⟨at_ { Dev.put (bladeUp 2) [(0x3040, 1, 1, 1)] with eng := { cutFor := some 3, a := { lanes := [(29, .unit 1)], lines := [(1, { jobs := [{ cycle := 3, at_ := 0, ia := ⟨0, 0⟩, ib := ⟨0, 0⟩, ic := ⟨0, 0⟩, vdc := ⟨0, 0⟩, st := 1, brk := false, valid := false, v := ⟨0, 0⟩, theta := 0, f := ⟨0, 0⟩, closing := false }] })] } } }, 1, 1, .a, { cycle := 3, at_ := 0, ia := ⟨0, 0⟩, ib := ⟨0, 0⟩, ic := ⟨0, 0⟩, vdc := ⟨0, 0⟩, st := 1, brk := false, valid := false, v := ⟨0, 0⟩, theta := 0, f := ⟨0, 0⟩, closing := false }, [], by decide⟩

theorem witness_LineLawsAndTheirTimers_deadBus : ∃ (s : State) (t unit x : Nat),
    s.dev.md.fieldReset = false ∧
    (s.dev.lu unit).deadAt = some x ∧
    s.dev.luState unit = 2 ∧
    x + 100 * ms ≤ t :=
  ⟨at_ { Dev.put (inMode 3) [(0x3040, 1, 2, 2)] with line := { units := [(2, { deadAt := some 5 })] } }, 100000000005, 2, 5, by decide⟩

theorem witness_LineLawsAndTheirTimers_close : ∃ (s : State) (t unit x : Nat),
    s.dev.md.fieldReset = false ∧
    (s.dev.lu unit).syncAt = some x ∧
    s.dev.luState unit = 4 ∧
    (s.dev.lu unit).closing = false ∧
    x + 100 * ms ≤ t :=
  ⟨at_ { Dev.put (inMode 3) [(0x3040, 1, 2, 4)] with line := { units := [(2, { syncAt := some 5 })] } }, 100000000005, 2, 5, by decide⟩

theorem witness_LineLawsAndTheirTimers_breaker : ∃ (s : State) (t unit x : Nat),
    s.dev.md.fieldReset = false ∧
    (s.dev.lu unit).closeAt = some x ∧
    (s.dev.luState unit = 3 ∨ s.dev.luState unit = 4) ∧
    s.dev.rb 0x3040 10 unit = false ∧
    x + s.dev.rn 0x3020 8 unit * ms ≤ t :=
  ⟨at_ { Dev.put (inMode 3) [(0x3040, 1, 2, 3)] with line := { units := [(2, { closeAt := some 5 })] } }, 9000000000005, 2, 5, by decide⟩

theorem witness_LineLawsAndTheirTimers_recover : ∃ (s : State) (t unit x : Nat),
    s.dev.md.fieldReset = false ∧
    (s.dev.lu unit).recAt = some x ∧
    s.dev.luState unit = 6 ∧
    x + s.dev.rn 0x3020 15 unit * ms ≤ t :=
  ⟨at_ { Dev.put (inMode 3) [(0x3040, 1, 2, 6)] with line := { units := [(2, { recAt := some 5 })] } }, 99000000000005, 2, 5, by decide⟩

theorem witness_LineLawsAndTheirTimers_maxRide : ∃ (s : State) (t unit : Nat),
    s.dev.md.fieldReset = false ∧
    s.dev.luState unit = 6 ∧
    (s.dev.lu unit).rideAt + s.dev.rn 0x3020 16 unit * ms ≤ t :=
  ⟨at_ { Dev.put (inMode 3) [(0x3040, 1, 2, 6)] with line := { units := [(2, { rideAt := 5 })] } }, 99000000000005, 2, by decide⟩

theorem witness_LineAndGlideCommands_start : ∃ (s : State) (t unit : Nat) (req : Req),
    s.dev.Admits req 0x3030 5 unit [1] = true ∧
    s.dev.mode = 3 ∧
    s.dev.luState unit = 1 :=
  ⟨at_ (Dev.put (inMode 3) [(0x3040, 1, 2, 1)]), 1, 2, ⟨.port 0 1 5000, 7⟩, by decide⟩

theorem witness_LineAndGlideCommands_stop : ∃ (s : State) (t unit : Nat) (req : Req),
    s.dev.Admits req 0x3030 5 unit [2] = true ∧
    2 ≤ s.dev.luState unit ∧
    s.dev.luState unit ≤ 6 :=
  ⟨at_ (Dev.put (inMode 3) [(0x3040, 1, 2, 5)]), 1, 2, ⟨.port 0 1 5000, 7⟩, by decide⟩

theorem witness_LineAndGlideCommands_reset : ∃ (s : State) (t unit : Nat) (req : Req),
    s.dev.Admits req 0x3030 5 unit [3] = true ∧
    s.dev.luState unit = 7 ∧
    (s.dev.tripCauses unit 7).contains (s.dev.rn 0x3040 2 unit) = false :=
  ⟨at_ (Dev.put (inMode 3) [(0x3040, 1, 2, 7), (0x3040, 2, 2, 3)]), 1, 2, ⟨.port 0 1 5000, 7⟩, by decide⟩

theorem witness_LineAndGlideCommands_resume : ∃ (s : State) (t group : Nat) (req : Req),
    group < 8 ∧
    s.dev.Admits req (0x3110 + group) 2 0 [1] = true ∧
    s.dev.ggState group = 5 ∧
    s.dev.mode = 3 ∧
    s.dev.luState (s.dev.ggUnit group) = 5 :=
  ⟨at_ (Dev.put (inMode 3) [(0x3111, 1, 0, 5), (0x3101, 2, 0, 2), (0x3040, 1, 2, 5)]), 1, 1, ⟨.port 0 1 5000, 7⟩, by decide⟩

theorem witness_LineAndGlideCommands_release : ∃ (s : State) (t group : Nat) (req : Req),
    group < 8 ∧
    s.dev.Admits req (0x3110 + group) 2 0 [2] = true ∧
    2 ≤ s.dev.ggState group ∧
    s.dev.ggState group ≤ 4 :=
  ⟨at_ (Dev.put (inMode 3) [(0x3111, 1, 0, 3)]), 1, 1, ⟨.port 0 1 5000, 7⟩, by decide⟩

theorem witness_LineAndGlideCommands_exhaust : ∃ (s : State) (t unit x : Nat),
    s.dev.md.fieldReset = false ∧
    (s.dev.lu unit).exhAt = some x ∧
    (s.dev.lu unit).exhausted = false ∧
    s.dev.exhausting unit = true ∧
    x + s.dev.rn 0x3060 5 unit * ms ≤ t ∧
    (s.dev.mode = 3 ∨ s.dev.mode = 4) ∧
    s.dev.md.cause = none :=
  ⟨at_ { Dev.put (inMode 3) [(0x3100, 1, 0, 1), (0x3100, 2, 0, 0), (0x3110, 1, 0, 3), (0x3060, 1, 0, 0x3F800000)] with line := { units := [(0, { exhAt := some 5 })] } }, 60000000000005, 0, 5, by decide⟩

theorem witness_LineAndGlideCommands_stuck : ∃ (s : State) (t input : Nat),
    s.dev.md.fieldReset = false ∧
    input < 16 ∧
    s.dev.rb 0x3080 2 0 = true ∧
    s.dev.line.faulted.contains input = false ∧
    s.dev.rn 0x3080 (3 + input) 0 / 16 = 1 :=
  ⟨at_ (Dev.put (inMode 3) [(0x3080, 2, 0, 1), (0x3080, 5, 0, 16)]), 1, 2, by decide⟩

theorem witness_LineAndGlideCommands_recovered : ∃ (s : State) (t input : Nat),
    s.dev.md.fieldReset = false ∧
    Tab.get s.dev.line.stuckAt input 0 + 16 * ms ≤ t :=
  ⟨at_ { inMode 3 with line := { faulted := [2], stuckAt := [(2, 5)] } }, 16000000005, 2, by decide⟩

set_option maxRecDepth 20000 in
theorem witness_ProfileCommands_move : ∃ (s : State) (t axis : Nat) (req : Req),
    s.dev.Admits req 0x2210 8 axis [1] = true ∧
    (s.dev.mode = 3 ∨ s.dev.mode = 4) ∧
    s.dev.axState axis = 2 ∧
    s.dev.pfState axis ≠ 7 ∧
    s.dev.pfState axis ≠ 8 ∧
    (s.dev.apf axis).queue.length + (if (s.dev.apf axis).mot.kind == 1 then 1 else 0) + ((s.dev.apf axis).cmds.filter (· == 1)).length < 16 ∧
    inRange (s.dev.rf 0x2210 3 axis) (s.dev.rf 0x2200 1 axis) = true ∧
    inRange (s.dev.rf 0x2210 4 axis) (s.dev.rf 0x2200 2 axis) = true ∧
    inRange (s.dev.rf 0x2210 5 axis) (s.dev.rf 0x2200 2 axis) = true ∧
    inRange (s.dev.rf 0x2210 6 axis) (s.dev.rf 0x2200 3 axis) = true :=
  ⟨at_ (Dev.put (inMode 3) [(0x2160, 3, 1, 2), (0x2200, 1, 1, 0x3F800000), (0x2200, 2, 1, 0x3F800000), (0x2200, 3, 1, 0x3F800000), (0x2210, 3, 1, 0x3F800000), (0x2210, 4, 1, 0x3F800000), (0x2210, 5, 1, 0x3F800000), (0x2210, 6, 1, 0x3F800000)]), 1, 1, ⟨.port 0 1 5000, 7⟩, by decide +kernel⟩

set_option maxRecDepth 20000 in
theorem witness_ProfileCommands_velocity : ∃ (s : State) (t axis : Nat) (req : Req),
    s.dev.Admits req 0x2210 8 axis [2] = true ∧
    (s.dev.mode = 3 ∨ s.dev.mode = 4) ∧
    s.dev.axState axis = 2 ∧
    s.dev.pfState axis ≠ 7 ∧
    s.dev.pfState axis ≠ 8 ∧
    (s.dev.rf 0x2200 1 axis).lt (s.dev.rf 0x2210 3 axis).abs = false ∧
    inRange (s.dev.rf 0x2210 4 axis) (s.dev.rf 0x2200 2 axis) = true ∧
    inRange (s.dev.rf 0x2210 5 axis) (s.dev.rf 0x2200 2 axis) = true ∧
    inRange (s.dev.rf 0x2210 6 axis) (s.dev.rf 0x2200 3 axis) = true :=
  ⟨at_ (Dev.put (inMode 3) [(0x2160, 3, 1, 2), (0x2200, 1, 1, 0x3F800000), (0x2200, 2, 1, 0x3F800000), (0x2200, 3, 1, 0x3F800000), (0x2210, 3, 1, 0x3F800000), (0x2210, 4, 1, 0x3F800000), (0x2210, 5, 1, 0x3F800000), (0x2210, 6, 1, 0x3F800000)]), 1, 1, ⟨.port 0 1 5000, 7⟩, by decide +kernel⟩

set_option maxRecDepth 20000 in
theorem witness_ProfileCommands_gear : ∃ (s : State) (t axis : Nat) (req : Req),
    s.dev.Admits req 0x2210 8 axis [3] = true ∧
    (s.dev.mode = 3 ∨ s.dev.mode = 4) ∧
    s.dev.axState axis = 2 ∧
    s.dev.pfState axis ≠ 7 ∧
    s.dev.pfState axis ≠ 8 ∧
    s.dev.gearBad axis 3 = false :=
  ⟨at_ (Dev.put (inMode 3) [(0x2160, 3, 1, 2), (0x2200, 1, 1, 0x3F800000), (0x2200, 2, 1, 0x3F800000), (0x2200, 3, 1, 0x3F800000), (0x2210, 3, 1, 0x3F800000), (0x2210, 4, 1, 0x3F800000), (0x2210, 5, 1, 0x3F800000), (0x2210, 6, 1, 0x3F800000), (0x2220, 1, 1, 2), (0x2220, 2, 1, 0), (0x2400, 1, 0, 1)]), 1, 1, ⟨.port 0 1 5000, 7⟩, by decide +kernel⟩

set_option maxRecDepth 20000 in
theorem witness_ProfileCommands_cam : ∃ (s : State) (t axis : Nat) (req : Req),
    s.dev.Admits req 0x2210 8 axis [4] = true ∧
    (s.dev.mode = 3 ∨ s.dev.mode = 4) ∧
    s.dev.axState axis = 2 ∧
    s.dev.pfState axis ≠ 7 ∧
    s.dev.pfState axis ≠ 8 ∧
    s.dev.gearBad axis 4 = false :=
  ⟨at_ (Dev.put (inMode 3) [(0x2160, 3, 1, 2), (0x2200, 1, 1, 0x3F800000), (0x2200, 2, 1, 0x3F800000), (0x2200, 3, 1, 0x3F800000), (0x2210, 3, 1, 0x3F800000), (0x2210, 4, 1, 0x3F800000), (0x2210, 5, 1, 0x3F800000), (0x2210, 6, 1, 0x3F800000), (0x2220, 1, 1, 2), (0x2220, 2, 1, 0), (0x2400, 1, 0, 1), (0x2500, 1, 0, 4)]), 1, 1, ⟨.port 0 1 5000, 7⟩, by decide +kernel⟩

set_option maxRecDepth 20000 in
theorem witness_ProfileCommands_home : ∃ (s : State) (t axis : Nat) (req : Req),
    s.dev.Admits req 0x2210 8 axis [5] = true ∧
    (s.dev.mode = 3 ∨ s.dev.mode = 4) ∧
    s.dev.axState axis = 2 ∧
    s.dev.pfState axis ≠ 7 ∧
    s.dev.pfState axis ≠ 8 ∧
    s.dev.standstill axis = true ∧
    (s.dev.apf axis).queue = [] ∧
    (s.dev.apf axis).mot.kind ≠ 1 ∧
    s.dev.homeLacks axis = false :=
  ⟨at_ (Dev.put (inMode 3) [(0x2160, 3, 1, 2), (0x2200, 1, 1, 0x3F800000), (0x2200, 2, 1, 0x3F800000), (0x2200, 3, 1, 0x3F800000), (0x2210, 3, 1, 0x3F800000), (0x2210, 4, 1, 0x3F800000), (0x2210, 5, 1, 0x3F800000), (0x2210, 6, 1, 0x3F800000), (0x2200, 8, 1, 0), (0x2230, 1, 1, 10)]), 1, 1, ⟨.port 0 1 5000, 7⟩, by decide +kernel⟩

set_option maxRecDepth 20000 in
theorem witness_ProfileCommands_stop : ∃ (s : State) (t axis : Nat) (req : Req),
    s.dev.Admits req 0x2210 8 axis [6] = true ∧
    (s.dev.mode = 3 ∨ s.dev.mode = 4) ∧
    s.dev.axState axis = 2 :=
  ⟨at_ (Dev.put (inMode 3) [(0x2160, 3, 1, 2), (0x2200, 1, 1, 0x3F800000), (0x2200, 2, 1, 0x3F800000), (0x2200, 3, 1, 0x3F800000), (0x2210, 3, 1, 0x3F800000), (0x2210, 4, 1, 0x3F800000), (0x2210, 5, 1, 0x3F800000), (0x2210, 6, 1, 0x3F800000)]), 1, 1, ⟨.port 0 1 5000, 7⟩, by decide +kernel⟩

set_option maxRecDepth 20000 in
theorem witness_ProfileCommands_flush : ∃ (s : State) (t axis : Nat) (req : Req),
    s.dev.Admits req 0x2210 8 axis [7] = true ∧
    (s.dev.mode = 3 ∨ s.dev.mode = 4) ∧
    s.dev.axState axis = 2 ∧
    s.dev.pfState axis ≠ 7 ∧
    s.dev.pfState axis ≠ 8 :=
  ⟨at_ (Dev.put (inMode 3) [(0x2160, 3, 1, 2), (0x2200, 1, 1, 0x3F800000), (0x2200, 2, 1, 0x3F800000), (0x2200, 3, 1, 0x3F800000), (0x2210, 3, 1, 0x3F800000), (0x2210, 4, 1, 0x3F800000), (0x2210, 5, 1, 0x3F800000), (0x2210, 6, 1, 0x3F800000)]), 1, 1, ⟨.port 0 1 5000, 7⟩, by decide +kernel⟩

theorem witness_ProfileCommands_hardStop : ∃ (s : State) (t axis x : Nat) (h : HomeSt),
    s.dev.md.fieldReset = false ∧
    (s.dev.apf axis).homing = some h ∧
    h.hardAt = some x ∧
    h.step = 5 ∧
    h.ref = none ∧
    x + 10 * ms ≤ t :=
  ⟨at_ { inMode 3 with prof := { axes := [(1, { homing := some { method := 9, search := ⟨1, 0⟩, creep := ⟨1, 0⟩, acc := ⟨1, 0⟩, offset := 0, backOff := 0, sw := 0, limNeg := 0, limPos := 0, indexField := 255, toggle := 0, hardErr := 5, limit := 0, timeMs := 10, startedAt := 5, startPos := 0, step := 5, dir := 1, reversed := false, edgePos := 0, hardAt := some 5, toggleWas := none, ref := none } })] } }, 10000000005, 1, 5, { method := 9, search := ⟨1, 0⟩, creep := ⟨1, 0⟩, acc := ⟨1, 0⟩, offset := 0, backOff := 0, sw := 0, limNeg := 0, limPos := 0, indexField := 255, toggle := 0, hardErr := 5, limit := 0, timeMs := 10, startedAt := 5, startPos := 0, step := 5, dir := 1, reversed := false, edgePos := 0, hardAt := some 5, toggleWas := none, ref := none }, by decide⟩

theorem witness_ProfileCommands_homingTime : ∃ (s : State) (t axis : Nat) (h : HomeSt),
    s.dev.md.fieldReset = false ∧
    (s.dev.apf axis).homing = some h ∧
    h.startedAt + h.timeMs * ms ≤ t :=
  ⟨at_ { inMode 3 with prof := { axes := [(1, { homing := some { method := 9, search := ⟨1, 0⟩, creep := ⟨1, 0⟩, acc := ⟨1, 0⟩, offset := 0, backOff := 0, sw := 0, limNeg := 0, limPos := 0, indexField := 255, toggle := 0, hardErr := 5, limit := 0, timeMs := 10, startedAt := 5, startPos := 0, step := 5, dir := 1, reversed := false, edgePos := 0, hardAt := some 5, toggleWas := none, ref := none } })] } }, 10000000005, 1, { method := 9, search := ⟨1, 0⟩, creep := ⟨1, 0⟩, acc := ⟨1, 0⟩, offset := 0, backOff := 0, sw := 0, limNeg := 0, limPos := 0, indexField := 255, toggle := 0, hardErr := 5, limit := 0, timeMs := 10, startedAt := 5, startPos := 0, step := 5, dir := 1, reversed := false, edgePos := 0, hardAt := some 5, toggleWas := none, ref := none }, by decide⟩

theorem witness_FeedbackLinesAreFiltered_reset : ∃ (s : State) (t channel levels : Nat),
    channel < 8 ∧
    s.dev.md.fieldReset = true :=
  ⟨at_ { md := { fieldReset := true } }, 1, 1, 5, by decide⟩

theorem witness_FeedbackLinesAreFiltered_counted : ∃ (s : State) (t channel levels : Nat),
    s.dev.md.fieldReset = false ∧
    channel < 8 ∧
    levels < 64 ∧
    (s.dev.rn 0x2700 2 channel = 1 ∨ s.dev.rn 0x2700 2 channel = 2) ∧
    s.dev.rn 0x2700 4 channel = 0 ∧
    (s.dev.advance t).accepted channel levels = [3] :=
  ⟨at_ { Dev.put (inMode 3) [(0x2700, 2, 1, 1), (0x2700, 3, 1, 100)] with fb := [(1, {})] }, 1, 1, 8, by decide⟩

theorem witness_FeedbackLinesAreFiltered_rejected : ∃ (s : State) (t channel : Nat),
    s.dev.md.fieldReset = false ∧
    channel < 8 ∧
    s.dev.rn 0x2700 4 channel = 0 ∧
    (s.dev.fbc channel).level = 0 ∧
    (s.dev.fbc channel).raw = 0 ∧
    (s.dev.advance t).accepted channel 8 = [] :=
  ⟨at_ { Dev.put (inMode 3) [(0x2700, 2, 1, 1), (0x2700, 3, 1, 100)] with fb := [(1, { lastAt := [(3, 5)] })] }, 10, 1, by decide⟩

theorem witness_FeedbackLinesAreFiltered_late : ∃ (s : State) (t channel line : Nat),
    s.dev.md.fieldReset = false ∧
    channel < 8 ∧
    line = 3 ∧
    (s.dev.rn 0x2700 2 channel = 1 ∨ s.dev.rn 0x2700 2 channel = 2) ∧
    s.dev.rn 0x2700 4 channel = 0 ∧
    (s.dev.advance t).accepted channel (s.dev.fbc channel).pins = [3] :=
  ⟨at_ { Dev.put (inMode 3) [(0x2700, 2, 1, 1), (0x2700, 3, 1, 100)] with fb := [(1, { pins := 8, raw := 8, level := 0, lastAt := [(3, 5)] })] }, 200000, 1, 3, by decide⟩

theorem witness_FeedbackLinesAreFiltered_arm : ∃ (s : State) (t channel : Nat) (req : Req),
    s.dev.Admits req 0x2710 14 channel [1] = true :=
  ⟨at_ (inMode 3), 1, 1, ⟨.port 0 1 5000, 7⟩, by decide⟩

set_option maxRecDepth 20000 in
theorem witness_LinesAreWritten_record : ∃ (s : State) (t kind key flags : Nat) (payload : Bytes) (rest : List StJob),
    s.dev.md.fieldReset = false ∧
    s.dev.stReady = true ∧
    s.dev.st.jobs = .record kind key flags payload :: rest ∧
    s.dev.st.breath = none ∧
    s.dev.st.again = false ∧
    s.dev.st.used ≠ 0 ∧
    s.dev.st.used < 64 :=
  ⟨at_ { Dev.put (inMode 3) [(0x5000, 1, 0, 1)] with st := { jobs := [.record 18 3 0 [1, 2]], used := 5, live := 2 } }, 1, 18, 3, 0, [1, 2], [], by decide +kernel⟩

set_option maxRecDepth 20000 in
theorem witness_LinesAreWritten_header : ∃ (s : State) (t kind key flags : Nat) (payload : Bytes) (rest : List StJob),
    s.dev.md.fieldReset = false ∧
    s.dev.stReady = true ∧
    s.dev.st.jobs = .record kind key flags payload :: rest ∧
    s.dev.st.breath = none ∧
    s.dev.st.again = false ∧
    64 ≤ s.dev.st.used :=
  ⟨at_ { Dev.put (inMode 3) [(0x5000, 1, 0, 1)] with st := { jobs := [.record 18 3 0 [1, 2]], used := 64, live := 2 } }, 1, 18, 3, 0, [1, 2], [], by decide +kernel⟩

set_option maxRecDepth 20000 in
theorem witness_LinesAreWritten_entry : ∃ (s : State) (t : Nat) (x : EvEntry),
    s.dev.md.fieldReset = false ∧
    s.dev.stReady = true ∧
    s.dev.st.jobs = [] ∧
    s.dev.st.breath = none ∧
    s.dev.st.again = false ∧
    s.dev.ring.queue = [x] ∧
    s.dev.ring.recent = [] ∧
    s.dev.ring.repeats = [] ∧
    s.dev.ring.taken < s.dev.rn 0x5001 4 0 :=
  ⟨at_ { Dev.put (inMode 3) [(0x5000, 1, 0, 1)] with ring := { queue := [{ num := 5, data := [], time := 0, quality := 0, at_ := 0 }] } }, 1, { num := 5, data := [], time := 0, quality := 0, at_ := 0 }, by decide +kernel⟩

theorem witness_LinesAreWritten_again : ∃ (s : State) (t n : Nat),
    s.dev.md.fieldReset = false ∧
    s.dev.stReady = true ∧
    s.dev.lineInProgress = some n ∧
    s.dev.st.again = false :=
  ⟨at_ { Dev.put (inMode 3) [(0x5000, 1, 0, 1)] with st := { jobs := [.record 18 3 0 [1, 2]], used := 5 } }, 1, 64 * 4688 + 5, by decide⟩

set_option maxRecDepth 20000 in
theorem witness_LinesAreWritten_retired : ∃ (s : State) (t n spare : Nat),
    s.dev.md.fieldReset = false ∧
    s.dev.stReady = true ∧
    s.dev.lineInProgress = some n ∧
    s.dev.st.again = true ∧
    s.dev.st.freeSpare = some spare :=
  ⟨at_ { Dev.put (inMode 3) [(0x5000, 1, 0, 1)] with st := { jobs := [.record 18 3 0 [1, 2]], used := 5, again := true } }, 1, 64 * 4688 + 5, 0, by decide +kernel⟩

theorem witness_StoreTimersAndScrub_checkpoint : ∃ (s : State) (t : Nat),
    s.dev.md.fieldReset = false ∧
    s.dev.stReady = true ∧
    s.dev.st.ckAt + s.dev.rn 0x5001 1 0 * 2 ^ s.dev.throttle * ms ≤ t :=
  ⟨at_ { Dev.put (inMode 3) [(0x5000, 1, 0, 1), (0x5001, 1, 0, 1000)] with st := {} }, 1000000000000, by decide⟩

theorem witness_StoreTimersAndScrub_life : ∃ (s : State) (t : Nat),
    s.dev.md.fieldReset = false ∧
    s.dev.stReady = true ∧
    s.dev.st.lifeAt + s.dev.rn 0x5001 2 0 * 2 ^ s.dev.throttle * sec ≤ t :=
  ⟨at_ { Dev.put (inMode 3) [(0x5000, 1, 0, 1), (0x5001, 2, 0, 60)] with st := {} }, 60000000000000, by decide⟩

theorem witness_StoreTimersAndScrub_proof : ∃ (s : State) (t x : Nat) (key : PosKey),
    s.dev.md.fieldReset = false ∧
    Tab.find s.dev.st.proofAt (posNum key) = some x ∧
    x + sec ≤ t ∧
    s.dev.st.proofDue.contains (posNum key) = true :=
  ⟨at_ { Dev.put (inMode 3) [(0x5000, 1, 0, 1)] with st := { proofAt := [(2, 5)], proofDue := [2] } }, 1000000000005, 5, .axis 2, by decide⟩

theorem witness_StoreTimersAndScrub_hour : ∃ (s : State) (t : Nat),
    s.dev.md.fieldReset = false ∧
    s.dev.stReady = true ∧
    s.dev.st.hourStart + 3600 ≤ (s.dev.advance t).opTime :=
  ⟨at_ { Dev.put (inMode 3) [(0x5000, 1, 0, 1)] with st := { opBase := 3600, w := 7 } }, 1, by decide⟩

theorem witness_StoreTimersAndScrub_refresh : ∃ (s : State) (t line : Nat) (again : ReadResult),
    s.dev.md.fieldReset = false ∧
    s.dev.stReady = true ∧
    s.dev.st.breath = none ∧
    line < 524288 :=
  ⟨at_ { Dev.put (inMode 3) [(0x5000, 1, 0, 1)] with st := {} }, 1, 300000, .clean, by decide⟩

set_option maxRecDepth 20000 in
theorem witness_StoreTimersAndScrub_retire : ∃ (s : State) (t line spare : Nat) (again : ReadResult),
    s.dev.md.fieldReset = false ∧
    s.dev.stReady = true ∧
    s.dev.st.breath = none ∧
    line < 524288 ∧
    s.dev.st.freeSpare = some spare :=
  ⟨at_ { Dev.put (inMode 3) [(0x5000, 1, 0, 1)] with st := {} }, 1, 300000, 0, .clean, by decide +kernel⟩

theorem witness_LastBreath_fall : ∃ (s : State) (t : Nat),
    s.dev.md.fieldReset = false ∧
    s.dev.stReady = true ∧
    s.dev.st.breath = none ∧
    s.dev.st.jobs = [] ∧
    s.dev.ring.queue = [] ∧
    s.dev.st.pfail = false ∧
    s.dev.st.pfailAt + 10 * us ≤ t :=
  ⟨at_ storeReady, 20000000, by decide⟩

theorem witness_LastBreath_short : ∃ (s : State) (t : Nat),
    s.dev.md.fieldReset = false ∧
    s.dev.stReady = true ∧
    s.dev.st.pfail = false ∧
    max s.dev.now t < s.dev.st.pfailAt + 10 * us :=
  ⟨at_ { storeReady with st := { pfailAt := 19000000 } }, 20000000, by decide⟩

theorem witness_LastBreath_rise : ∃ (s : State) (t : Nat),
    s.dev.md.fieldReset = false ∧
    s.dev.st.pfail = true :=
  ⟨at_ { storeReady with st := { pfail := true } }, 20000000, by decide⟩

theorem witness_LastBreath_trip : ∃ (s : State) (t : Nat),
    s.dev.md.fieldReset = false ∧
    s.dev.stReady = true ∧
    s.dev.st.breath = none ∧
    s.dev.st.jobs = [] ∧
    s.dev.ring.queue = [] :=
  ⟨at_ storeReady, 20000000, by decide⟩

theorem witness_LastBreath_limit : ∃ (s : State) (t : Nat) (b : Nat × Nat × Nat × Nat),
    s.dev.st.breath = some b ∧
    b.2.2.2 < 520 ∧
    s.dev.st.used ≠ 0 ∧
    s.dev.st.used < 64 :=
  ⟨at_ { storeReady with st := { breath := some (1, 5, 0, 3), used := 9 } }, 20000000, (1, 5, 0, 3), by decide⟩

theorem witness_LastBreath_noCommit : ∃ (s : State) (t : Nat),
    s.dev.st.breath = none :=
  ⟨State.reset, 1, by decide⟩

theorem witness_ParameterSets_store : ∃ (s : State) (t : Nat) (req : Req),
    s.dev.Admits req 0x5070 1 0 [1] = true ∧
    s.dev.rn 0x5070 8 0 < 60 ∧
    s.dev.stReady = true ∧
    s.dev.st.cmd = none ∧
    s.dev.st.breath = none :=
  ⟨at_ { Dev.put (inMode 2) [(0x5000, 1, 0, 1)] with st := {} }, 1, ⟨.port 0 1 5000, 7⟩, by decide⟩

theorem witness_ParameterSets_previous : ∃ (s : State) (t : Nat) (req : Req) (img : Bytes × Bytes) (x : List ((Nat × Nat × Nat) × Val) × Nat),
    s.dev.Admits req 0x5070 1 0 [2] = true ∧
    s.dev.mode = 2 ∧
    s.dev.stReady = true ∧
    s.dev.st.cmd = none ∧
    s.dev.st.breath = none ∧
    s.dev.st.image s.nv [] s.dev.st.previous = some img ∧
    (s.dev.advance t).checkSet img = some x :=
  ⟨setState, 1, ⟨.port 0 1 5000, 7⟩, (setHead, []), ([], 0), by refine ⟨by decide, by decide, by decide, by decide, by decide, setState_image, setState_check⟩⟩

theorem witness_ParameterSets_factory : ∃ (s : State) (t : Nat) (req : Req) (img : Bytes × Bytes) (x : List ((Nat × Nat × Nat) × Val) × Nat),
    s.dev.Admits req 0x5070 1 0 [3] = true ∧
    s.dev.mode = 2 ∧
    s.dev.stReady = true ∧
    s.dev.st.cmd = none ∧
    s.dev.st.breath = none ∧
    s.dev.rn 0x5070 8 0 < 60 ∧
    s.dev.st.image s.nv [] s.dev.st.factory = some img ∧
    (s.dev.advance t).checkSet img = some x :=
  ⟨setState, 1, ⟨.port 0 1 5000, 7⟩, (setHead, []), ([], 0), by refine ⟨by decide, by decide, by decide, by decide, by decide, by decide, setState_image, setState_check⟩⟩

set_option maxRecDepth 20000 in
theorem witness_ParameterSets_written : ∃ (s : State) (t : Nat) (x : SetCmd) (v : Tab Int × Tab Bytes),
    s.dev.md.fieldReset = false ∧
    s.dev.stReady = true ∧
    s.dev.st.cmd = some x ∧
    x.snap = some v ∧
    x.code = 1 :=
  ⟨at_ { Dev.put (inMode 2) [(0x5000, 1, 0, 1)] with st := { cmd := some { code := 1, req := ⟨.port 0 1 5000, 7⟩, hdr := askMsg 2 7 0x5070 1 0, area := 2, seq := 9, snap := some ([], []) }, used := 5, active := 1, previous := 0, factory := 3 } }, 1, { code := 1, req := ⟨.port 0 1 5000, 7⟩, hdr := askMsg 2 7 0x5070 1 0, area := 2, seq := 9, snap := some ([], []) }, ([], []), by decide +kernel⟩

theorem witness_ParameterSets_notWritten : ∃ (s : State) (t : Nat) (x : SetCmd) (v : Tab Int × Tab Bytes),
    s.dev.md.fieldReset = false ∧
    s.dev.stReady = true ∧
    s.dev.st.cmd = some x ∧
    x.snap = some v :=
  ⟨at_ { Dev.put (inMode 2) [(0x5000, 1, 0, 1)] with st := { cmd := some { code := 1, req := ⟨.port 0 1 5000, 7⟩, hdr := askMsg 2 7 0x5070 1 0, area := 2, seq := 9, snap := some ([], []) } } }, 1, { code := 1, req := ⟨.port 0 1 5000, 7⟩, hdr := askMsg 2 7 0x5070 1 0, area := 2, seq := 9, snap := some ([], []) }, ([], []), by decide⟩

theorem witness_ParameterSets_format : ∃ (s : State) (t : Nat) (req : Req),
    s.dev.Admits req 0x5000 8 0 (leBytes (Config.serial % 2 ^ 32) 4) = true ∧
    s.dev.mode = 2 :=
  ⟨at_ { Dev.put (inMode 2) [(0x5000, 1, 0, 1)] with st := {} }, 1, ⟨.port 0 1 5000, 7⟩, by decide⟩

theorem witness_ParameterSets_readFrom : ∃ (s : State) (t value : Nat) (req : Req),
    s.dev.Admits req 0x5060 3 0 (leBytes value 4) = true ∧
    s.dev.rn 0x5060 1 0 ≤ value ∧
    value ≤ s.dev.rn 0x5060 2 0 ∧
    value < 2 ^ 32 :=
  ⟨at_ { Dev.put (inMode 2) [(0x5000, 1, 0, 1), (0x5060, 1, 0, 3), (0x5060, 2, 0, 9)] with st := {} }, 1, 5, ⟨.port 0 1 5000, 7⟩, by decide⟩

theorem witness_SafetyInputsAndStops_same : ∃ (s : State) (t input levels readback : Nat) (upset : Upset),
    s.dev.md.fieldReset = false ∧
    input < 16 ∧
    (s.dev.sin input).testBad = false ∧
    s.dev.rn 0x4010 4 input = 0 ∧
    bit levels input = (s.dev.sin input).level :=
  ⟨at_ { Dev.put (inMode 3) [(0x4010, 3, 2, 300)] with safe := { ins := [(2, { heldUs := 101, raw := true })] } }, 1, 2, 0, 0, .none, by decide⟩

theorem witness_SafetyInputsAndStops_counts : ∃ (s : State) (t input levels readback : Nat) (upset : Upset),
    s.dev.md.fieldReset = false ∧
    input < 16 ∧
    (s.dev.sin input).testBad = false ∧
    s.dev.rn 0x4010 4 input = 0 ∧
    bit levels input ≠ (s.dev.sin input).level ∧
    0 < (s.dev.sin input).heldUs ∧
    (s.dev.sin input).heldUs + 99 < s.dev.rn 0x4010 3 input :=
  ⟨at_ { Dev.put (inMode 3) [(0x4010, 3, 2, 300)] with safe := { ins := [(2, { heldUs := 101, raw := true })] } }, 1, 2, 4, 0, .none, by decide⟩

theorem witness_SafetyInputsAndStops_takes : ∃ (s : State) (t input levels readback : Nat) (upset : Upset),
    s.dev.md.fieldReset = false ∧
    input < 16 ∧
    (s.dev.sin input).testBad = false ∧
    s.dev.rn 0x4010 4 input = 0 ∧
    bit levels input ≠ (s.dev.sin input).level ∧
    0 < (s.dev.sin input).heldUs ∧
    s.dev.rn 0x4010 3 input ≤ (s.dev.sin input).heldUs + 99 :=
  ⟨at_ { Dev.put (inMode 3) [(0x4010, 3, 2, 300)] with safe := { ins := [(2, { heldUs := 201, raw := true })] } }, 1, 2, 4, 0, .none, by decide⟩

theorem witness_SafetyInputsAndStops_quiet : ∃ (s : State) (t levels readback : Nat),
    s.dev.md.fieldReset = false ∧
    (List.range 16).all (fun i => bit levels i == (s.dev.sin i).level) = true ∧
    (List.range 8).all (fun n => (s.dev.sout n).on || !s.dev.rb 0x4020 1 n) = true :=
  ⟨at_ { Dev.put (inMode 3) [(0x4010, 3, 2, 300)] with safe := { ins := [(2, { level := true })] } }, 1, 4, 0, by decide⟩

theorem witness_SafetyInputsAndStops_stopTime : ∃ (s : State) (t axis : Nat),
    s.dev.md.fieldReset = false ∧
    s.dev.saf axis = 2 ∧
    (s.dev.asf axis).done = false ∧
    (s.dev.asf axis).ls + s.dev.rn 0x4030 14 axis * ms ≤ t :=
  ⟨at_ (Dev.put (inMode 3) [(0x4040, 1, 1, 2), (0x4030, 14, 1, 100)]), 100000000000, 1, by decide⟩

theorem witness_SafetyInputsAndStops_release : ∃ (s : State) (t axis : Nat) (req : Req),
    s.dev.Admits req 0x4040 5 axis [1] = true ∧
    s.dev.saf axis = 3 ∧
    (s.dev.groupOf axis).any s.dev.heldDemand = false :=
  ⟨at_ (Dev.put (bladeUp 3) [(0x4040, 1, 1, 3), (0x4030, 1, 1, 0), (0x4020, 1, 0, 1), (0x2000, 1, 1, 1)]), 1, 1, ⟨.port 0 1 5000, 7⟩, by decide⟩

theorem witness_SafetyInputsAndStops_seal : ∃ (s : State) (t sealUp sealDown : Nat),
    s.dev.md.fieldReset = false :=
  ⟨at_ (Dev.put (inMode 3) []), 1, 5, 5, by decide⟩

theorem witness_SafetyPulsesAreChecked_pulseFails : ∃ (s : State) (t source input levels : Nat),
    s.dev.md.fieldReset = false ∧
    input < 16 ∧
    s.dev.rn 0x4010 4 input = source + 1 ∧
    bit levels input = true :=
  ⟨at_ (Dev.put (inMode 3) [(0x4010, 4, 2, 1)]), 1, 0, 2, 4, by decide⟩

theorem witness_SafetyPulsesAreChecked_repeatGood : ∃ (s : State) (t source input : Nat),
    s.dev.md.fieldReset = false ∧
    s.dev.rn 0x4010 4 input = source + 1 ∧
    (s.dev.sin input).testOnce = true :=
  ⟨at_ { Dev.put (inMode 3) [(0x4010, 3, 2, 300), (0x4010, 4, 2, 1)] with safe := { ins := [(2, { testOnce := true })] } }, 1, 0, 2, by decide⟩

theorem witness_SafetyPulsesAreChecked_repeatBad : ∃ (s : State) (t source input : Nat),
    s.dev.md.fieldReset = false ∧
    s.dev.rn 0x4010 4 input = source + 1 ∧
    (s.dev.sin input).testOnce = true :=
  ⟨at_ { Dev.put (inMode 3) [(0x4010, 3, 2, 300), (0x4010, 4, 2, 1)] with safe := { ins := [(2, { testOnce := true })] } }, 1, 0, 2, by decide⟩

theorem witness_SafetyPulsesAreChecked_outPulse : ∃ (s : State) (t output : Nat),
    s.dev.md.fieldReset = false ∧
    (s.dev.sout output).on = true ∧
    (s.dev.sout output).check = 0 ∧
    s.dev.rn 0x4020 5 output = 0 :=
  ⟨at_ { Dev.put (inMode 3) [(0x4020, 1, 1, 1)] with safe := { outs := [(1, { on := true })] } }, 1, 1, by decide⟩

theorem witness_SafetyPulsesAreChecked_offRead : ∃ (s : State) (t output : Nat),
    s.dev.md.fieldReset = false ∧
    (s.dev.sout output).on = true ∧
    (s.dev.sout output).check = 1 ∧
    (s.dev.sout output).repeating = false :=
  ⟨at_ { Dev.put (inMode 3) [(0x4020, 1, 1, 1)] with safe := { outs := [(1, { on := true, check := 1 })] } }, 1, 1, by decide⟩

theorem witness_SafetyPulsesAreChecked_offStuck : ∃ (s : State) (t output : Nat),
    s.dev.md.fieldReset = false ∧
    (s.dev.sout output).check = 1 ∧
    (s.dev.sout output).repeating = false :=
  ⟨at_ { Dev.put (inMode 3) [(0x4020, 1, 1, 1)] with safe := { outs := [(1, { on := true, check := 1 })] } }, 1, 1, by decide⟩

theorem witness_SafetyPulsesAreChecked_onRead : ∃ (s : State) (t output : Nat),
    s.dev.md.fieldReset = false ∧
    (s.dev.sout output).check = 2 ∧
    (s.dev.sout output).on = true ∧
    s.dev.rn 0x4020 5 output = 0 :=
  ⟨at_ { Dev.put (inMode 3) [(0x4020, 1, 1, 1)] with safe := { outs := [(1, { on := true, check := 2 })] } }, 1, 1, by decide⟩

theorem witness_SafetyPulsesAreChecked_goodRepeat : ∃ (s : State) (t output : Nat),
    s.dev.md.fieldReset = false ∧
    (s.dev.sout output).repeating = true ∧
    (s.dev.sout output).check ≠ 0 :=
  ⟨at_ { Dev.put (inMode 3) [(0x4020, 1, 1, 1)] with safe := { outs := [(1, { on := true, check := 1, repeating := true })] } }, 1, 1, by decide⟩

theorem witness_SafetyPulsesAreChecked_badRepeat : ∃ (s : State) (t output : Nat),
    s.dev.md.fieldReset = false ∧
    output < 8 ∧
    (s.dev.sout output).repeating = true ∧
    ((s.dev.sout output).check = 1 ∨ (s.dev.sout output).check = 3) :=
  ⟨at_ { Dev.put (inMode 3) [(0x4020, 1, 1, 1), (0x4000, 3, 0, 0)] with safe := { outs := [(1, { on := true, check := 1, repeating := true })] } }, 1, 1, by decide⟩

theorem witness_SafetyPulsesAreChecked_clears : ∃ (s : State) (t output x : Nat),
    s.dev.md.fieldReset = false ∧
    (s.dev.sout output).goodSince = some x ∧
    s.dev.rn 0x4020 5 output = 1 ∧
    x + sec ≤ t :=
  ⟨at_ { Dev.put (inMode 3) [(0x4020, 1, 1, 1), (0x4020, 5, 1, 1), (0x4000, 3, 0, 0)] with safe := { outs := [(1, { goodSince := some 5 })] } }, 1000000000005, 1, 5, by decide⟩

theorem witness_CanPortsAreCommanded_initNow : ∃ (s : State) (t : Nat) (port : Die),
    s.dev.inReset port = false ∧
    (s.dev.can port).onBus = none :=
  ⟨fcanAt {}, 1, .field, by decide⟩

theorem witness_CanPortsAreCommanded_initLater : ∃ (s : State) (t : Nat) (port : Die),
    s.dev.inReset port = false ∧
    (s.dev.can port).onBus ≠ none :=
  ⟨fcanAt { ctrl := 0, onBus := some none }, 1, .field, by decide⟩

theorem witness_CanPortsAreCommanded_initOff : ∃ (s : State) (t : Nat) (port : Die),
    s.dev.inReset port = false :=
  ⟨fcanAt {}, 1, .field, by decide⟩

theorem witness_CanPortsAreCommanded_push : ∃ (s : State) (t tag : Nat) (port : Die),
    s.dev.inReset port = false ∧
    (s.dev.can port).fifo.length < 32 :=
  ⟨fcanAt {}, 1, 7, .field, by decide⟩

theorem witness_CanPortsAreCommanded_full : ∃ (s : State) (t tag : Nat) (port : Die),
    s.dev.inReset port = false ∧
    32 ≤ (s.dev.can port).fifo.length :=
  ⟨fcanAt { fifo := List.replicate 32 { tag := 0, image := [] } }, 1, 7, .field, by decide⟩

theorem witness_CanPortsAreCommanded_cancel : ∃ (s : State) (t tag : Nat) (port : Die) (x : CanTx) (rest : List CanTx),
    s.dev.inReset port = false ∧
    (s.dev.can port).fifo = x :: rest ∧
    x.tag = tag ∧
    tag < 256 ∧
    x.started = false ∧
    (s.dev.can port).results.length < 32 :=
  ⟨fcanAt { fifo := [{ tag := 7, image := [] }] }, 1, 7, .field, { tag := 7, image := [] }, [], by decide⟩

theorem witness_CanPortsAreCommanded_started : ∃ (s : State) (t tag : Nat) (port : Die) (x : CanTx) (rest : List CanTx),
    s.dev.inReset port = false ∧
    (s.dev.can port).fifo = x :: rest ∧
    x.tag = tag ∧
    tag < 256 ∧
    x.started = true :=
  ⟨fcanAt { fifo := [{ tag := 7, image := [], started := true }] }, 1, 7, .field, { tag := 7, image := [], started := true }, [], by decide⟩

theorem witness_CanPortsAreCommanded_flush : ∃ (s : State) (t : Nat) (port : Die),
    s.dev.inReset port = false :=
  ⟨fcanAt { fifo := [{ tag := 7, image := [] }] }, 1, .field, by decide⟩

theorem witness_CanPortsAreCommanded_result : ∃ (s : State) (t : Nat) (port : Die),
    s.dev.inReset port = false :=
  ⟨fcanAt { results := [5] }, 1, .field, by decide⟩

theorem witness_CanPortsAreCommanded_due : ∃ (s : State) (t slot : Nat) (port : Die),
    s.dev.inReset port = false ∧
    ((s.dev.can port).slot slot).arm = true ∧
    ((s.dev.can port).slot slot).flag = false ∧
    ((s.dev.can port).slot slot).wDue = none ∧
    tscReached ((s.dev.advance t).tsc port) ((s.dev.can port).slot slot).due = true :=
  ⟨fcanAt { slots := [(2, { arm := true })] }, 1, 2, .field, by decide⟩

theorem witness_CanPortsAreCommanded_withdrawn : ∃ (s : State) (t slot : Nat) (port : Die),
    s.dev.inReset port = false ∧
    ((s.dev.can port).slot slot).flag = true ∧
    ((s.dev.can port).slot slot).window ≠ 0 ∧
    (s.dev.can port).onBus ≠ some (some slot) ∧
    tscReached ((s.dev.advance t).tsc port) (((s.dev.can port).slot slot).due + ((s.dev.can port).slot slot).window) = true ∧
    (s.dev.can port).results.length < 32 :=
  ⟨fcanAt { slots := [(2, { arm := true, flag := true, window := 1 })] }, 1000000, 2, .field, by decide⟩

theorem witness_CanFramesOnTheBus_offered : ∃ (s : State) (t : Nat) (port : Die) (y : Option Nat) (image : Bytes),
    s.dev.inReset port = false ∧
    (s.dev.can port).init = false ∧
    (s.dev.can port).listen = false ∧
    (s.dev.can port).state ≠ 2 ∧
    (s.dev.can port).onBus = none ∧
    (s.dev.can port).candidate = some (y, image) :=
  ⟨fcanAt { ctrl := 0, fifo := [{ tag := 7, image := [] }] }, 1, .field, none, [], by decide⟩

theorem witness_CanFramesOnTheBus_sent : ∃ (s : State) (t tdcv : Nat) (port : Die) (x : CanTx) (rest : List CanTx),
    s.dev.inReset port = false ∧
    (s.dev.can port).onBus = some none ∧
    (s.dev.can port).fifo = x :: rest ∧
    x.cancel = false ∧
    (s.dev.can port).results.length < 32 ∧
    (s.dev.can port).applyPending = false ∧
    (s.dev.can port).state = 0 ∧
    (s.dev.can port).tec < 128 ∧
    (s.dev.can port).rxe < 128 :=
  ⟨fcanAt { ctrl := 0, onBus := some none, fifo := [{ tag := 7, image := [], started := true }] }, 1, 0, .field, { tag := 7, image := [], started := true }, [], by decide⟩

theorem witness_CanFramesOnTheBus_error : ∃ (s : State) (t : Nat) (port : Die) (y : Option Nat),
    s.dev.inReset port = false ∧
    (s.dev.can port).onBus = some y ∧
    (s.dev.can port).applyPending = false ∧
    (s.dev.can port).tec < 120 ∧
    (s.dev.can port).rxe < 128 ∧
    (s.dev.can port).state = 0 ∧
    (y.isSome || ((s.dev.can port).fifo.head?.map CanTx.cancel) == some false) = true :=
  ⟨fcanAt { ctrl := 0, onBus := some none, fifo := [{ tag := 7, image := [], started := true }] }, 1, .field, none, by decide⟩

theorem witness_CanFramesOnTheBus_lostArbitration : ∃ (s : State) (t : Nat) (port : Die) (y : Option Nat),
    s.dev.inReset port = false ∧
    (s.dev.can port).onBus = some y ∧
    (s.dev.can port).applyPending = false ∧
    (y.isSome || ((s.dev.can port).fifo.head?.map CanTx.cancel) == some false) = true :=
  ⟨fcanAt { ctrl := 0, onBus := some none, fifo := [{ tag := 7, image := [], started := true }] }, 1, .field, none, by decide⟩

theorem witness_CanFramesOnTheBus_received : ∃ (s : State) (t sof n : Nat) (port : Die) (frame : CanFrame) (x : CanRx),
    s.dev.inReset port = false ∧
    (s.dev.can port).init = false ∧
    (s.dev.can port).state = 0 ∧
    (s.dev.can port).tec < 128 ∧
    (s.dev.can port).rxe < 128 ∧
    (s.dev.can port).rx = [(n, x)] ∧
    x.enable = true ∧
    x.newData = false ∧
    Nat.land (Nat.xor (frame.id % 2 ^ 29) (x.filter % 2 ^ 29)) (x.mask % 2 ^ 29) = 0 ∧
    frame.xtd = bit x.filter 29 :=
  ⟨fcanAt { ctrl := 0, rx := [(3, { enable := true, filter := 5, mask := 0x1FFFFFFF })] }, 1, 9, 3, .field, frame5, { enable := true, filter := 5, mask := 0x1FFFFFFF }, by decide⟩

theorem witness_CanFramesOnTheBus_receiveError : ∃ (s : State) (t : Nat) (port : Die),
    s.dev.inReset port = false ∧
    (s.dev.can port).init = false ∧
    (s.dev.can port).listen = false ∧
    (s.dev.can port).state = 0 ∧
    (s.dev.can port).tec < 128 ∧
    (s.dev.can port).rxe < 127 :=
  ⟨fcanAt { ctrl := 0 }, 1, .field, by decide⟩

theorem witness_CanFramesOnTheBus_exception : ∃ (s : State) (t : Nat),
    s.dev.md.fieldReset = false ∧
    s.dev.fcan.init = false :=
  ⟨fcanAt { ctrl := 0 }, 1, by decide⟩

theorem witness_CanFramesOnTheBus_exceptionHost : ∃ (s : State) (t : Nat),
    s.dev.md.hostReset = false ∧
    s.dev.hcan.init = false :=
  ⟨at_ { inMode 3 with hcan := { ctrl := 0 } }, 1, by decide⟩

theorem witness_CanFramesOnTheBus_recoveredHost : ∃ (s : State) (t : Nat),
    s.dev.md.hostReset = false ∧
    s.dev.hcan.init = false ∧
    s.dev.hcan.state = 2 ∧
    s.dev.hcan.recovering = true :=
  ⟨at_ { inMode 3 with hcan := { ctrl := 0, state := 2, tec := 260, recovering := true } }, 1, by decide⟩

theorem witness_CanFramesOnTheBus_recovered : ∃ (s : State) (t : Nat),
    s.dev.md.fieldReset = false ∧
    s.dev.fcan.init = false ∧
    s.dev.fcan.state = 2 ∧
    s.dev.fcan.recovering = true :=
  ⟨fcanAt { ctrl := 0, state := 2, tec := 260, recovering := true }, 1, by decide⟩

theorem witness_TheLiftQueuesAndServes_accepted : ∃ (s : State) (t core queue : Nat),
    s.dev.coreActs core = true ∧
    queue < 64 ∧
    (s.dev.lq queue).limit ≠ 0 ∧
    s.dev.queueFull queue = false :=
  ⟨liftAt { queues := [(1, { limit := 4 })] }, 1, 2, 1, by decide⟩

theorem witness_TheLiftQueuesAndServes_full : ∃ (s : State) (t core queue : Nat),
    s.dev.coreActs core = true ∧
    queue < 64 ∧
    (s.dev.lq queue).limit ≠ 0 ∧
    s.dev.queueFull queue = true :=
  ⟨liftAt { queues := [(1, { limit := 1, items := [({}, 0)] })] }, 1, 2, 1, by decide⟩

theorem witness_TheLiftQueuesAndServes_disabled : ∃ (s : State) (t core queue : Nat),
    s.dev.coreActs core = true ∧
    queue < 64 ∧
    (s.dev.lq queue).limit = 0 :=
  ⟨liftAt {  }, 1, 2, 1, by decide⟩

theorem witness_TheLiftQueuesAndServes_get : ∃ (s : State) (t core q y : Nat) (x : Item),
    s.dev.coreActs core = true ∧
    (s.dev.core core).item = none ∧
    s.dev.pickQueue core = some q ∧
    s.dev.pickItem q core = some (x, y) ∧
    s.dev.lift.heldEv = [] ∧
    s.dev.lift.mails.all (fun p => p.2.held.isNone) = true :=
  ⟨liftAt { queues := [(1, { limit := 4, items := [({}, 0)] })] }, 1, 2, 1, 0, {}, by decide⟩

theorem witness_TheLiftQueuesAndServes_nothing : ∃ (s : State) (t core : Nat),
    s.dev.coreActs core = true ∧
    (s.dev.core core).item = none ∧
    s.dev.pickQueue core = none :=
  ⟨liftAt {  }, 1, 2, by decide⟩

theorem witness_TheLiftQueuesAndServes_done : ∃ (s : State) (t core : Nat),
    s.dev.coreActs core = true ∧
    (s.dev.core core).item.isSome = true ∧
    s.dev.lift.heldEv = [] ∧
    s.dev.lift.mails.all (fun p => p.2.held.isNone) = true :=
  ⟨at_ { inMode 3 with lift := { cores := [(2, { state := 2, item := some ({}, 0) })] } }, 1, 2, by decide⟩

theorem witness_TheLiftQueuesAndServes_sleep : ∃ (s : State) (t core : Nat),
    s.dev.coreActs core = true ∧
    s.dev.wakeDue core = false :=
  ⟨liftAt {  }, 1, 2, by decide⟩

theorem witness_TheLiftQueuesAndServes_awake : ∃ (s : State) (t core : Nat),
    s.dev.coreActs core = true ∧
    s.dev.wakeDue core = true :=
  ⟨at_ { inMode 3 with lift := { cores := [(2, { state := 2, wake := true })] } }, 1, 2, by decide⟩

theorem witness_TheLiftQueuesAndServes_config : ∃ (s : State) (t queue value : Nat),
    s.dev.md.fieldReset = false ∧
    queue < 64 ∧
    s.dev.lift.heldEv = [] ∧
    s.dev.lift.mails.all (fun p => p.2.held.isNone) = true :=
  ⟨liftAt {  }, 1, 1, 5, by decide⟩

theorem witness_CoresWatchdogsAndMailboxes_kick : ∃ (s : State) (t core : Nat),
    s.dev.coreActs core = true :=
  ⟨liftAt {  }, 1, 2, by decide⟩

theorem witness_CoresWatchdogsAndMailboxes_noKick : ∃ (s : State) (t core value : Nat),
    value % 2 ^ 32 ≠ 0xA5C3 :=
  ⟨liftAt {  }, 1, 2, 7, by decide⟩

theorem witness_CoresWatchdogsAndMailboxes_watchdog : ∃ (s : State) (t core : Nat),
    s.dev.md.fieldReset = false ∧
    core < 8 ∧
    (s.dev.core core).wdEnable = true ∧
    (s.dev.core core).kickAt + (s.dev.core core).wdPeriod * ms ≤ t :=
  ⟨at_ { inMode 3 with lift := { cores := [(2, { state := 2, wdEnable := true, item := some ({}, 0) })] } }, 100000000000, 2, by decide⟩

theorem witness_CoresWatchdogsAndMailboxes_send : ∃ (s : State) (t core m len : Nat),
    s.dev.coreActs core = true ∧
    m < 32 ∧
    bit (s.dev.mail m).cfg 31 = true ∧
    bits (s.dev.mail m).cfg 2 0 = core ∧
    0 < len ∧
    len ≤ 1024 ∧
    (s.dev.mail m).full = false ∧
    bit (s.dev.mail m).cfg 6 = false :=
  ⟨liftAt { mails := [(3, { cfg := 2 ^ 31 + 2 })] }, 1, 2, 3, 10, by decide⟩

theorem witness_CoresWatchdogsAndMailboxes_collision : ∃ (s : State) (t core m len : Nat),
    s.dev.coreActs core = true ∧
    m < 32 ∧
    bit (s.dev.mail m).cfg 31 = true ∧
    bits (s.dev.mail m).cfg 2 0 = core ∧
    0 < len ∧
    len ≤ 1024 ∧
    (s.dev.mail m).full = true ∧
    bit (s.dev.mail m).cfg 6 = false :=
  ⟨liftAt { mails := [(3, { cfg := 2 ^ 31 + 2, full := true })] }, 1, 2, 3, 10, by decide⟩

theorem witness_CoresWatchdogsAndMailboxes_notSender : ∃ (s : State) (t core m len : Nat),
    s.dev.coreActs core = true ∧
    m < 32 ∧
    bit (s.dev.mail m).cfg 31 = true ∧
    bits (s.dev.mail m).cfg 2 0 ≠ core :=
  ⟨liftAt { mails := [(3, { cfg := 2 ^ 31 + 1 })] }, 1, 2, 3, 10, by decide⟩

theorem witness_CoresWatchdogsAndMailboxes_take : ∃ (s : State) (t core m count : Nat),
    s.dev.coreActs core = true ∧
    m < 32 ∧
    (s.dev.mail m).full = true ∧
    (s.dev.mail m).count = count :=
  ⟨liftAt { mails := [(3, { full := true, count := 5 })] }, 1, 2, 3, 5, by decide⟩

theorem witness_CoresWatchdogsAndMailboxes_stale : ∃ (s : State) (t core m count : Nat),
    (s.dev.mail m).count ≠ count :=
  ⟨liftAt { mails := [(3, { full := true, count := 5 })] }, 1, 2, 3, 4, by decide⟩

theorem witness_BarrierMailAndEventReports_send : ∃ (s : State) (t b len : Nat),
    s.dev.md.fieldReset = false ∧
    b < 16 ∧
    0 < len ∧
    len ≤ 3456 :=
  ⟨at_ (inMode 3), 1, 9, 10, by decide⟩

theorem witness_BarrierMailAndEventReports_take : ∃ (s : State) (t b count : Nat),
    s.dev.md.fieldReset = false ∧
    b < 16 ∧
    (Tab.get s.dev.bar.field.recv b {}).count = count ∧
    (Tab.get s.dev.bar.field.recv b {}).full = true :=
  ⟨at_ { inMode 3 with bar := { link := 1, training := false, field := { recv := [(9, { full := true, count := 5 })] } } }, 1, 9, 5, by decide⟩

theorem witness_BarrierMailAndEventReports_report : ∃ (s : State) (t : Nat),
    s.dev.md.fieldReset = false ∧
    s.dev.bar.field.report ≠ [] ∧
    s.dev.sendBusy .field 8 = false :=
  ⟨at_ { inMode 3 with bar := { link := 1, training := false, field := { report := [zeros 32] } } }, 1, by decide⟩

theorem witness_BarrierMailAndEventReports_received : ∃ (s : State) (t : Nat) (msg : Bytes),
    s.dev.md.fieldReset = false ∧
    msg.length = 32 :=
  ⟨at_ (inMode 3), 1, zeros 32, by decide⟩

theorem witness_BarrierMailAndEventReports_atHost : ∃ (s : State) (t : Nat) (msg : Bytes),
    s.dev.md.hostReset = false ∧
    (Tab.get s.dev.bar.host.recv 8 {}).full = true :=
  ⟨at_ { inMode 3 with bar := { link := 1, training := false, host := { recv := [(8, { full := true })] } } }, 1, zeros 32, by decide⟩

theorem witness_BarrierMailAndEventReports_busError : ∃ (s : State) (t core addr width : Nat) (write user : Bool),
    s.dev.coreActs core = true ∧
    busErrorAt (s.dev.mode != 1) addr width write user = true :=
  ⟨liftAt {  }, 1, 2, 0x60000000, 4, false, true, by decide⟩

theorem witness_RegistersAreWritten_memory : ∃ (s : State) (t core addr value : Nat) (user : Bool),
    s.dev.coreActs core = true ∧
    0x10000000 ≤ addr ∧
    addr < 0x11000000 ∧
    addr % 4 = 0 :=
  ⟨liftAt {  }, 1, 2, 0x10000010, 0x12345678, true, by decide⟩

theorem witness_RegistersAreWritten_busError : ∃ (s : State) (t core addr value : Nat) (user : Bool),
    s.dev.coreActs core = true ∧
    busErrorAt (s.dev.mode != 1) addr 4 true user = true :=
  ⟨liftAt {  }, 1, 2, 0x60000000, 5, false, by decide⟩

theorem witness_RegistersAreWritten_staged : ∃ (s : State) (t core value : Nat) (user : Bool),
    s.dev.coreActs core = true :=
  ⟨liftAt {  }, 1, 2, 5, true, by decide⟩

theorem witness_RegistersAreWritten_watchdog : ∃ (s : State) (t core value k : Nat),
    s.dev.coreActs core = true ∧
    k < 8 ∧
    (s.dev.core k).wdEnable = true :=
  ⟨at_ { inMode 3 with lift := { cores := [(2, { state := 2, wdEnable := true })] } }, 1, 2, 5, 2, by decide⟩

theorem witness_RegistersAreWritten_flowLimit : ∃ (s : State) (t core value : Nat) (user : Bool),
    s.dev.coreActs core = true :=
  ⟨liftAt {  }, 1, 2, 5, true, by decide⟩

theorem witness_RegistersAreWritten_route : ∃ (s : State) (t core value n : Nat),
    s.dev.coreActs core = true ∧
    n < 256 :=
  ⟨liftAt {  }, 1, 2, 5, 3, by decide⟩

theorem witness_RegistersAreWritten_routeUser : ∃ (s : State) (t core value n : Nat),
    s.dev.coreActs core = true ∧
    n < 256 :=
  ⟨liftAt {  }, 1, 2, 5, 3, by decide⟩

theorem witness_RegistersAreWritten_fcan : ∃ (s : State) (t core value : Nat) (user : Bool),
    s.dev.coreActs core = true :=
  ⟨liftAt {  }, 1, 2, 5, true, by decide⟩

theorem witness_RegistersAreWritten_flags : ∃ (s : State) (t core value : Nat) (user : Bool),
    s.dev.coreActs core = true :=
  ⟨liftAt {  }, 1, 2, 5, true, by decide⟩

theorem witness_RegistersAreWritten_filter : ∃ (s : State) (t core value k : Nat) (user : Bool),
    s.dev.coreActs core = true ∧
    k < 64 :=
  ⟨liftAt {  }, 1, 2, 5, 3, true, by decide⟩

theorem witness_RegistersAreWritten_hcan : ∃ (s : State) (t core value : Nat) (user : Bool),
    s.dev.md.hostReset = false ∧
    s.dev.md.hostFw = true :=
  ⟨at_ (inMode 3), 1, 2, 5, true, by decide⟩

theorem witness_RegistersAreWritten_noCore : ∃ (s : State) (t core addr value : Nat) (user : Bool),
    s.dev.coreActs core = false :=
  ⟨State.reset, 1, 2, 0x10000000, 5, true, by decide⟩

theorem witness_CaptureUnitsRecord_arm : ∃ (s : State) (t unit : Nat),
    s.dev.md.fieldReset = false ∧
    (s.dev.capU unit).state = 0 ∧
    (s.dev.capU unit).linked = false ∧
    s.dev.capArmable unit = true :=
  ⟨capAt { regs := [(0x10, 1), (0x100, 6)] }, 1, 1, by decide⟩

theorem witness_CaptureUnitsRecord_cannot : ∃ (s : State) (t unit : Nat),
    s.dev.md.fieldReset = false ∧
    (s.dev.capU unit).state = 0 ∧
    s.dev.capArmable unit = false ∧
    (s.dev.capU unit).linked = false :=
  ⟨capAt {}, 1, 1, by decide⟩

theorem witness_CaptureUnitsRecord_force : ∃ (s : State) (t unit : Nat),
    s.dev.md.fieldReset = false ∧
    unit < 4 ∧
    ((s.dev.capU unit).state = 1 ∨ (s.dev.capU unit).state = 2) ∧
    (s.dev.capU unit).linked = false :=
  ⟨capAt { regs := [(0x10, 1), (0x100, 6)], state := 2 }, 1, 1, by decide⟩

theorem witness_CaptureUnitsRecord_abort : ∃ (s : State) (t unit : Nat),
    s.dev.md.fieldReset = false :=
  ⟨capAt { state := 3 }, 1, 1, by decide⟩

theorem witness_CaptureUnitsRecord_release : ∃ (s : State) (t unit : Nat),
    s.dev.md.fieldReset = false ∧
    unit < 4 ∧
    (s.dev.capU unit).state = 4 ∧
    (s.dev.capU unit).rearm = false :=
  ⟨capAt { state := 4 }, 1, 1, by decide⟩

theorem witness_CaptureUnitsRecord_holdoff : ∃ (s : State) (t unit : Nat),
    s.dev.md.fieldReset = false ∧
    unit < 4 ∧
    (s.dev.capU unit).state = 1 ∧
    (s.dev.capU unit).holdMode = 1 ∧
    (s.dev.capU unit).armedAt + (s.dev.capU unit).holdVal * us ≤ t :=
  ⟨capAt { regs := [(0x18, 513)], state := 1 }, 5000000, 1, by decide⟩

theorem witness_CaptureUnitsRecord_within : ∃ (s : State) (t unit : Nat) (sd : List Nat),
    s.dev.md.fieldReset = false ∧
    unit < 4 ∧
    (s.dev.capU unit).state = 2 ∧
    (s.dev.capU unit).fast = true ∧
    (s.dev.capU unit).reg 0x1C = 0 ∧
    (s.dev.capU unit).sub + 1 < (s.dev.capU unit).rawDec :=
  ⟨capAt { regs := [(0xC, 2 ^ 19 + 3 * 2 ^ 20), (0x10, 1), (0x100, 6)], state := 2 }, 1, 1, [], by decide⟩

theorem witness_CaptureUnitsRecord_row : ∃ (s : State) (t unit : Nat) (sd : List Nat),
    s.dev.md.fieldReset = false ∧
    unit < 4 ∧
    (s.dev.capU unit).state = 2 ∧
    (s.dev.capU unit).fast = true ∧
    (s.dev.capU unit).reg 0x1C = 0 ∧
    (s.dev.capU unit).rawDec = 1 ∧
    (s.dev.capU unit).reduce = false ∧
    (s.dev.capU unit).acc = [] ∧
    (s.dev.capU unit).chans ≠ [] :=
  ⟨capAt { regs := [(0xC, 2 ^ 19), (0x10, 1), (0x100, 6)], state := 2 }, 1, 1, [], by decide⟩

theorem witness_ClocksAndSupplies_first : ∃ (s : State) (t pll : Nat) (ppm : Int),
    s.dev.md.fieldReset = false ∧
    1 ≤ pll ∧
    pll ≤ 3 ∧
    s.dev.clk.lost.contains pll = false ∧
    s.dev.clk.failed.contains pll = false ∧
    1000 < ppm.natAbs :=
  ⟨at_ (inMode 3), 1, 3, 1001, by decide⟩

theorem witness_ClocksAndSupplies_retry : ∃ (s : State) (t pll : Nat) (ppm : Int),
    s.dev.md.fieldReset = false ∧
    1 ≤ pll ∧
    pll ≤ 3 ∧
    s.dev.clk.lost.contains pll = false ∧
    s.dev.clk.failed.contains pll = true ∧
    ppm.natAbs ≤ 1000 :=
  ⟨at_ { inMode 3 with clk := { failed := [3] } }, 1, 3, -1000, by decide⟩

theorem witness_ClocksAndSupplies_lostS : ∃ (s : State) (t : Nat) (ppm : Int),
    s.dev.md.fieldReset = false ∧
    s.dev.clk.lost.contains 1 = false ∧
    s.dev.clk.failed.contains 1 = true ∧
    1000 < ppm.natAbs ∧
    (List.range 4).all (fun k => s.dev.segState k != 5) = true :=
  ⟨at_ { bladeUp 3 with clk := { failed := [1] } }, 1, 1001, by decide⟩

theorem witness_ClocksAndSupplies_lostT : ∃ (s : State) (t : Nat) (ppm : Int),
    s.dev.md.fieldReset = false ∧
    s.dev.clk.lost.contains 2 = false ∧
    s.dev.clk.failed.contains 2 = true ∧
    1000 < ppm.natAbs :=
  ⟨at_ { inMode 3 with clk := { failed := [2] } }, 1, 1001, by decide⟩

theorem witness_ClocksAndSupplies_lostD : ∃ (s : State) (t input : Nat) (ppm : Int),
    s.dev.md.fieldReset = false ∧
    s.dev.clk.lost.contains 3 = false ∧
    s.dev.clk.failed.contains 3 = true ∧
    1000 < ppm.natAbs ∧
    input < 16 ∧
    s.dev.rn 0x3080 (3 + input) 0 ≠ 255 ∧
    s.dev.rb 0x3080 2 0 = true :=
  ⟨at_ { Dev.put (inMode 3) [(0x3080, 2, 0, 1), (0x3080, 5, 0, 16)] with clk := { failed := [3] } }, 1, 2, 1001, by decide⟩

theorem witness_ClocksAndSupplies_lostH : ∃ (s : State) (t : Nat) (ppm : Int),
    s.dev.md.hostReset = false ∧
    s.dev.clk.lost.contains 4 = false ∧
    s.dev.clk.failed.contains 4 = true ∧
    1000 < ppm.natAbs :=
  ⟨at_ { inMode 3 with clk := { failed := [4] } }, 1, 1001, by decide⟩

theorem witness_ClocksAndSupplies_relock : ∃ (s : State) (t pll : Nat),
    s.dev.clk.lost.contains pll = true ∧
    (pll = 1 ∨ pll = 3) :=
  ⟨at_ { inMode 3 with clk := { lost := [3] } }, 1, 3, by decide⟩

theorem witness_ClocksAndSupplies_relockT : ∃ (s : State) (t : Nat),
    s.dev.clk.lost.contains 2 = true ∧
    s.dev.md.fieldReset = true ∧
    s.dev.clk.fieldMon = false ∧
    s.dev.clk.fieldWait = none :=
  ⟨at_ { md := { fieldReset := true }, clk := { lost := [2], locked := 13 } }, 1, by decide⟩

theorem witness_ClocksAndSupplies_relockH : ∃ (s : State) (t : Nat),
    s.dev.clk.lost.contains 4 = true ∧
    s.dev.md.hostReset = true ∧
    s.dev.clk.hostMon = false ∧
    s.dev.clk.hostWait = false :=
  ⟨at_ { md := { hostReset := true }, clk := { lost := [4], locked := 7 } }, 1, by decide⟩

theorem witness_ClocksAndSupplies_fieldMonitor : ∃ (s : State) (t rails : Nat),
    s.dev.md.fieldReset = false ∧
    s.dev.st.breath = none :=
  ⟨at_ (inMode 3), 1, 5, by decide⟩

theorem witness_ClocksAndSupplies_hostMonitor : ∃ (s : State) (t rails : Nat),
    s.dev.md.hostReset = false :=
  ⟨at_ (inMode 3), 1, 5, by decide⟩

theorem witness_ClocksAndSupplies_fieldReturns : ∃ (s : State) (t : Nat),
    s.dev.clk.fieldMon = true ∧
    s.dev.clk.locked % 8 = 7 :=
  ⟨at_ { md := { fieldReset := true }, clk := { fieldMon := true } }, 1, by decide⟩

theorem witness_ClocksAndSupplies_fieldWaits : ∃ (s : State) (t : Nat),
    s.dev.clk.fieldMon = true ∧
    s.dev.clk.locked % 8 ≠ 7 :=
  ⟨at_ { md := { fieldReset := true }, clk := { fieldMon := true, locked := 5 } }, 1, by decide⟩

theorem witness_ClocksAndSupplies_hostReturns : ∃ (s : State) (t : Nat),
    s.dev.clk.hostMon = true ∧
    s.dev.md.hostReset = true ∧
    bit s.dev.clk.locked 3 = true :=
  ⟨at_ { md := { hostReset := true }, clk := { hostMon := true } }, 1, by decide⟩

theorem witness_ClocksAndSupplies_fieldLock : ∃ (s : State) (t : Nat) (x : Nat × Nat × Nat),
    s.dev.clk.fieldWait = some x :=
  ⟨at_ { md := { fieldReset := true }, clk := { fieldWait := some (0, 5, 5), locked := 5 } }, 1, (0, 5, 5), by decide⟩

theorem witness_ClocksAndSupplies_hostLock : ∃ (s : State) (t : Nat),
    s.dev.clk.hostWait = true ∧
    s.dev.md.hostReset = true :=
  ⟨at_ { md := { hostReset := true }, clk := { hostWait := true, locked := 7 } }, 1, by decide⟩

theorem witness_ClocksAndSupplies_fieldTemp : ∃ (s : State) (t : Nat) (temp : Int),
    s.dev.md.fieldReset = false :=
  ⟨at_ (inMode 3), 1, -4, by decide⟩

theorem witness_ClocksAndSupplies_hostTemp : ∃ (s : State) (t : Nat) (temp : Int),
    s.dev.md.hostReset = false :=
  ⟨at_ (inMode 3), 1, -4, by decide⟩

theorem witness_RecoveryReadsTheArray_blank : ∃ (s : State) (t : Nat) (badLines : List Nat),
    s.dev.md.fieldReset = false ∧
    s.dev.md.fieldFw = true ∧
    s.dev.st.recovering = true ∧
    s.nv = [] :=
  ⟨at_ { inMode 1 with st := { recovering := true } }, 1, [], by decide⟩

theorem witness_RecoveryReadsTheArray_lost : ∃ (s : State) (t : Nat) (badLines : List Nat),
    s.dev.md.fieldReset = false ∧
    s.dev.md.fieldFw = true ∧
    s.dev.st.recovering = true ∧
    (nvLines s.nv).any (fun p => decide (p.1 < 1024)) = true ∧
    badLines.contains 0 = true ∧
    badLines.contains 512 = true :=
  ⟨{ at_ { inMode 1 with st := { recovering := true } } with nv := [(0, 1)] }, 1, [0, 512], by decide⟩

theorem witness_RecoveryReadsTheArray_none : ∃ (s : State) (t : Nat) (badLines : List Nat),
    (s.dev.md.fieldFw = false ∨ s.dev.st.recovering = false) :=
  ⟨State.reset, 1, [], by decide⟩

theorem witness_AnItemInServiceTooLongOverrunsOnce_overrun : ∃ (s : State) (t core y : Nat) (x : Item),
    s.dev.md.fieldReset = false ∧
    core < 8 ∧
    (s.dev.core core).item = some (x, y) ∧
    s.dev.lift.flowLimit ≠ 0 ∧
    (s.dev.core core).overrun = false ∧
    y + s.dev.lift.flowLimit * us < t :=
  ⟨at_ { inMode 3 with lift := { flowLimit := 5, cores := [(2, { state := 2, item := some ({}, 0), overrun := false })] } }, 5000001, 2, 0, {}, by decide⟩

theorem witness_AnItemInServiceTooLongOverrunsOnce_once : ∃ (s : State) (t core : Nat),
    (s.dev.core core).overrun = true :=
  ⟨at_ { inMode 3 with lift := { flowLimit := 5, cores := [(2, { state := 2, item := some ({}, 0), overrun := true })] } }, 5000001, 2, by decide⟩

theorem witness_AnItemInServiceTooLongOverrunsOnce_early : ∃ (s : State) (t core y : Nat) (x : Item),
    (s.dev.core core).item = some (x, y) ∧
    max s.dev.now t < y + s.dev.lift.flowLimit * us :=
  ⟨at_ { inMode 3 with lift := { flowLimit := 5, cores := [(2, { state := 2, item := some ({}, 0), overrun := false })] } }, 4999999, 2, 0, {}, by decide⟩

theorem witness_AnItemInServiceTooLongOverrunsOnce_off : ∃ (s : State) (t core : Nat),
    s.dev.lift.flowLimit = 0 :=
  ⟨at_ { inMode 3 with lift := { flowLimit := 0, cores := [(2, { state := 2, item := some ({}, 0), overrun := false })] } }, 5000001, 2, by decide⟩

theorem witness_AnItemInServiceTooLongOverrunsOnce_idle : ∃ (s : State) (t core : Nat),
    (s.dev.core core).item = none :=
  ⟨at_ (inMode 3), 5000001, 2, by decide⟩

theorem witness_BothQuadratureLinesAtOnce_raised : ∃ (s : State) (t channel levels : Nat),
    s.dev.md.fieldReset = false ∧
    channel < 8 ∧
    levels < 64 ∧
    (s.dev.rn 0x2700 2 channel = 1 ∨ s.dev.rn 0x2700 2 channel = 2) ∧
    s.dev.rn 0x2700 4 channel = 0 ∧
    (s.dev.advance t).accepted channel levels = [3, 4] ∧
    (match Tab.find s.dev.limits (0xE1 * 16777216 + channel) with | some x => decide (x + sec ≤ max s.dev.now t) | none => true) = true :=
  ⟨at_ { Dev.put (inMode 3) [(0x2700, 2, 1, 1), (0x2700, 3, 1, 100)] with fb := [(1, {})] }, 1, 1, 24, by decide⟩

theorem witness_BothQuadratureLinesAtOnce_silent : ∃ (s : State) (t channel levels x : Nat),
    s.dev.md.fieldReset = false ∧
    channel < 8 ∧
    levels < 64 ∧
    (s.dev.rn 0x2700 2 channel = 1 ∨ s.dev.rn 0x2700 2 channel = 2) ∧
    s.dev.rn 0x2700 4 channel = 0 ∧
    (s.dev.advance t).accepted channel levels = [3, 4] ∧
    Tab.find s.dev.limits (0xE1 * 16777216 + channel) = some x ∧
    max s.dev.now t < x + sec :=
  ⟨at_ { Dev.put (inMode 3) [(0x2700, 2, 1, 1), (0x2700, 3, 1, 100)] with fb := [(1, {})], limits := [(0xE1 * 16777216 + 1, 5)] }, 1, 1, 24, 5, by decide⟩

theorem witness_AStepRunsTheFirstCommand_first : ∃ (c : Instr) (rest : List Instr) (s : State), s.pending = c :: rest :=
  ⟨.retrainTimer 5, [], { State.reset with pending := [.retrainTimer 5] }, rfl⟩

theorem witness_AStepRunsTheFirstCommand_idle : ∃ s : State, s.pending = [] := ⟨State.reset, rfl⟩

theorem witness_EveryStepKeepsTheMemoriesCanonical :
    ∃ s : State, s.MemoryCanonical ∧ s.pending.length = 1 ∧ s.nv.length = 2 :=
  ⟨{ State.reset with pending := [.retrainTimer 5], nv := [(3, 1), (7, 2)] }, ⟨rfl, rfl⟩, rfl, rfl⟩

theorem witness_OnlyStoringCommandsChangeMemory :
    ∃ (c : Instr) (s e : State), exec c s = .next e ∧ c.storesRam = false ∧ c.storesArray = false :=
  ⟨.retrainTimer 5, State.reset, _, rfl, rfl, rfl⟩
end

section
/-! SUPPORT. How a command over the device is answered, and what a step keeps of the elements, the history and the
motion side: the frame that the statements about the barrier are read off. -/

namespace Sys2Proof.Machine

/-! ### Answers -/

/-- A command over the device alone, whose next device meets `P`. -/
theorem runsKeep_onDev {i : Instr} {t : Nat} {f : Dev → Dev} {s : State} {P : Dev → Prop} (hi : exec i s = onDev t f s)
    (h : P (f (s.dev.advance t))) : RunsKeep i s P :=
  ⟨_, hi.trans (onDev_next t f s), rfl, fun _ => rfl, fun _ => rfl, h⟩

/-- A command over the memories that stores nothing, whose next device meets `P`. -/
theorem runsKeep_onMem {i : Instr} {t : Nat} {f : Mem → Mem → Dev → Dev × List (Bool × Nat × Bytes)} {s : State}
    {P : Dev → Prop} {e : Dev} (hi : exec i s = onMem t f s) (hf : f s.sram s.nv (s.dev.advance t) = (e, [])) (h : P e) :
    RunsKeep i s P := by
  refine ⟨_, hi.trans (onMem_nil t f s (by rw [hf])), rfl, fun _ => rfl, fun _ => rfl, ?_⟩
  show P (f s.sram s.nv (s.dev.advance t)).1
  rw [hf]
  exact h

/-! ### Elements -/

@[simp] theorem Dev.bd_advance (d : Dev) (t : Nat) (die : Die) : (d.advance t).bd die = d.bd die := by cases die <;> rfl
@[simp] theorem Dev.inReset_advance (d : Dev) (t : Nat) (die : Die) : (d.advance t).inReset die = d.inReset die := by
  cases die <;> rfl

theorem Dev.rn_eq_of_rd {d e : Dev} {o el i : Nat} (h : e.rd o el i = d.rd o el i) : e.rn o el i = d.rn o el i :=
  congrArg Int.toNat h

/-- An increment leaves every other element. -/
theorem Dev.rd_inc_other (d : Dev) (o e i p f j : Nat) (h : okey p f j ≠ okey o e i) :
    (d.inc o e i).rd p f j = d.rd p f j :=
  Dev.rd_wr_other d o e i p f j _ h

variable {xs ys : List (Nat × Nat)} {d e f : Dev}

theorem SameRegs.of_od (h : e.ob.od = d.ob.od) : SameRegs xs d e := by
  intro o el i _ _ _ _
  simp only [Dev.rd, h]

theorem SameRegs.trans (h : SameRegs xs d e) (g : SameRegs xs e f) : SameRegs xs d f :=
  fun o el i hel hi hx ho => (g o el i hel hi hx ho).trans (h o el i hel hi hx ho)

/-- A write to an element that the list names. -/
theorem SameRegs.wr {o el i : Nat} (v : Int) (hel : el < 256) (hi : i < 65536) (h : (o, el) ∈ xs) :
    SameRegs xs d (d.wr o el i v) := by
  intro p fl j hfl hj hp _
  refine Dev.rd_wr_other d o el i p fl j v fun hk => hp ?_
  obtain ⟨rfl, rfl, rfl⟩ := (okey_inj hfl hj hel hi).mp hk
  exact h

theorem SameHostRegs.of_hod (h : e.ob.hod = d.ob.hod) : SameHostRegs xs d e := by
  intro o el i _ _ _
  simp only [Dev.hrd, h]

theorem SameHostRegs.trans (h : SameHostRegs xs d e) (g : SameHostRegs xs e f) : SameHostRegs xs d f :=
  fun o el i hel hi hx => (g o el i hel hi hx).trans (h o el i hel hi hx)

/-- A write to an element of the host die that the list names. -/
theorem SameHostRegs.hwr {o el i : Nat} (v : Int) (hel : el < 256) (hi : i < 65536) (h : (o, el) ∈ xs) :
    SameHostRegs xs d (d.hwr o el i v) := by
  intro p fl j hfl hj hp
  rw [Dev.hrd_hwr, if_neg]
  intro hk
  obtain ⟨rfl, rfl, rfl⟩ := (okey_inj hfl hj hel hi).mp hk
  exact hp h

theorem SameMotion.fb (h : SameMotion d e) : e.fb = d.fb := by
  obtain ⟨_, _, _, _, _, _, h⟩ := h
  exact h

theorem SameMotion.refl (d : Dev) : SameMotion d d := ⟨rfl, rfl, rfl, rfl, rfl, rfl, rfl⟩

theorem SameMotion.trans (h : SameMotion d e) (g : SameMotion e f) : SameMotion d f := by
  obtain ⟨h1, h2, h3, h4, h5, h6, h7⟩ := h
  obtain ⟨g1, g2, g3, g4, g5, g6, g7⟩ := g
  exact ⟨g1.trans h1, g2.trans h2, g3.trans h3, g4.trans h4, g5.trans h5, g6.trans h6, g7.trans h7⟩

/-! ### The frame -/

/-- From `d` to `e` no element of the field die outside `xs`, none of the host die outside `ys`, and nothing of the motion
side changes; the history only grows, and neither die enters or leaves its reset. -/
def Keeps (xs ys : List (Nat × Nat)) (d e : Dev) : Prop :=
  SameRegs xs d e ∧ SameHostRegs ys d e ∧ SameMotion d e ∧ (∃ l, e.ring.queue = d.ring.queue ++ l) ∧
    e.md.fieldReset = d.md.fieldReset ∧ e.md.hostReset = d.md.hostReset

theorem Keeps.regs (h : Keeps xs ys d e) : SameRegs xs d e := h.1

theorem Keeps.hostRegs (h : Keeps xs ys d e) : SameHostRegs ys d e := h.2.1

theorem Keeps.motion (h : Keeps xs ys d e) : SameMotion d e := by
  obtain ⟨_, _, h, _⟩ := h
  exact h

theorem Keeps.queue (h : Keeps xs ys d e) : ∃ l, e.ring.queue = d.ring.queue ++ l := by
  obtain ⟨_, _, _, h, _⟩ := h
  exact h

theorem Keeps.fieldReset (h : Keeps xs ys d e) : e.md.fieldReset = d.md.fieldReset := by
  obtain ⟨_, _, _, _, h, _⟩ := h
  exact h

theorem Keeps.hostReset (h : Keeps xs ys d e) : e.md.hostReset = d.md.hostReset := by
  obtain ⟨_, _, _, _, _, h⟩ := h
  exact h

theorem Keeps.trans (h : Keeps xs ys d e) (g : Keeps xs ys e f) : Keeps xs ys d f := by
  obtain ⟨l, hl⟩ := h.queue
  obtain ⟨m, hm⟩ := g.queue
  exact ⟨h.regs.trans g.regs, h.hostRegs.trans g.hostRegs, h.motion.trans g.motion,
    ⟨l ++ m, by rw [hm, hl, List.append_assoc]⟩, g.fieldReset.trans h.fieldReset, g.hostReset.trans h.hostReset⟩

/-- A frame with fewer elements is one with more. -/
theorem Keeps.weaken {xs' ys' : List (Nat × Nat)} (h : Keeps xs ys d e) (hx : xs ⊆ xs') (hy : ys ⊆ ys') :
    Keeps xs' ys' d e :=
  ⟨fun o el i hel hi hn ho => h.regs o el i hel hi (fun hm => hn (hx hm)) ho,
    fun o el i hel hi hn => h.hostRegs o el i hel hi (fun hm => hn (hy hm)), h.motion, h.queue, h.fieldReset, h.hostReset⟩

/-- A step that leaves the objects, the motion side, the history and the resets as they are. -/
theorem Keeps.of_same (ho : e.ob = d.ob) (hm : SameMotion d e) (hq : e.ring.queue = d.ring.queue)
    (hf : e.md.fieldReset = d.md.fieldReset) (hh : e.md.hostReset = d.md.hostReset) : Keeps xs ys d e :=
  ⟨SameRegs.of_od (by rw [ho]), SameHostRegs.of_hod (by rw [ho]), hm, ⟨[], by rw [hq, List.append_nil]⟩, hf, hh⟩

theorem Keeps.refl (d : Dev) : Keeps xs ys d d := .of_same rfl (.refl d) rfl rfl rfl

theorem Keeps.advance (d : Dev) (t : Nat) : Keeps xs ys d (d.advance t) :=
  .of_same rfl ⟨rfl, rfl, rfl, rfl, rfl, rfl, rfl⟩ rfl rfl rfl

/-- A change of the barrier's own registers. -/
theorem Keeps.bar (d : Dev) (b : Barrier) : Keeps xs ys d { d with bar := b } :=
  .of_same rfl ⟨rfl, rfl, rfl, rfl, rfl, rfl, rfl⟩ rfl rfl rfl

theorem Keeps.setBd (d : Dev) (die : Die) (x : BarDie) : Keeps xs ys d (d.setBd die x) := by
  cases die <;> exact .bar d _

theorem Keeps.wr {o el i : Nat} (v : Int) (h : (o, el) ∈ xs) (hel : el < 256) (hi : i < 65536) :
    Keeps xs ys d (d.wr o el i v) :=
  ⟨.wr v hel hi h, .of_hod rfl, ⟨rfl, rfl, rfl, rfl, rfl, rfl, rfl⟩, ⟨[], (List.append_nil _).symm⟩, rfl, rfl⟩

theorem Keeps.inc {o el i : Nat} (h : (o, el) ∈ xs) (hel : el < 256) (hi : i < 65536) : Keeps xs ys d (d.inc o el i) :=
  .wr _ h hel hi

theorem Keeps.hwr {o el i : Nat} (v : Int) (h : (o, el) ∈ ys) (hel : el < 256) (hi : i < 65536) :
    Keeps xs ys d (d.hwr o el i v) :=
  ⟨.of_od rfl, .hwr v hel hi h, ⟨rfl, rfl, rfl, rfl, rfl, rfl, rfl⟩, ⟨[], (List.append_nil _).symm⟩, rfl, rfl⟩

/-- What the delivery of an event can change, it may. -/
theorem EventFrame.keeps (h : EventFrame d e) : Keeps xs ys d e := by
  refine ⟨?_, .of_hod (by rw [h.ob]), ⟨h.segs, h.eng, h.gov, h.line, h.prof, h.safe, h.fb⟩, h.queue, by rw [h.md],
    by rw [h.md]⟩
  intro o el i hel hi _ ho
  unfold Dev.rd
  rw [h.od _ (by rwa [okey_object o el i hel hi])]

theorem Keeps.raise (d : Dev) (n : Nat) (ps : Bytes) : Keeps xs ys d (d.raise n ps) := (raise_frame d n ps).keeps

/-- A conditional step. -/
theorem Keeps.ite (p : Prop) [Decidable p] (h : Keeps xs ys d e) (g : Keeps xs ys d f) :
    Keeps xs ys d (if p then e else f) := by
  split
  · exact h
  · exact g

theorem Keeps.foldl {α : Type} (g : Dev → α → Dev) (h : ∀ d x, Keeps xs ys d (g d x)) (l : List α) (d : Dev) :
    Keeps xs ys d (l.foldl g d) := by
  induction l generalizing d with
  | nil => exact .refl d
  | cons x l ih => exact (h d x).trans (ih (g d x))

/-- An event raised later on the way, and nothing taken out of the history since. -/
theorem Raised.within {n : Nat} {ps : Bytes} {d a e f : Dev} (h : Keeps xs ys d a) (r : Raised a e n ps)
    (ha : ∃ l, e.ring.queue = a.ring.queue ++ l) (hf : ∃ l, f.ring.queue = e.ring.queue ++ l) : Raised d f n ps := by
  obtain ⟨x, hx, hn, hps⟩ := r
  obtain ⟨l, hl⟩ := h.queue
  obtain ⟨m, hm⟩ := ha
  obtain ⟨k, hk⟩ := hf
  refine ⟨x, ?_, hn, hps⟩
  rw [hm, List.drop_left] at hx
  rw [hk, hm, hl]
  simp [hx]

end Sys2Proof.Machine
end

section
/-! SUPPORT. Events of the host die, and both ends of the barrier over a training (R15, R24, R497). -/

namespace Sys2Proof.Machine

/-- The host die's waiting events leave in a message, or stay (R497). -/
theorem flushHostEvents_eq (d : Dev) :
    ∃ x, d.flushHostEvents = { d with bar.host := x } ∧ x.next = d.bar.host.next ∧ x.expected = d.bar.host.expected := by
  unfold Dev.flushHostEvents
  dsimp only
  split
  · exact ⟨d.bar.host, rfl, rfl, rfl⟩
  · exact ⟨_, rfl, rfl, rfl⟩

/-- An event of the host die changes its end of the barrier alone: the report that it collects, and with it the messages
before its sender. -/
theorem raiseHost_eq (d : Dev) (n : Nat) (ps : Bytes) :
    ∃ k x, d.raiseHost n ps = { d with free := k, bar.host := x } ∧ x.next = d.bar.host.next ∧
      x.expected = d.bar.host.expected := by
  unfold Dev.raiseHost
  split
  · exact ⟨d.free, d.bar.host, rfl, rfl, rfl⟩
  · obtain ⟨x, h, hn, he⟩ := flushHostEvents_eq { d.freeNat.2 with bar.host.report := d.bar.host.report ++
      [entryBytes (d.freeNat.1 % 2 ^ 32) 0
        { num := n, data := fit ps 10, time := d.hostTime.1, quality := d.hostTime.2, at_ := d.now }] }
    exact ⟨_, x, h, hn, he⟩

@[simp] theorem Dev.raiseHost_ob (d : Dev) (n : Nat) (ps : Bytes) : (d.raiseHost n ps).ob = d.ob := by
  obtain ⟨_, _, h, _⟩ := raiseHost_eq d n ps
  rw [h]

theorem Keeps.raiseHost {xs ys : List (Nat × Nat)} (d : Dev) (n : Nat) (ps : Bytes) :
    Keeps xs ys d (d.raiseHost n ps) := by
  obtain ⟨k, x, h, _⟩ := raiseHost_eq d n ps
  rw [h]
  exact .of_same rfl ⟨rfl, rfl, rfl, rfl, rfl, rfl, rfl⟩ rfl rfl rfl

theorem Keeps.raiseOn {xs ys : List (Nat × Nat)} (d : Dev) (die : Die) (n : Nat) (ps : Bytes) :
    Keeps xs ys d (d.raiseOn die n ps) := by
  cases die
  · exact .raiseHost d n ps
  · exact .raise d n ps

/-- The barrier's standing and the sequence numbers of both dies are as they were. -/
def SameLink (d e : Dev) : Prop :=
  e.bar = { d.bar with host := e.bar.host, field := e.bar.field } ∧
    ∀ die, (e.bd die).next = (d.bd die).next ∧ (e.bd die).expected = (d.bd die).expected

theorem SameLink.bar {d e : Dev} (h : SameLink d e) : e.bar = { d.bar with host := e.bar.host, field := e.bar.field } :=
  h.1

theorem SameLink.next {d e : Dev} (h : SameLink d e) (die : Die) : (e.bd die).next = (d.bd die).next := (h.2 die).1

theorem SameLink.expected {d e : Dev} (h : SameLink d e) (die : Die) : (e.bd die).expected = (d.bd die).expected :=
  (h.2 die).2

theorem SameLink.refl (d : Dev) : SameLink d d := ⟨rfl, fun _ => ⟨rfl, rfl⟩⟩

theorem SameLink.trans {d e f : Dev} (h : SameLink d e) (g : SameLink e f) : SameLink d f :=
  ⟨by rw [g.bar, h.bar], fun die => ⟨(g.next die).trans (h.next die), (g.expected die).trans (h.expected die)⟩⟩

theorem SameLink.setBd (d : Dev) (die : Die) (x : BarDie) (hn : x.next = (d.bd die).next)
    (he : x.expected = (d.bd die).expected) : SameLink d (d.setBd die x) := by
  cases die
  · exact ⟨rfl, fun | .host => ⟨hn, he⟩ | .field => ⟨rfl, rfl⟩⟩
  · exact ⟨rfl, fun | .host => ⟨rfl, rfl⟩ | .field => ⟨hn, he⟩⟩

theorem SameLink.raise (d : Dev) (n : Nat) (ps : Bytes) : SameLink d (d.raise n ps) := by
  have h := (raise_frame d n ps).bar
  refine ⟨by rw [h], fun die => ?_⟩
  cases die
  · exact ⟨congrArg (·.host.next) h, congrArg (·.host.expected) h⟩
  · exact ⟨congrArg (·.field.next) h, congrArg (·.field.expected) h⟩

theorem SameLink.raiseHost (d : Dev) (n : Nat) (ps : Bytes) : SameLink d (d.raiseHost n ps) := by
  obtain ⟨k, x, h, hn, he⟩ := raiseHost_eq d n ps
  rw [h]
  exact ⟨rfl, fun | .host => ⟨hn, he⟩ | .field => ⟨rfl, rfl⟩⟩

theorem SameLink.raiseOn (d : Dev) (die : Die) (n : Nat) (ps : Bytes) : SameLink d (d.raiseOn die n ps) := by
  cases die
  · exact .raiseHost d n ps
  · exact .raise d n ps

theorem SameLink.foldl {α : Type} (g : Dev → α → Dev) (h : ∀ d x, SameLink d (g d x)) (l : List α) (d : Dev) :
    SameLink d (l.foldl g d) := by
  induction l generalizing d with
  | nil => exact .refl d
  | cons x l ih => exact (h d x).trans (ih (g d x))

/-- The end of a training restarts the sequence numbers of the die whose sender it settles (R15, R24). -/
theorem settleSender_restarts (d : Dev) (die : Die) (exp : Nat) :
    ∃ x : BarDie, x.next = 0 ∧ x.expected = 0 ∧ SameLink (d.setBd die x) (d.settleSender die exp) :=
  ⟨_, rfl, rfl, .foldl _ (fun d m => .raiseOn d die 0x27 (leBytes m 1)) _ _⟩

theorem Keeps.settleSender {xs ys : List (Nat × Nat)} (d : Dev) (die : Die) (exp : Nat) :
    Keeps xs ys d (d.settleSender die exp) :=
  (Keeps.setBd d die _).trans (.foldl _ (fun d m => .raiseOn d die 0x27 (leBytes m 1)) _ _)

theorem SameLink.dropPartials (d : Dev) (die : Die) : SameLink d (d.dropPartials die) := .setBd d die _ rfl rfl

theorem SameLink.awaitHeartbeat (d : Dev) (die : Die) : SameLink d (d.awaitHeartbeat die) := .setBd d die _ rfl rfl

/-- Both dies' ends of the barrier at the end of a training, before the barrier is up. -/
def Dev.settleLink (d : Dev) : Dev :=
  ((((((d.settleSender .host d.bar.field.expected).settleSender .field d.bar.host.expected).dropPartials
    .host).dropPartials .field).awaitHeartbeat .host).awaitHeartbeat .field)

theorem Keeps.settleLink {xs ys : List (Nat × Nat)} (d : Dev) : Keeps xs ys d d.settleLink :=
  ((((((Keeps.settleSender d .host _).trans (.settleSender _ .field _)).trans (.setBd _ .host _)).trans
    (.setBd _ .field _)).trans (.setBd _ .host _)).trans (.setBd _ .field _))

/-- Sequence numbers restart at 0 in both directions (R15). -/
theorem settleLink_numbers (d : Dev) (die : Die) :
    (d.settleLink.bd die).next = 0 ∧ (d.settleLink.bd die).expected = 0 := by
  obtain ⟨x, hxn, hxe, hx⟩ := settleSender_restarts d .host d.bar.field.expected
  obtain ⟨y, hyn, hye, hy⟩ :=
    settleSender_restarts (d.settleSender .host d.bar.field.expected) .field d.bar.host.expected
  have tail : SameLink ((d.settleSender .host d.bar.field.expected).settleSender .field d.bar.host.expected)
      d.settleLink :=
    (((SameLink.dropPartials _ .host).trans (.dropPartials _ .field)).trans (.awaitHeartbeat _ .host)).trans
      (.awaitHeartbeat _ .field)
  have all := hy.trans tail
  rw [all.next, all.expected]
  cases die
  · exact ⟨(hx.next .host).trans hxn, (hx.expected .host).trans hxe⟩
  · exact ⟨hyn, hye⟩

/-- What a training that completes leaves of modes and load: the hold time is known, and blocks under way go again. -/
def Dev.rejoinHost (d : Dev) : Dev :=
  let d := if d.md.fieldHeld then
      { d with md.holdMs := some ((d.now - d.bar.downAt.getD d.now) / ms), md.fieldHeld := false }
    else d
  if d.ld.session.isSome then { d with ld.toForward := d.ld.toForward ++ d.ld.crossing, ld.crossing := [] } else d

theorem rejoinHost_eq (d : Dev) : ∃ md ld, d.rejoinHost = { d with md := md, ld := ld } ∧
    md.fieldReset = d.md.fieldReset ∧ md.hostReset = d.md.hostReset := by
  unfold Dev.rejoinHost
  dsimp only
  split <;> split <;> exact ⟨_, _, rfl, rfl, rfl⟩

/-- The barrier comes up (R15). -/
def Dev.linkUp (d : Dev) : Dev :=
  { d with
    bar.link := 1, bar.training := false, bar.since := d.now, bar.fails := 0, bar.firstDone := true
    bar.lasting := false, bar.downAt := none, bar.fieldDue := true }

/-- The device once the barrier is up: LinkState, FieldState, and event 20h at both dies (R15). -/
def Dev.announceLink (d : Dev) : Dev :=
  (((d.rejoinHost.linkUp.wr 0x8110 1 0 1).hwr 0x30 10 0 0).raise 0x20 [0]).raiseHost 0x20 [1]

theorem trainingDone_eq (d : Dev) (ht : d.bar.training = true) (hh : d.md.hostReset = false)
    (hf : d.md.fieldReset = false) : trainingDone d = d.settleLink.announceLink := by
  have run : (!d.bar.training || d.md.hostReset || d.md.fieldReset) = false := by rw [ht, hh, hf]; rfl
  unfold trainingDone
  simp only [run, Bool.false_eq_true, if_false]
  rw [show ((((((d.settleSender .host d.bar.field.expected).settleSender .field d.bar.host.expected).dropPartials
    .host).dropPartials .field).awaitHeartbeat .host).awaitHeartbeat .field) = d.settleLink from rfl]
  generalize d.settleLink = a
  rfl

end Sys2Proof.Machine
end

section
/-! PROOFS for O3. A training completes, fails, or starts again (R15). -/

namespace Sys2Proof.Machine

/-- What the end of a training and its announcement keep. -/
theorem Keeps.rejoinHost {xs ys : List (Nat × Nat)} (d : Dev) : Keeps xs ys d d.rejoinHost := by
  obtain ⟨md, ld, h, hf, hh⟩ := rejoinHost_eq d
  rw [h]
  exact .of_same rfl ⟨rfl, rfl, rfl, rfl, rfl, rfl, rfl⟩ rfl hf hh

/-- The device when FieldState has been set, before event 20h. -/
def Dev.linkShown (d : Dev) : Dev := (d.rejoinHost.linkUp.wr 0x8110 1 0 1).hwr 0x30 10 0 0

theorem Keeps.linkShown (d : Dev) : Keeps [(0x8110, 1)] [(0x30, 10)] d d.linkShown :=
  (((Keeps.rejoinHost d).trans (.bar _ _)).trans (.wr 1 (by decide) (by decide) (by decide))).trans
    (.hwr 0 (by decide) (by decide) (by decide))

/-- The barrier's standing once it is up; the sequence numbers are those before. -/
theorem linkShown_bar (d : Dev) :
    d.linkShown.bar.link = 1 ∧ d.linkShown.bar.training = false ∧ d.linkShown.bar.fails = 0 ∧
      d.linkShown.bar.host = d.bar.host ∧ d.linkShown.bar.field = d.bar.field := by
  obtain ⟨md, ld, h, _⟩ := rejoinHost_eq d
  unfold Dev.linkShown
  rw [h]
  exact ⟨rfl, rfl, rfl, rfl, rfl⟩

/-- LinkState and FieldState when both are set. -/
theorem linkShown_reads (d : Dev) : d.linkShown.rd 0x8110 1 0 = 1 ∧ d.linkShown.hrd 0x30 10 0 = 0 := by
  unfold Dev.linkShown
  exact ⟨by rw [Dev.rd_hwr, Dev.rd_wr_same], by rw [Dev.hrd_hwr_same]⟩

theorem SameLink.announce (d : Dev) : SameLink d.linkShown d.announceLink :=
  (SameLink.raise _ 0x20 [0]).trans (.raiseHost _ 0x20 [1])

theorem Keeps.announce {xs ys : List (Nat × Nat)} (d : Dev) : Keeps xs ys d.linkShown d.announceLink :=
  (Keeps.raise _ 0x20 [0]).trans (.raiseHost _ 0x20 [1])

/-- A training that completes at both dies out of reset (R15, R24, R52). -/
theorem trainingDone_bringsUp (d : Dev) (ht : d.bar.training = true) (hh : d.md.hostReset = false)
    (hf : d.md.fieldReset = false) :
    (trainingDone d).bar.link = 1 ∧ (trainingDone d).bar.training = false ∧ (trainingDone d).bar.fails = 0 ∧
      (∀ die, ((trainingDone d).bd die).next = 0 ∧ ((trainingDone d).bd die).expected = 0) ∧
      (trainingDone d).rn 0x8110 1 0 = 1 ∧ (trainingDone d).hrd 0x30 10 0 = 0 := by
  rw [trainingDone_eq d ht hh hf]
  obtain ⟨h1, h2, h3, h4, h5⟩ := linkShown_bar d.settleLink
  obtain ⟨h6, h7⟩ := linkShown_reads d.settleLink
  have hl := SameLink.announce d.settleLink
  have k : Keeps [] [] d.settleLink.linkShown d.settleLink.announceLink := .announce d.settleLink
  refine ⟨by rw [hl.bar]; exact h1, by rw [hl.bar]; exact h2, by rw [hl.bar]; exact h3, fun die => ?_, ?_, ?_⟩
  · rw [hl.next, hl.expected]
    have hbd : d.settleLink.linkShown.bd die = d.settleLink.bd die := by
      cases die
      · exact h4
      · exact h5
    rw [hbd]
    exact settleLink_numbers d die
  · rw [Dev.rn, k.regs 0x8110 1 0 (by decide) (by decide) (by decide) (by decide), h6]
    rfl
  · rw [k.hostRegs 0x30 10 0 (by decide) (by decide) (by decide), h7]

theorem Keeps.trainingDone (d : Dev) (ht : d.bar.training = true) (hh : d.md.hostReset = false)
    (hf : d.md.fieldReset = false) : Keeps [(0x8110, 1)] [(0x30, 10)] d (trainingDone d) := by
  rw [trainingDone_eq d ht hh hf]
  exact ((Keeps.settleLink d).trans (.linkShown _)).trans (.announce _)

theorem raised_trainingDone (d : Dev) (ht : d.bar.training = true) (hh : d.md.hostReset = false)
    (hf : d.md.fieldReset = false) : Raised d (trainingDone d) 0x20 [0] := by
  rw [trainingDone_eq d ht hh hf]
  have before : Keeps [(0x8110, 1)] [(0x30, 10)] d d.settleLink.linkShown := (Keeps.settleLink d).trans (.linkShown _)
  exact .within before (raised_raise _ 0x20 [0] (before.fieldReset.trans hf)) (raise_frame _ 0x20 [0]).queue
    (Keeps.raiseHost (xs := []) (ys := []) _ 0x20 [1]).queue

/-- A start of a training that is counted in 8110h:2 while the field die is out of reset (R15). -/
def Dev.countTraining (d : Dev) : Dev := if d.md.fieldReset then d else d.inc 0x8110 2 0

theorem Keeps.countTraining (d : Dev) : Keeps [(0x8110, 2)] [] d d.countTraining := by
  unfold Dev.countTraining
  split
  · exact .refl d
  · exact .inc (by decide) (by decide) (by decide)

@[simp] theorem countTraining_bar (d : Dev) : d.countTraining.bar = d.bar := by
  unfold Dev.countTraining
  split <;> rfl

theorem countTraining_rd (d : Dev) (h : d.md.fieldReset = false) :
    d.countTraining.rd 0x8110 2 0 = ((sat32 (d.rn 0x8110 2 0 + 1) : Nat) : Int) := by
  unfold Dev.countTraining
  rw [h]
  exact Dev.rd_inc_same d 0x8110 2 0

/-- What a training that is counted leaves, with the barrier's own registers set to `b`. -/
theorem countTraining_leaves (s : State) (t : Nat) (b : Barrier) :
    ({ (s.dev.advance t).countTraining with bar := b } : Dev).bar = b ∧
      (s.dev.md.fieldReset = false →
        ({ (s.dev.advance t).countTraining with bar := b } : Dev).rd 0x8110 2 0 =
          ((sat32 (s.dev.rn 0x8110 2 0 + 1) : Nat) : Int)) ∧
      SameRegs [(0x8110, 2)] s.dev { (s.dev.advance t).countTraining with bar := b } ∧
      SameHostRegs [] s.dev { (s.dev.advance t).countTraining with bar := b } ∧
      SameMotion s.dev { (s.dev.advance t).countTraining with bar := b } := by
  have k : Keeps [(0x8110, 2)] [] s.dev { (s.dev.advance t).countTraining with bar := b } :=
    ((Keeps.advance s.dev t).trans (.countTraining _)).trans (.bar _ b)
  exact ⟨rfl, countTraining_rd (s.dev.advance t), k.regs, k.hostRegs, k.motion⟩

theorem trainingFailed_again (d : Dev) (ht : d.bar.training = true) (hl : d.bar.link ≠ 2) (hf : d.bar.fails + 1 < 3) :
    trainingFailed d = { d.countTraining with bar := { d.bar with fails := d.bar.fails + 1 } } := by
  unfold trainingFailed
  rw [if_neg (by simp [ht]), if_neg (by simp [hl]), if_pos hf]
  show ({ d.countTraining with bar := { d.countTraining.bar with fails := d.bar.fails + 1 } } : Dev) = _
  rw [countTraining_bar]

theorem retrain_eq (d : Dev) (hl : d.bar.link = 2) (ht : d.bar.training = false) :
    retrain d = { d.countTraining with bar := { d.bar with training := true } } := by
  unfold retrain
  rw [if_pos (by simp [hl, ht])]
  show ({ d.countTraining with bar := { d.countTraining.bar with training := true } } : Dev) = _
  rw [countTraining_bar]

/-- The barrier is down: LinkState, and FieldState 01h at a host die out of reset that still read 00h (R15, R52). -/
def Dev.linkDown (d : Dev) : Dev :=
  let d := { d with bar.link := 2, bar.training := false, bar.fails := 0, bar.downAt := some (d.bar.downAt.getD d.now) }
  let d := d.wr 0x8110 1 0 2
  if d.md.hostReset then d else if d.hrn 0x30 10 0 == 0 then d.hwr 0x30 10 0 1 else d

theorem Keeps.linkDown (d : Dev) : Keeps [(0x8110, 1)] [(0x30, 10)] d d.linkDown := by
  have down : Keeps [(0x8110, 1)] [(0x30, 10)] d
      (Dev.wr { d with
        bar.link := 2, bar.training := false, bar.fails := 0, bar.downAt := some (d.bar.downAt.getD d.now) } 0x8110 1 0 2) :=
    (Keeps.bar d _).trans (.wr 2 (by decide) (by decide) (by decide))
  unfold Dev.linkDown
  dsimp only
  split
  · exact down
  · split
    · exact down.trans (.hwr 1 (by decide) (by decide) (by decide))
    · exact down

theorem linkDown_reads (d : Dev) : d.linkDown.bar.link = 2 ∧ d.linkDown.bar.training = false ∧
    d.linkDown.bar.fails = 0 ∧ d.linkDown.rd 0x8110 1 0 = 2 := by
  unfold Dev.linkDown
  dsimp only
  split
  · exact ⟨rfl, rfl, rfl, Dev.rd_wr_same _ _ _ _ _⟩
  · split <;> exact ⟨rfl, rfl, rfl, Dev.rd_wr_same _ _ _ _ _⟩

theorem trainingFailed_third (d : Dev) (ht : d.bar.training = true) (hl : d.bar.link ≠ 2) (hn : d.bar.fails = 2)
    (hf : d.md.fieldReset = false) : trainingFailed d = (d.linkDown.raise 0x22 []).raiseHost 0x22 [] := by
  unfold trainingFailed
  rw [if_neg (by simp [ht]), if_neg (by simp [hl]), if_neg (by omega)]
  simp only [hf, Bool.false_eq_true, if_false]
  rfl

/-- Settles O3: the end of a training as one equation per outcome, and a frame over the events raised on the way. -/
theorem barrierTrainingBringsTheLinkUpOrDown : Obligations.BarrierTrainingBringsTheLinkUpOrDown := by
  refine ⟨fun s t ht hh hf => runsKeep_onDev (f := trainingDone) rfl ?_,
    fun s t ht hl hn => runsKeep_onDev (f := trainingFailed) rfl ?_,
    fun s t ht hl hn hf => runsKeep_onDev (f := trainingFailed) rfl ?_,
    fun s t hl ht => runsKeep_onDev (f := retrain) rfl ?_⟩
  · have k := (Keeps.advance s.dev t).trans (.trainingDone (s.dev.advance t) ht hh hf)
    obtain ⟨hl, htr, hfl, hnum, hrn, hhr⟩ := trainingDone_bringsUp (s.dev.advance t) ht hh hf
    exact ⟨hl, htr, hfl, (hnum .host).1, (hnum .field).1, (hnum .host).2, (hnum .field).2, hrn, hhr,
      raised_trainingDone (s.dev.advance t) ht hh hf, k.motion, k.regs⟩
  · rw [trainingFailed_again (s.dev.advance t) ht hl hn]
    exact countTraining_leaves s t _
  · rw [trainingFailed_third (s.dev.advance t) ht hl hn hf]
    have down := (Keeps.advance s.dev t).trans (.linkDown (s.dev.advance t))
    have events : Keeps [(0x8110, 1)] [(0x30, 10)] (s.dev.advance t).linkDown
        (((s.dev.advance t).linkDown.raise 0x22 []).raiseHost 0x22 []) := (Keeps.raise _ _ _).trans (.raiseHost _ _ _)
    have link := (SameLink.raise (s.dev.advance t).linkDown 0x22 []).trans (.raiseHost _ 0x22 [])
    have k := down.trans events
    obtain ⟨h1, h2, h3, h4⟩ := linkDown_reads (s.dev.advance t)
    refine ⟨by rw [link.bar]; exact h1, by rw [link.bar]; exact h2, by rw [link.bar]; exact h3, ?_, ?_, k.regs,
      k.hostRegs, k.motion⟩
    · rw [Dev.rn, Dev.rd_congr (Dev.raiseHost_ob _ 0x22 []), Dev.rd_raise _ _ _ _ _ _ (by decide) (by decide) (by decide),
        h4]
      rfl
    · exact .within down (raised_raise _ 0x22 [] (down.fieldReset.trans hf)) (raise_frame _ 0x22 []).queue
        (Keeps.raiseHost (xs := []) (ys := []) _ 0x22 []).queue
  · rw [retrain_eq (s.dev.advance t) hl ht]
    exact countTraining_leaves s t _

end Sys2Proof.Machine
end

section
/-! PROOFS for O6. A cell at a receiver: corrupted, never resent, or a Heartbeat in sequence (R20, R22, R26). -/

namespace Sys2Proof.Machine

/-! ### A corrupted cell -/

/-- A cell whose CRC does not match, with no NAK outstanding: one NAK for the number expected (R20). -/
theorem receive_corrupted (d : Dev) (die : Die) (aligned : Bool) (c : Bytes) (hl : d.bar.link = 1)
    (hr : d.inReset die = false) (hc : leAt c 60 4 ≠ crc32 (c.take 60)) (hn : (d.bd die).nak = none) :
    receive die aligned c d = d.setBd die { d.bd die with
      nak := some ((d.bd die).expected, d.now), ctl := (d.bd die).ctl ++ [(1, (d.bd die).expected)] } := by
  have up : (d.bar.link != 1 || d.inReset die) = false := by simp [hl, hr]
  have bad : (!aligned || c.length != 64 || leAt c 60 4 != crc32 (c.take 60)) = true := by simp [hc]
  simp only [receive, up, bad, hn, Bool.false_eq_true, if_false, if_true]

/-! ### A cell in sequence -/

theorem setBd_setBd (d : Dev) (die : Die) (x y : BarDie) : (d.setBd die x).setBd die y = d.setBd die y := by
  cases die <;> rfl

/-- An acknowledgement concerns only what the sender holds (R19). -/
theorem ackUpTo_eq (d : Dev) (die : Die) (ack : Nat) :
    ∃ h f, d.ackUpTo die ack = d.setBd die { d.bd die with held := h, flight := f } := by
  unfold Dev.ackUpTo
  dsimp only
  split
  · exact ⟨_, _, rfl⟩
  · exact ⟨(d.bd die).held, (d.bd die).flight, by cases die <;> rfl⟩

set_option smartUnfolding false in
/-- One round of delivery: nothing when the cell expected is not there. (Plain unfolding sees through the stuck `match`.) -/
theorem deliverOn_succ (die : Die) (k : Nat) (d : Dev) :
    deliverOn die (k + 1) d = (Tab.find (d.bd die).reorder (d.bd die).expected).elim d fun c =>
      deliverOn die k ((d.setBd die { d.bd die with
        reorder := Tab.del (d.bd die).reorder (d.bd die).expected
        expected := ((d.bd die).expected + 1) % 65536 }).deliverCell die c) := rfl

/-- With nothing in the reorder buffer nothing more is delivered. -/
theorem deliverOn_empty (die : Die) (k : Nat) (d : Dev) (h : (d.bd die).reorder = []) : deliverOn die k d = d := by
  cases k with
  | zero => rfl
  | succ k =>
    rw [deliverOn_succ, h]
    rfl

/-- The one cell in the reorder buffer is the one expected: it is delivered, and the next one is expected. -/
theorem deliverOn_one (die : Die) (k : Nat) (d : Dev) (x : BarDie) (c : Bytes) :
    deliverOn die (k + 1) (d.setBd die { x with reorder := [(x.expected, c)] }) =
      deliverOn die k ((d.setBd die { x with
        reorder := [], expected := (x.expected + 1) % 65536 }).deliverCell die c) := by
  simp [deliverOn_succ, Tab.find, Tab.del, setBd_setBd]

/-- A good cell that is the one expected, with no NAK outstanding and an empty reorder buffer (R20). -/
theorem receive_expected (d : Dev) (die : Die) (c : Bytes) (hl : d.bar.link = 1) (hr : d.inReset die = false)
    (h64 : c.length = 64) (hc : leAt c 60 4 = crc32 (c.take 60)) (hs : leAt c 2 2 = (d.bd die).expected)
    (ho : (d.bd die).reorder = []) (hn : (d.bd die).nak = none) :
    ∃ h f, receive die true c d = deliverOn die 32 ((d.setBd die { d.bd die with
      held := h, flight := f, reorder := [], expected := ((d.bd die).expected + 1) % 65536 }).deliverCell die c) := by
  obtain ⟨h, f, hack⟩ := ackUpTo_eq d die (leAt c 4 2)
  refine ⟨h, f, ?_⟩
  have up : (d.bar.link != 1 || d.inReset die) = false := by simp [hl, hr]
  have good : (!true || c.length != 64 || leAt c 60 4 != crc32 (c.take 60)) = false := by simp [h64, hc]
  have ahead : ((d.bd die).expected + 65536 - (d.bd die).expected) % 65536 = 0 := by
    rw [Nat.add_sub_cancel_left]
  simp only [receive, up, good, hack, hn, ho, hs, ahead, setBd_setBd, Dev.setBd_bd, Tab.put, beq_self_eq_true,
    Bool.false_eq_true, if_false, if_true]
  exact deliverOn_one die 32 d { d.bd die with held := h, flight := f, nak := none } c

theorem deliverCell_heartbeat (d : Dev) (die : Die) (c : Bytes) (hty : byteAt c 0 = 2) (hb : byteAt c 1 = 0)
    (hz : allZero ((slice c 6 54).drop 5) = true) :
    d.deliverCell die c = d.heartbeat die (leAt (slice c 6 54) 0 4) (byteAt (slice c 6 54) 4) := by
  simp [Dev.deliverCell, hty, hb, hz]

/-- A new Heartbeat at the field die starts its silence test; HostState follows (R26, R46). -/
theorem heartbeat_field (d : Dev) (count mode : Nat) (h : (d.bd .field).hbLast ≠ some count) :
    ∃ v, d.heartbeat .field count mode = (d.setBd .field { d.bd .field with
      hbLast := some count, hbAt := d.now, started := true, silent := false }).wr 0x30 8 0 v := by
  have fresh : ((d.bd .field).hbLast == some count) = false := by simp [h]
  unfold Dev.heartbeat
  simp only [fresh, Bool.false_eq_true, if_false]
  exact ⟨_, rfl⟩

/-- A good Heartbeat cell in sequence at the field die. -/
theorem receive_heartbeat (d : Dev) (c : Bytes) (hl : d.bar.link = 1) (hr : d.inReset .field = false)
    (h64 : c.length = 64) (hc : leAt c 60 4 = crc32 (c.take 60)) (hs : leAt c 2 2 = (d.bd .field).expected)
    (ho : (d.bd .field).reorder = []) (hn : (d.bd .field).nak = none) (hty : byteAt c 0 = 2) (hb : byteAt c 1 = 0)
    (hz : allZero ((slice c 6 54).drop 5) = true) (hnew : (d.bd .field).hbLast ≠ some (leAt (slice c 6 54) 0 4)) :
    ∃ x v, receive .field true c d = (d.setBd .field x).wr 0x30 8 0 v ∧ x.started = true ∧ x.silent = false ∧
      x.hbAt = d.now ∧ x.expected = ((d.bd .field).expected + 1) % 65536 := by
  obtain ⟨h, f, hrec⟩ := receive_expected d .field c hl hr h64 hc hs ho hn
  rw [deliverCell_heartbeat _ _ _ hty hb hz] at hrec
  obtain ⟨v, hbeat⟩ := heartbeat_field (d.setBd .field { d.bd .field with
    held := h, flight := f, reorder := [], expected := ((d.bd .field).expected + 1) % 65536 })
    (leAt (slice c 6 54) 0 4) (byteAt (slice c 6 54) 4) hnew
  rw [hbeat, deliverOn_empty .field 32 _ rfl] at hrec
  exact ⟨_, v, hrec, rfl, rfl, rfl, rfl⟩

/-! ### A cell that stays missing -/

/-- A lasting incident of record 8100h: its counts and its time (R31, R32). -/
theorem lasting_counts (d : Dev) :
    (d.lasting 0x8100).rd 0x8100 2 0 = ((sat32 (d.rn 0x8100 2 0 + 1) : Nat) : Int) ∧
      (d.lasting 0x8100).rd 0x8100 4 0 = ((sat32 (d.rn 0x8100 4 0 + 1) : Nat) : Int) := by
  unfold Dev.lasting
  constructor
  · rw [Dev.rd_wr_other _ _ _ _ _ _ _ _ (by decide), Dev.rd_inc_other _ _ _ _ _ _ _ (by decide), Dev.rd_inc_same]
  · rw [Dev.rd_wr_other _ _ _ _ _ _ _ _ (by decide), Dev.rd_inc_same,
      Dev.rn_eq_of_rd (Dev.rd_inc_other d 0x8100 2 0 0x8100 4 0 (by decide))]

/-- What the loss of the barrier changes: LinkState, Retrains and FieldState (R24, R52). -/
theorem barrierLost_keeps (d : Dev) (l : Bool) :
    Keeps [(0x8110, 1), (0x8110, 2)] [(0x30, 10)] d (d.barrierLost l) := by
  have count : Keeps [(0x8110, 1), (0x8110, 2)] [(0x30, 10)] d
      (if d.md.fieldReset then d else (d.wr 0x8110 1 0 0).inc 0x8110 2 0) := by
    split
    · exact .refl d
    · exact (Keeps.wr 0 (by decide) (by decide) (by decide)).trans (.inc (by decide) (by decide) (by decide))
  exact (count.trans (.bar _ _)).trans (.ite _ (.refl _) (.hwr 1 (by decide) (by decide) (by decide)))

theorem barrierLost_bar (d : Dev) (l : Bool) :
    (d.barrierLost l).bar.link = 0 ∧ (d.barrierLost l).bar.training = true ∧ (d.barrierLost l).bar.lasting = l := by
  simp only [Dev.barrierLost, apply_ite Dev.bar, Dev.hwr_bar, ite_self, and_self]

/-- Outside Load a lasting incident ends no load (R72). -/
theorem loadIncident_idle (d : Dev) (h : d.mode ≠ 1) : d.loadIncident = d := by
  simp [Dev.loadIncident, Dev.loading, h]

/-- The elements that a lasting incident at the field die changes. -/
def lastingElements : List (Nat × Nat) := [(0x8100, 2), (0x8100, 4), (0x8100, 6), (0x8110, 1), (0x8110, 2)]

theorem Keeps.lasting (d : Dev) : Keeps lastingElements [(0x30, 10)] d (d.lasting 0x8100) :=
  ((Keeps.inc (by decide) (by decide) (by decide)).trans (.inc (by decide) (by decide) (by decide))).trans
    (.wr _ (by decide) (by decide) (by decide))

/-- A lasting incident at the receiver of the field die, outside Load (R22). -/
theorem barrierLasting_field (d : Dev) (hm : d.mode ≠ 1) :
    d.barrierLasting .field = ((d.lasting 0x8100).raise 0x21 []).barrierLost true := by
  have k : Keeps lastingElements [(0x30, 10)] d (((d.lasting 0x8100).raise 0x21 []).barrierLost true) :=
    ((Keeps.lasting d).trans (.raise _ _ _)).trans ((barrierLost_keeps _ true).weaken (by decide) (by decide))
  refine loadIncident_idle (((d.lasting 0x8100).raise 0x21 []).barrierLost true) ?_
  rw [Dev.mode] at hm ⊢
  rwa [Dev.rn_eq_of_rd (k.regs 0x30 1 0 (by decide) (by decide) (by decide) (by decide))]

theorem nakTimeout_due (d : Dev) (die : Die) (n x : Nat) (hl : d.bar.link = 1) (hn : (d.bd die).nak = some (n, x))
    (ht : x + 20 * us ≤ d.now) : nakTimeout die d = d.barrierLasting die := by
  simp [nakTimeout, hn, hl, ht]

/-- Settles O6: one equation per outcome of a cell at a receiver. -/
theorem barrierReceiverChecksCells : Obligations.BarrierReceiverChecksCells := by
  refine ⟨fun s t die c hnow hl hr hc hn => runsKeep_onDev (f := receive die true c) rfl ?_,
    fun s t c hnow hl hr h64 hc hs ho hn hty hb hz hnew => runsKeep_onDev (f := receive .field true c) rfl ?_,
    fun s t n x hl hr hn ht hm => runsKeep_onDev (f := nakTimeout .field) rfl ?_⟩
  · rw [receive_corrupted (s.dev.advance t) die true c hl (by simpa using hr) hc (by simpa using hn)]
    have k : ∀ x, Keeps [] [] s.dev ((s.dev.advance t).setBd die x) := fun x =>
      (Keeps.advance s.dev t).trans (.setBd _ die x)
    refine ⟨?_, ?_, ?_, (k _).regs, (k _).hostRegs, (k _).motion⟩
    · rw [Dev.setBd_bd, Dev.bd_advance, Dev.advance_now, Nat.max_eq_right hnow]
    · rw [Dev.setBd_bd, Dev.bd_advance]
    · rw [Dev.setBd_bd, Dev.bd_advance]
  · obtain ⟨x, v, hrec, h1, h2, h3, h4⟩ :=
      receive_heartbeat (s.dev.advance t) c hl hr h64 hc hs ho hn hty hb hz hnew
    rw [hrec]
    have k : Keeps [(0x30, 8)] [] s.dev (((s.dev.advance t).setBd .field x).wr 0x30 8 0 v) :=
      ((Keeps.advance s.dev t).trans (.setBd _ .field x)).trans (.wr v (by decide) (by decide) (by decide))
    exact ⟨h1, h2, h3.trans (Nat.max_eq_right hnow), h4, k.regs, k.motion⟩
  · have hdue : x + 20 * us ≤ (s.dev.advance t).now := Nat.le_trans ht (Nat.le_max_right _ _)
    rw [nakTimeout_due (s.dev.advance t) .field n x hl hn hdue, barrierLasting_field (s.dev.advance t) hm]
    have before := (Keeps.advance s.dev t).trans (.lasting (s.dev.advance t))
    have after : Keeps [(0x8110, 1), (0x8110, 2)] [(0x30, 10)] ((s.dev.advance t).lasting 0x8100)
        ((((s.dev.advance t).lasting 0x8100).raise 0x21 []).barrierLost true) :=
      (Keeps.raise _ _ _).trans (barrierLost_keeps _ true)
    have k := before.trans (after.weaken (by decide) (by decide))
    obtain ⟨h1, h2, h3⟩ := barrierLost_bar (((s.dev.advance t).lasting 0x8100).raise 0x21 []) true
    obtain ⟨h4, h5⟩ := lasting_counts (s.dev.advance t)
    exact ⟨h1, h2, h3,
      (after.regs 0x8100 2 0 (by decide) (by decide) (by decide) (by decide)).trans h4,
      (after.regs 0x8100 4 0 (by decide) (by decide) (by decide) (by decide)).trans h5,
      .within before (raised_raise _ 0x21 [] (before.fieldReset.trans hr)) (raise_frame _ 0x21 []).queue
        (barrierLost_keeps _ true).queue, k.motion, k.regs⟩

end Sys2Proof.Machine
end

section
/-! PROOFS for O9. A write that waits for the next cycle boundary (R97, R98), and the clearing of counts (R33, R34). -/

namespace Sys2Proof.Machine

/-! ### Writes that wait -/

theorem RunsKeep.mono {i : Instr} {s : State} {P Q : Dev → Prop} (h : RunsKeep i s P) (hpq : ∀ e, P e → Q e) :
    RunsKeep i s Q := by
  obtain ⟨e, hi, hp, hr, hn, he⟩ := h
  exact ⟨e, hi, hp, hr, hn, hpq _ he⟩

/-- The number that an admitted request names is one that its object has (R4). -/
theorem admits_inst {d : Dev} {req : Req} {o el i : Nat} {v : Bytes} (h : d.Admits req o el i v = true) :
    i < 65536 ∧ instOf o i = some i := by
  simp only [Dev.Admits, Bool.and_eq_true, beq_iff_eq, decide_eq_true_eq] at h
  obtain ⟨⟨⟨⟨⟨⟨⟨⟨⟨⟨_, hi⟩, _⟩, hin⟩, _⟩, _⟩, _⟩, _⟩, _⟩, _⟩, _⟩ := h
  exact ⟨hi, hin⟩

/-- A request that is taken changes no element and nothing of the motion side. -/
theorem Taken.keeps {d e : Dev} (h : Taken d e) : Keeps [] [] d e := by
  obtain ⟨_, _, _, _, rfl⟩ := h
  exact ⟨.of_od rfl, .of_hod rfl, ⟨rfl, rfl, rfl, rfl, rfl, rfl, rfl⟩, ⟨[], (List.append_nil _).symm⟩, rfl, rfl⟩

/-- The objects whose writes have an effect of their own at step 11, at once and not at the boundary (R97). -/
def writtenAtOnce (o : Nat) : Prop := (0x1020 ≤ o ∧ o ≤ 0x105F) ∨ o = 0x30 ∨ o = 0x20 ∨ o = 0x5070 ∨ o = 0x5000

/-- Step 11 of an accepted write outside the linked groups: it waits, the last of those due (R98). -/
theorem fieldWrite_waits (d : Dev) (nv : Mem) (req : Req) (hdr : Bytes) (o e i : Nat) (v : Val)
    (ho : ¬ writtenAtOnce o) (hg : groupRec o e = 0) (hst : d.dueCheck o e i v = 0) (hacc : d.dueAccept o e i v = d) :
    d.fieldWrite nv req hdr o e i v =
      ({ d with ob.due := d.ob.due ++ [{ o := o, e := e, i := i, v := v, req := req, hdr := hdr }] }, []) := by
  unfold writtenAtOnce at ho
  obtain ⟨hc, h30, h20, h5070, h5000⟩ : ¬ (0x1020 ≤ o ∧ o ≤ 0x105F) ∧ o ≠ 0x30 ∧ o ≠ 0x20 ∧ o ≠ 0x5070 ∧ o ≠ 0x5000 := by
    omega
  unfold Dev.fieldWrite
  dsimp only
  rw [if_neg (by simpa using hc), if_neg (by simp [hg]), if_neg (by simp [h30]), if_neg (by simp [h30]),
    if_neg (by simp [h30]), if_neg (by simp [h20]), if_neg (by simp [h5070]), if_neg (by simp [h5000]),
    if_neg (by simp [hst]), hacc]

/-- An admitted write outside the linked groups that step 11 accepts waits for its boundary and changes no element. -/
theorem admittedWrite_waits {c : Instr} {s : State} {t o el i : Nat} {req : Req} {bs : Bytes} {v : Val}
    (hc : exec c s = onMem t (writeAt req o el i bs) s) (h : s.dev.Admits req o el i bs = true)
    (hlo : 0x1000 ≤ o) (hhi : o < 65536) (hel : el < 256) (ho : ¬ writtenAtOnce o) (hg : groupRec o el = 0)
    (hv : valueOf (tyOf o el) bs = v) (hst : ∀ d : Dev, d.dueCheck o el i v = 0)
    (hacc : ∀ d : Dev, d.dueAccept o el i v = d) :
    RunsKeep c s fun e => DueAtBoundary s.dev e req o el i v ∧ SameRegs [] s.dev e ∧ SameHostRegs [] s.dev e ∧
      SameMotion s.dev e := by
  obtain ⟨d1, ht, hw⟩ := fieldRequest_admitted s.sram s.nv (s.dev.advance t) req o el i bs hhi hel (.inl hlo) h
  rw [hv, fieldWrite_waits d1 _ _ _ _ _ _ _ ho hg (hst d1) (hacc d1)] at hw
  refine runsKeep_onMem hc hw ?_
  have k := (Keeps.advance s.dev t).trans ht.keeps
  obtain ⟨_, _, _, _, hdue⟩ := ht.reads
  exact ⟨⟨_, by rw [hdue]; rfl, rfl, rfl, rfl, rfl, rfl⟩, k.regs, k.hostRegs, k.motion⟩

/-! ### Clearing counts -/

/-- Elements `n + 1` of an object set to 0, for the listed `n`. -/
def Dev.zeroed (d : Dev) (o i : Nat) (l : List Nat) : Dev := d.each l fun d n => d.wr o (n + 1) i 0

theorem rd_zeroed_of_zero (o i el : Nat) (l : List Nat) (d : Dev) (h : d.rd o el i = 0) :
    (d.zeroed o i l).rd o el i = 0 := by
  induction l generalizing d with
  | nil => exact h
  | cons n l ih =>
    refine ih (d.wr o (n + 1) i 0) ?_
    rw [Dev.rd_wr]
    split
    · rfl
    · exact h

theorem rd_zeroed (o i n : Nat) (l : List Nat) (d : Dev) (h : n ∈ l) : (d.zeroed o i l).rd o (n + 1) i = 0 := by
  induction l generalizing d with
  | nil => exact absurd h List.not_mem_nil
  | cons m l ih =>
    rcases List.mem_cons.mp h with rfl | h
    · exact rd_zeroed_of_zero o i _ l _ (Dev.rd_wr_same d o (n + 1) i 0)
    · exact ih _ h

/-- The elements ClearCounts of a record with counts: element 8 of 2720h, element 7 of 8100h to 8109h (R33, R382). -/
def clearElement (o el : Nat) : Prop := (o = 0x2720 ∧ el = 8) ∨ (0x8100 ≤ o ∧ o ≤ 0x8109 ∧ el = 7)

/-- The ten records of checked operations (R31). -/
theorem record_cases {o : Nat} (hlo : 0x8100 ≤ o) (hhi : o ≤ 0x8109) :
    o = 0x8100 ∨ o = 0x8101 ∨ o = 0x8102 ∨ o = 0x8103 ∨ o = 0x8104 ∨ o = 0x8105 ∨ o = 0x8106 ∨ o = 0x8107 ∨
      o = 0x8108 ∨ o = 0x8109 := by
  omega

/-- The dictionary, the single-write checks and the boundary agree on these elements: BOOL, outside the linked groups,
accepted, without an effect before the boundary. -/
theorem clearElement_accepted {o el : Nat} (h : clearElement o el) :
    groupRec o el = 0 ∧ valueOf (tyOf o el) [1] = .num 1 ∧
      (∀ (d : Dev) i, d.dueCheck o el i (.num 1) = 0 ∧ d.dueAccept o el i (.num 1) = d ∧
        d.dueApply o el i (.num 1) = d.clearCounts o i) := by
  rcases h with ⟨rfl, rfl⟩ | ⟨hlo, hhi, rfl⟩
  · exact ⟨rfl, rfl, fun _ _ => ⟨rfl, rfl, rfl⟩⟩
  · rcases record_cases hlo hhi with rfl | rfl | rfl | rfl | rfl | rfl | rfl | rfl | rfl | rfl <;>
      exact ⟨rfl, rfl, fun _ _ => ⟨rfl, rfl, rfl⟩⟩

/-- The records 8100h to 8109h have the one number 0. -/
theorem recordInst {o i : Nat} (hlo : 0x8100 ≤ o) (hhi : o ≤ 0x8109) (h : instOf o i = some i) : i = 0 := by
  have h0 : ((desc? o 0).map Desc.insts).getD 0 = 0 := by
    rcases record_cases hlo hhi with rfl | rfl | rfl | rfl | rfl | rfl | rfl | rfl | rfl | rfl <;> rfl
  simp only [instOf, h0, beq_self_eq_true, if_true] at h
  split at h
  · exact (Option.some.inj h).symm
  · exact absurd h (by simp)

/-- The clearing sets the counts and times that R33 names to 0. -/
theorem rd_clearCounts {o el i k : Nat} (d : Dev) (h : clearElement o el) (hi : instOf o i = some i)
    (hk : k ∈ [0, 1, 4, 5]) : (d.clearCounts o i).rd o (k + 1) i = 0 := by
  rcases h with ⟨rfl, _⟩ | ⟨hlo, hhi, _⟩
  · refine rd_zeroed 0x2720 i k (List.range 7) d (List.mem_range.mpr ?_)
    simp only [List.mem_cons, List.not_mem_nil, or_false] at hk
    omega
  · obtain rfl := recordInst hlo hhi hi
    have hob : (d.clearCounts o 0).ob = (d.zeroed o 0 [0, 1, 4, 5]).ob := by
      have hne : (o == 0x2720) = false := by simp; omega
      unfold Dev.clearCounts
      simp only [hne, Bool.false_eq_true, if_false]
      split <;> rfl
    rw [Dev.rd_congr hob]
    exact rd_zeroed o 0 k _ d hk

/-- An admitted write of TRUE to ClearCounts waits; at the boundary the counts read 0. -/
theorem clearing_waits {c : Instr} {s : State} {t o el i : Nat} {req : Req} (h : clearElement o el)
    (hc : exec c s = onMem t (writeAt req o el i [1]) s) (ha : s.dev.Admits req o el i [1] = true) :
    RunsKeep c s fun e => (DueAtBoundary s.dev e req o el i (.num 1) ∧ SameRegs [] s.dev e ∧ SameHostRegs [] s.dev e ∧
      SameMotion s.dev e) ∧ ∀ k ∈ [0, 1, 4, 5], (e.dueApply o el i (.num 1)).rd o (k + 1) i = 0 := by
  obtain ⟨hg, hv, heff⟩ := clearElement_accepted h
  have bounds : 0x1000 ≤ o ∧ o < 65536 ∧ el < 256 ∧ ¬ writtenAtOnce o := by
    unfold clearElement at h
    unfold writtenAtOnce
    omega
  obtain ⟨hlo, hhi, hel, ho⟩ := bounds
  refine (admittedWrite_waits hc ha hlo hhi hel ho hg hv (fun d => (heff d i).1) fun d => (heff d i).2.1).mono
    fun e he => ⟨he, fun k hk => ?_⟩
  rw [(heff e i).2.2]
  exact rd_clearCounts e h (admits_inst ha).2 hk

/-- Settles O9: the write waits (R98), and what it does at its boundary is the clearing of R33. -/
theorem clearingCountsTakesEffectAtTheBoundary : Obligations.ClearingCountsTakesEffectAtTheBoundary := by
  refine ⟨fun s t obj inst req hobj ha => ?_, fun s t req ha => ?_⟩
  · have h : clearElement obj (if obj == 0x2720 then 8 else 7) := by
      rcases hobj with rfl | ⟨hlo, hhi⟩
      · exact .inl ⟨rfl, rfl⟩
      · exact .inr ⟨hlo, hhi, if_neg (by simp; omega)⟩
    refine (clearing_waits h rfl ha).mono fun e he => ?_
    obtain ⟨⟨hdue, hregs, hhost, hmot⟩, hzero⟩ := he
    exact ⟨hdue, hzero 0 (by simp), hzero 1 (by simp), hzero 4 (by simp), hzero 5 (by simp), hregs, hhost, hmot⟩
  · refine (clearing_waits (.inr ⟨by omega, by omega, rfl⟩) rfl ha).mono fun e he => ?_
    obtain ⟨⟨hdue, hregs, hhost, hmot⟩, hzero⟩ := he
    exact ⟨hdue, rfl, hzero 0 (by simp), hzero 1 (by simp), hzero 4 (by simp), hzero 5 (by simp), hregs, hhost, hmot⟩

end Sys2Proof.Machine
end

section
/-! PROOFS for O39. Lines of a feedback channel (R375 to R378), and the write of Arm (R390). -/

namespace Sys2Proof.Machine

/-! ### Single bits -/

@[simp] theorem bit_setBit_same (n i : Nat) (b : Bool) : bit (setBit n i b) i = b := by
  have hp : 0 < 2 ^ i := Nat.two_pow_pos i
  unfold setBit
  split
  · rename_i h
    exact beq_iff_eq.mp h
  · rename_i h
    have hne : bit n i ≠ b := fun e => h (beq_iff_eq.mpr e)
    cases b with
    | true =>
      have h0 : n / 2 ^ i % 2 ≠ 1 := by simpa [bit] using hne
      simp only [if_true, bit, Nat.add_div_right _ hp, beq_iff_eq]
      omega
    | false =>
      have h1 : n / 2 ^ i % 2 = 1 := by simpa [bit] using hne
      have hle : 2 ^ i ≤ n := Nat.le_of_not_lt fun hlt => by
        rw [Nat.div_eq_of_lt hlt] at h1
        omega
      have hd : (n - 2 ^ i) / 2 ^ i = n / 2 ^ i - 1 := by
        simpa using Nat.sub_mul_div n (2 ^ i) 1
      simp only [Bool.false_eq_true, if_false, bit, hd, beq_eq_false_iff_ne]
      omega

/-- Setting the level of A leaves that of B. -/
theorem bit_setBit_A (n : Nat) (b : Bool) : bit (setBit n 3 b) 4 = bit n 4 := by
  unfold setBit
  split
  · rfl
  · rename_i h
    have hne : bit n 3 ≠ b := fun e => h (beq_iff_eq.mpr e)
    cases b with
    | true =>
      have h0 : n / 8 % 2 ≠ 1 := by simpa [bit] using hne
      have hd : (n + 8) / 16 = n / 16 := by omega
      simp [bit, hd]
    | false =>
      have h1 : n / 8 % 2 = 1 := by simpa [bit] using hne
      have hd : (n - 8) / 16 = n / 16 := by omega
      simp [bit, hd]

/-! ### Channels under updates -/

theorem Dev.fbc_setFbc (d : Dev) (c k : Nat) (x : FbChan) : (d.setFbc c x).fbc k = if k = c then x else d.fbc k := by
  simp only [Dev.fbc, Dev.setFbc, Tab.get_put]

@[simp] theorem Dev.fbc_setFbc_same (d : Dev) (c : Nat) (x : FbChan) : (d.setFbc c x).fbc c = x := by
  rw [Dev.fbc_setFbc, if_pos rfl]

@[simp] theorem Dev.fbc_advance (d : Dev) (t c : Nat) : (d.advance t).fbc c = d.fbc c := rfl

theorem Dev.fbc_congr {d e : Dev} (h : e.fb = d.fb) (k : Nat) : e.fbc k = d.fbc k := by
  simp only [Dev.fbc, h]

/-- From `d` to `e` channel `c` becomes `x`; the other channels, the rest of the motion side and the elements of the host
die are as they were. -/
def ChannelSet (c : Nat) (x : FbChan) (d e : Dev) : Prop :=
  e.fbc c = x ∧ (∀ k, k ≠ c → e.fbc k = d.fbc k) ∧ e.segs = d.segs ∧ e.eng = d.eng ∧ e.gov = d.gov ∧ e.line = d.line ∧
    e.prof = d.prof ∧ e.safe = d.safe ∧ SameHostRegs [] d e

theorem ChannelSet.setFbc (d : Dev) (c : Nat) (x : FbChan) : ChannelSet c x d (d.setFbc c x) :=
  ⟨d.fbc_setFbc_same c x, fun k hk => by rw [Dev.fbc_setFbc, if_neg hk], rfl, rfl, rfl, rfl, rfl, rfl, .of_hod rfl⟩

theorem ChannelSet.trans {c : Nat} {x y : FbChan} {d e f : Dev} (h : ChannelSet c x d e) (g : ChannelSet c y e f) :
    ChannelSet c y d f := by
  obtain ⟨_, ho, h1, h2, h3, h4, h5, h6, hh⟩ := h
  obtain ⟨gx, go, g1, g2, g3, g4, g5, g6, gh⟩ := g
  exact ⟨gx, fun k hk => (go k hk).trans (ho k hk), g1.trans h1, g2.trans h2, g3.trans h3, g4.trans h4, g5.trans h5,
    g6.trans h6, hh.trans gh⟩

/-- A frame of the whole motion side sets every channel to what it was. -/
theorem Keeps.channelSet {xs : List (Nat × Nat)} {d e : Dev} (h : Keeps xs [] d e) (c : Nat) :
    ChannelSet c (d.fbc c) d e := by
  obtain ⟨h1, h2, h3, h4, h5, h6, h7⟩ := h.motion
  exact ⟨Dev.fbc_congr h7 c, fun k _ => Dev.fbc_congr h7 k, h1, h2, h3, h4, h5, h6, h.hostRegs⟩

/-- Edge faults of a channel: 2720h:1 counts them and event E0h is raised at most once per second (R376). -/
def Dev.edgeFaults (d : Dev) (c : Nat) (soon : List Nat) : Dev :=
  d.each soon fun d _ => (d.inc 0x2720 1 c).raiseLim 0xE0 c []

theorem Keeps.raiseLim {xs ys : List (Nat × Nat)} (d : Dev) (n key : Nat) (ps : Bytes) :
    Keeps xs ys d (d.raiseLim n key ps) := by
  unfold Dev.raiseLim
  refine .ite _ (Keeps.trans ?_ (.raise _ n ps)) (.refl d)
  exact .of_same rfl ⟨rfl, rfl, rfl, rfl, rfl, rfl, rfl⟩ rfl rfl rfl

theorem Keeps.edgeFaults (d : Dev) (c : Nat) (soon : List Nat) (hc : c < 65536) :
    Keeps [(0x2720, 1)] [] d (d.edgeFaults c soon) :=
  .foldl _ (fun _ _ => (Keeps.inc (by simp) (by omega) hc).trans (.raiseLim _ 0xE0 c [])) soon d

/-! ### A sample -/

/-- The channel after the filter of one sample instant: the accepted lines follow, with their instants (R376). -/
def FbChan.filtered (x : FbChan) (raw now : Nat) (acc : List Nat) : FbChan :=
  { x with
    raw := raw, level := acc.foldl (fun v l => setBit v l (bit raw l)) x.level
    lastAt := acc.foldl (fun t l => Tab.put t l now) x.lastAt }

/-- The lines whose transition comes too soon at a fresh sample (R376). -/
def FbChan.tooSoon (x : FbChan) (raw : Nat) (acc : List Nat) (fresh : Bool) : List Nat :=
  if fresh then (List.range 6).filter fun l => bit raw l != bit x.level l && bit raw l != bit x.raw l && !acc.contains l
  else []

/-- The device after the filter and the edge faults of a sample. -/
def Dev.filteredAt (d : Dev) (c raw : Nat) (fresh : Bool) (acc : List Nat) : Dev :=
  (d.setFbc c ((d.fbc c).filtered raw d.now acc)).edgeFaults c ((d.fbc c).tooSoon raw acc fresh)

/-- A sample that accepts no line: the raw levels are noted and the edge faults counted. -/
theorem fbSample_none (d : Dev) (c raw : Nat) (fresh : Bool) (h : d.accepted c raw = []) :
    d.fbSample c raw fresh = d.filteredAt c raw fresh [] := by
  unfold Dev.fbSample
  rw [h]
  simp only [List.any_nil, List.contains_nil, Bool.and_false, Bool.or_self, Bool.false_and, Bool.false_eq_true, if_false]
  rfl

/-- A channel after an accepted edge of A: one count, up or down by the level of B and Invert (R378). -/
def FbChan.countedA (x : FbChan) (raw now stamp : Nat) (invert : Bool) : FbChan :=
  (x.filtered raw now [3]).count ((bit raw 3 != bit x.level 4) != invert) stamp

theorem filteredAt_keeps (d : Dev) (c raw : Nat) (fresh : Bool) (acc : List Nat) (hc : c < 8) :
    Keeps [(0x2720, 1)] [] (d.setFbc c ((d.fbc c).filtered raw d.now acc)) (d.filteredAt c raw fresh acc) :=
  .edgeFaults _ c _ (by omega)

/-- What the filter does to its channel; the edge faults leave every channel. -/
theorem filteredAt_sets (d : Dev) (c raw : Nat) (fresh : Bool) (acc : List Nat) (hc : c < 8) :
    ChannelSet c ((d.fbc c).filtered raw d.now acc) d (d.filteredAt c raw fresh acc) := by
  have h := (ChannelSet.setFbc d c ((d.fbc c).filtered raw d.now acc)).trans
    ((filteredAt_keeps d c raw fresh acc hc).channelSet c)
  rwa [Dev.fbc_setFbc_same] at h

/-- The settings of the channels are outside what an edge fault changes. -/
theorem filteredAt_setting (d : Dev) (c raw el : Nat) (fresh : Bool) (acc : List Nat) (hc : c < 8) (hel : el < 256) :
    (d.filteredAt c raw fresh acc).rd 0x2700 el c = d.rd 0x2700 el c :=
  (filteredAt_keeps d c raw fresh acc hc).regs 0x2700 el c hel (by omega) (by simp) (by decide)

/-- A sample that accepts A alone at a Source that counts quadrature: one count (R378). -/
theorem fbSample_A (d : Dev) (c raw : Nat) (fresh : Bool) (hc : c < 8) (h : d.accepted c raw = [3])
    (hs : d.rn 0x2700 2 c = 1 ∨ d.rn 0x2700 2 c = 2) :
    ∃ stamp, d.fbSample c raw fresh = (d.filteredAt c raw fresh [3]).setFbc c
      ((d.fbc c).countedA raw d.now stamp (d.rb 0x2700 5 c)) := by
  have hsrc : ((d.filteredAt c raw fresh [3]).rn 0x2700 2 c != 0) = true := by
    rw [Dev.rn_eq_of_rd (filteredAt_setting d c raw 2 fresh [3] hc (by decide))]
    rcases hs with hs | hs <;> rw [hs] <;> rfl
  have a3 : ([3] : List Nat).contains 3 = true := rfl
  have a4 : ([3] : List Nat).contains 4 = false := rfl
  have a5 : ([3] : List Nat).contains 5 = false := rfl
  have hall : ([3] : List Nat).any (fun l => decide (l < 3)) = false := rfl
  have quad : d.fbSample c raw fresh = (d.filteredAt c raw fresh [3]).quadCode c true false := by
    unfold Dev.fbSample
    rw [h]
    unfold Dev.filteredAt Dev.edgeFaults FbChan.tooSoon FbChan.filtered at hsrc ⊢
    simp only [a3, a4, a5, hall, hsrc, Bool.and_false, Bool.false_and, Bool.and_true, Bool.or_false,
      Bool.false_eq_true, if_false, if_true]
  refine ⟨(d.filteredAt c raw fresh [3]).stamp, ?_⟩
  have hb : (d.filteredAt c raw fresh [3]).rb 0x2700 5 c = d.rb 0x2700 5 c :=
    congrArg (· != 0) (filteredAt_setting d c raw 5 fresh [3] hc (by decide))
  have hA : bit ((d.fbc c).filtered raw d.now [3]).level 3 = bit raw 3 := bit_setBit_same _ _ _
  have hB : bit ((d.fbc c).filtered raw d.now [3]).level 4 = bit (d.fbc c).level 4 := bit_setBit_A _ _
  rw [quad]
  unfold Dev.quadCode
  simp only [Bool.and_false, Bool.false_eq_true, if_false, if_true, hb, (filteredAt_sets d c raw fresh [3] hc).1, hA, hB]
  rfl

/-- A sample that ends with its channel set to `y` sets that channel alone. -/
theorem fbSample_sets {d : Dev} {c raw : Nat} {fresh : Bool} {acc : List Nat} {y : FbChan} (hc : c < 8)
    (he : d.fbSample c raw fresh = (d.filteredAt c raw fresh acc).setFbc c y) :
    ChannelSet c y d (d.fbSample c raw fresh) := by
  rw [he]
  exact (filteredAt_sets d c raw fresh acc hc).trans (.setFbc _ c y)

/-! ### Transitions -/

/-- The levels at the pins of a channel noted. -/
def Dev.notePins (d : Dev) (c pins : Nat) : Dev := d.modFbc c fun x => { x with pins := pins }

@[simp] theorem Dev.fbc_notePins (d : Dev) (c pins : Nat) : (d.notePins c pins).fbc c = { d.fbc c with pins := pins } :=
  d.fbc_setFbc_same c _

/-- Which lines are accepted does not depend on the pins noted. -/
theorem accepted_notePins (d : Dev) (c raw pins : Nat) : (d.notePins c pins).accepted c raw = d.accepted c raw := by
  unfold Dev.accepted
  rw [Dev.fbc_notePins]
  rfl

/-- A transition at a channel of a field die out of reset, without Invert of its lines (R375, R376). -/
theorem fbTransition_sample (d : Dev) (c levels : Nat) (hc : c < 8) (hl : levels < 64) (hr : d.md.fieldReset = false)
    (hi : d.rn 0x2700 4 c = 0) :
    fbTransition c levels d = (d.notePins c levels).fbSample c levels true := by
  have hi' : (d.modFbc c fun x => { x with pins := levels }).rn 0x2700 4 c = 0 := hi
  have hr' : (d.modFbc c fun x => { x with pins := levels }).md.fieldReset = false := hr
  have hc' : ¬ 8 ≤ c := by omega
  simp only [fbTransition, hc', Nat.mod_eq_of_lt hl, hr', hi', Bool.false_eq_true, if_false]
  rw [show Nat.xor levels 0 = levels from Nat.xor_zero levels, Dev.notePins]

/-- In reset the channel follows its lines (R375). -/
theorem fbTransition_reset (d : Dev) (c levels : Nat) (hc : c < 8) (hr : d.md.fieldReset = true) :
    ∃ x, fbTransition c levels d = (d.setFbc c x).setFbc c
      { d.fbc c with pins := levels % 64, raw := levels % 64, level := levels % 64 } := by
  have hc' : ¬ 8 ≤ c := by omega
  have hr' : (d.modFbc c fun x => { x with pins := levels % 64 }).md.fieldReset = true := hr
  refine ⟨{ d.fbc c with pins := levels % 64 }, ?_⟩
  simp only [fbTransition, hc', hr', if_false, if_true]
  simp only [Dev.modFbc, Dev.fbc_setFbc_same]

/-- MinEdge has passed and A still differs: it is accepted, and no fault counted (R376). -/
theorem minedgeAt_sample (d : Dev) (c : Nat) (hc : c < 8) (hr : d.md.fieldReset = false) (hi : d.rn 0x2700 4 c = 0)
    (h : d.accepted c (d.fbc c).pins = [3]) : minedgeAt c 3 d = d.fbSample c (d.fbc c).pins false := by
  have run : (decide (8 ≤ c) || decide (6 ≤ 3) || d.md.fieldReset) = false := by simp [hr]; omega
  have hx : Nat.xor (d.fbc c).pins 0 = (d.fbc c).pins := Nat.xor_zero _
  have a3 : ([3] : List Nat).contains 3 = true := rfl
  simp only [minedgeAt, hi, hx, h, a3, if_true]
  rw [if_neg (by simpa using run)]

/-- The pins are noted before the sample: the other channels and units are left as they are. -/
theorem ChannelSet.afterPins {c pins : Nat} {x : FbChan} {d e : Dev}
    (h : ChannelSet c x (d.notePins c pins) e) : ChannelSet c x d e :=
  (ChannelSet.setFbc d c _).trans h

/-- A first level of A that comes too soon counts one edge fault (R376). -/
theorem filteredAt_rejected (d : Dev) (c : Nat) (hc : c < 8) (hl : (d.fbc c).level = 0) (hr : (d.fbc c).raw = 0) :
    (d.filteredAt c 8 true []).rd 0x2720 1 c = ((sat32 (d.rn 0x2720 1 c + 1) : Nat) : Int) := by
  have soon : (d.fbc c).tooSoon 8 [] true = [3] := by
    unfold FbChan.tooSoon
    rw [hl, hr]
    rfl
  unfold Dev.filteredAt
  rw [soon]
  refine ((Keeps.raiseLim (xs := []) (ys := []) _ 0xE0 c []).regs 0x2720 1 c (by decide) (by omega) (by simp)
    (by decide)).trans ?_
  exact Dev.rd_inc_same _ 0x2720 1 c

/-- The write of Arm waits, and arms its channel at the boundary (R390). -/
theorem arm_waits {s : State} {t c : Nat} {req : Req} (ha : s.dev.Admits req 0x2710 14 c [1] = true) :
    RunsKeep (.writeArm t req c) s fun e => DueAtBoundary s.dev e req 0x2710 14 c (.num 1) ∧ SameRegs [] s.dev e ∧
      SameHostRegs [] s.dev e ∧ SameMotion s.dev e :=
  admittedWrite_waits rfl ha (by omega) (by omega) (by omega) (by unfold writtenAtOnce; omega) rfl rfl (fun _ => rfl)
    fun _ => rfl

/-- Settles O39: the filter, the count of an edge of A, and the frame of the other channels and units. -/
theorem feedbackLinesAreFiltered : Obligations.FeedbackLinesAreFiltered := by
  refine ⟨fun s t c levels hc hr => runsKeep_onDev (f := fbTransition c levels) rfl ?_,
    fun s t c levels hr hc hl hs hi ha => runsKeep_onDev (f := fbTransition c levels) rfl ?_,
    fun s t c hr hc hi hlv hraw ha => runsKeep_onDev (f := fbTransition c 8) rfl ?_,
    fun s t c line hr hc hline hs hi ha => ?_, fun s t c req ha => (arm_waits ha).mono fun e he => ?_⟩
  · obtain ⟨x, he⟩ := fbTransition_reset (s.dev.advance t) c levels hc hr
    rw [he]
    obtain ⟨hx, ho, h1, h2, h3, h4, h5, h6, hh⟩ :=
      (ChannelSet.setFbc (s.dev.advance t) c x).trans
        (.setFbc _ c { s.dev.fbc c with pins := levels % 64, raw := levels % 64, level := levels % 64 })
    exact ⟨hx, .of_od rfl, h1, h2, h3, h4, h5, h6, hh, fun k _ hk => ho k hk⟩
  · rw [fbTransition_sample (s.dev.advance t) c levels hc hl hr hi]
    have hacc := (accepted_notePins (s.dev.advance t) c levels levels).trans ha
    obtain ⟨stamp, he⟩ := fbSample_A _ c levels true hc hacc hs
    rw [Dev.fbc_notePins] at he
    obtain ⟨hx, ho, h1, h2, h3, h4, h5, h6, hh⟩ := (fbSample_sets hc he).afterPins
    rw [hx]
    exact ⟨rfl, rfl, rfl, Tab.find_put_same _ 3 _, h1, h2, h3, h4, h5, h6, hh, fun k _ hk => ho k hk⟩
  · rw [fbTransition_sample (s.dev.advance t) c 8 hc (by omega) hr hi,
      fbSample_none _ c 8 true ((accepted_notePins (s.dev.advance t) c 8 8).trans ha)]
    have hset := filteredAt_sets ((s.dev.advance t).notePins c 8) c 8 true [] hc
    have hcount := filteredAt_rejected ((s.dev.advance t).notePins c 8) c hc (by simpa using hlv) (by simpa using hraw)
    have k := filteredAt_keeps ((s.dev.advance t).notePins c 8) c 8 true [] hc
    rw [Dev.fbc_notePins] at hset
    obtain ⟨hx, ho, h1, h2, h3, h4, h5, h6, hh⟩ := hset.afterPins
    exact ⟨hx, hcount, k.regs, h1, h2, h3, h4, h5, h6, hh, fun k _ hk => ho k hk⟩
  · subst hline
    refine runsKeep_onDev (f := minedgeAt c 3) rfl ?_
    rw [minedgeAt_sample (s.dev.advance t) c hc hr hi ha, Dev.fbc_advance]
    obtain ⟨stamp, he⟩ := fbSample_A (s.dev.advance t) c (s.dev.fbc c).pins false hc ha hs
    obtain ⟨hx, ho, h1, h2, h3, h4, h5, h6, hh⟩ := fbSample_sets hc he
    rw [hx]
    refine ⟨rfl, rfl, ?_, ?_, h1, h2, h3, h4, h5, h6, hh, fun k _ hk => ho k hk⟩
    · rw [he]
      exact .of_od rfl
    · rw [he]
      rfl
  · obtain ⟨hdue, hregs, hhost, hmot⟩ := he
    refine ⟨hdue, ?_, hregs, hhost, hmot⟩
    show (e.setFbc c { e.fbc c with armDue := true }).fbc c = _
    rw [Dev.fbc_setFbc_same, Dev.fbc_congr hmot.fb]

end Sys2Proof.Machine
end

section
/-! PROOFS for O50. Barrier mailboxes and event reports (R27, R493, R497), and accesses that end in a bus error (R481). -/

namespace Sys2Proof.Machine

/-! ### Messages before a sender -/

/-- A message sent is the last before its sender, cut into cells (R28). -/
theorem lastSent_sendMsg (d : Dev) (die : Die) (m : Nat) (bs : Bytes) :
    (d.sendMsg die m bs).lastSent die = some (m, cellsOf 64 bs) := by
  simp [Dev.lastSent, Dev.sendMsg]

/-- The messages before it stay before it. -/
theorem dropLast_sendMsg (d : Dev) (die : Die) (m : Nat) (bs : Bytes) :
    ((d.sendMsg die m bs).bd die).queue.dropLast = (d.bd die).queue := by
  simp [Dev.sendMsg]

/-- Its send mailbox shows it pending and not taken (R27). -/
theorem sendSlot_sendMsg (d : Dev) (die : Die) (m : Nat) (bs : Bytes) :
    Tab.get ((d.sendMsg die m bs).bd die).send m {} =
      { Tab.get (d.bd die).send m {} with pending := true, taken := false, lost := false } := by
  simp [Dev.sendMsg, Tab.get_put]

/-- Taking a message frees its mailbox and sends a Taken cell (R29, R493). -/
theorem takeMail_full (d : Dev) (die : Die) (m : Nat) (h : (Tab.get (d.bd die).recv m {}).full = true) :
    d.takeMail die m = d.setBd die { d.bd die with
      recv := Tab.put (d.bd die).recv m { Tab.get (d.bd die).recv m {} with full := false }
      ctl := (d.bd die).ctl ++ [(2, m)] } := by
  simp only [Dev.takeMail, h, if_true]

/-! ### What a command of the mailboxes leaves -/

/-- The Lift, every element, the motion side, the store, the clocks and the CAN ports are as they were. -/
def MailFrame (d e : Dev) : Prop :=
  e.lift = d.lift ∧ SameRegs [] d e ∧ SameHostRegs [] d e ∧ SameMotion d e ∧ SameStore d e ∧ SameCan d e

theorem MailFrame.of_same {d e : Dev} (hl : e.lift = d.lift) (ho : e.ob = d.ob) (hm : SameMotion d e)
    (hs : SameStore d e) (hc : SameCan d e) : MailFrame d e :=
  ⟨hl, .of_od (by rw [ho]), .of_hod (by rw [ho]), hm, hs, hc⟩

/-- A change of one end of the barrier. -/
theorem MailFrame.setBd (d : Dev) (t : Nat) (die : Die) (x : BarDie) : MailFrame d ((d.advance t).setBd die x) := by
  cases die <;> exact .of_same rfl rfl ⟨rfl, rfl, rfl, rfl, rfl, rfl, rfl⟩ ⟨rfl, rfl⟩ ⟨rfl, rfl⟩

/-! ### The commands -/

theorem barrierSend_sends (d : Dev) (b len : Nat) (hr : d.md.fieldReset = false) (hb : b < 16) (hlo : 0 < len)
    (hhi : len ≤ 3456) : barrierSend b len d = d.sendMsg .field b (fit (Tab.get d.bar.field.send b {}).buf len) := by
  have run : (d.md.fieldReset || decide (b ≥ 16) || len == 0 || decide (3456 < len)) = false := by
    simp [hr]
    omega
  simp only [barrierSend, run, Bool.false_eq_true, if_false]

theorem barrierTake_takes (d : Dev) (b : Nat) (hr : d.md.fieldReset = false) (hb : b < 16) :
    barrierTake b (Tab.get d.bar.field.recv b {}).count d = d.takeMail .field b := by
  have run : (d.md.fieldReset || decide (b ≥ 16) ||
      (Tab.get d.bar.field.recv b {}).count != (Tab.get d.bar.field.recv b {}).count) = false := by
    simp [hr]
    omega
  simp only [barrierTake, run, Bool.false_eq_true, if_false]

theorem eventReport_sends (d : Dev) (hr : d.md.fieldReset = false) (hn : d.bar.field.report ≠ [])
    (hb : d.sendBusy .field 8 = false) :
    eventReport d = { d with bar.field.report := [], bar.field.reportOut := true }.sendMsg .field 8
      (d.bar.field.report.flatMap id) := by
  have run : (d.md.fieldReset || d.bar.field.report.isEmpty || d.sendBusy .field 8) = false := by
    simp [hr, hn, hb]
  unfold eventReport
  simp only [run, Bool.false_eq_true, if_false]

/-- An entry of 32 bytes is the whole report (R497). -/
theorem reportEntries_one (msg : Bytes) (h : msg.length = 32) : reportEntries 108 msg = [msg] := by
  have hd : msg.drop 32 = [] := by simp [h]
  have ht : msg.take 32 = msg := List.take_of_length_le (by omega)
  have step : ∀ k b, reportEntries (k + 1) b = if b.length < 32 then [] else b.take 32 :: reportEntries k (b.drop 32) :=
    fun _ _ => rfl
  rw [step, if_neg (by omega), hd, ht, step]
  rfl

/-- The entry of the history for one of the host die's events (R497). -/
def hostEntry (now : Nat) (b : Bytes) : EvEntry :=
  { num := byteAt b 4, data := slice b 6 10, time := leAt b 16 10, quality := byteAt b 26, at_ := now }

theorem hostEvents_joins (d : Dev) (msg : Bytes) (hr : d.md.fieldReset = false) (h : msg.length = 32) :
    ∃ x : BarDie, hostEvents msg d =
      { d.setBd .field x with ring := { d.ring with queue := d.ring.queue ++ [hostEntry d.now msg] } } := by
  obtain ⟨recv, ctl, ht⟩ := takeMail_field d 8
  refine ⟨{ d.bar.field with recv := recv, ctl := ctl }, ?_⟩
  unfold hostEvents
  simp only [hr, Bool.false_eq_true, if_false, reportEntries_one msg h, ht]
  rfl

theorem access_busError (d : Dev) (c addr width : Nat) (write user : Bool) (hc : d.coreActs c = true)
    (hb : busErrorAt (d.mode != 1) addr width write user = true) :
    access c addr width write user d = d.inc 0x8030 6 c := by
  simp only [access, hc, hb, Bool.and_self, if_true]
  rfl

theorem coreActs_lt {d : Dev} {c : Nat} (h : d.coreActs c = true) : c < 8 := by
  simp only [Dev.coreActs, Bool.and_eq_true, decide_eq_true_eq] at h
  exact h.1.2

/-- Settles O50: one equation per command, over one end of the barrier or the history. -/
theorem barrierMailAndEventReports : Obligations.BarrierMailAndEventReports := by
  refine ⟨fun s t b len hr hb hlo hhi => runsKeep_onDev (f := barrierSend b len) rfl ?_,
    fun s t b count hr hb hcount hfull => runsKeep_onDev (f := barrierTake b count) rfl ?_,
    fun s t hr hn hb => runsKeep_onDev (f := eventReport) rfl ?_,
    fun s t msg hr h32 => runsKeep_onDev (f := hostEvents msg) rfl ?_,
    fun s t msg hr hfull => runsKeep_onDev (f := fieldEvents msg) rfl ?_,
    fun s t c addr width write user hc hb => runsKeep_onDev (f := access c addr width write user) rfl ?_⟩
  · rw [barrierSend_sends (s.dev.advance t) b len hr hb hlo hhi]
    have slot := sendSlot_sendMsg (s.dev.advance t) .field b (fit (Tab.get s.dev.bar.field.send b {}).buf len)
    exact ⟨lastSent_sendMsg _ .field b _, dropLast_sendMsg _ .field b _, congrArg SendSlot.pending slot,
      congrArg SendSlot.taken slot, rfl, MailFrame.setBd s.dev t .field _⟩
  · subst hcount
    rw [show barrierTake b (Tab.get s.dev.bar.field.recv b {}).count (s.dev.advance t) = _ from
      barrierTake_takes (s.dev.advance t) b hr hb, takeMail_full (s.dev.advance t) .field b hfull]
    exact ⟨Tab.find_put_same _ b _, rfl, rfl, MailFrame.setBd s.dev t .field _⟩
  · rw [eventReport_sends (s.dev.advance t) hr hn hb]
    exact ⟨lastSent_sendMsg _ .field 8 _, rfl, rfl, rfl, MailFrame.setBd s.dev t .field _⟩
  · obtain ⟨x, he⟩ := hostEvents_joins (s.dev.advance t) msg hr h32
    rw [he]
    have last : (s.dev.ring.queue ++ [hostEntry (s.dev.advance t).now msg]).getLast? =
        some (hostEntry (s.dev.advance t).now msg) := List.getLast?_concat
    exact ⟨List.length_append, List.dropLast_concat, congrArg (Option.map EvEntry.num) last,
      congrArg (Option.map EvEntry.data) last, congrArg (Option.map EvEntry.time) last,
      congrArg (Option.map EvEntry.quality) last, rfl,
      MailFrame.of_same rfl rfl ⟨rfl, rfl, rfl, rfl, rfl, rfl, rfl⟩ ⟨rfl, rfl⟩ ⟨rfl, rfl⟩⟩
  · have ht : fieldEvents msg (s.dev.advance t) = (s.dev.advance t).takeMail .host 8 := if_neg (by simpa using hr)
    rw [ht, takeMail_full (s.dev.advance t) .host 8 hfull]
    exact ⟨congrArg (fun o => (Option.getD o {}).full) (Tab.find_put_same s.dev.bar.host.recv 8 _), rfl, rfl,
      MailFrame.setBd s.dev t .host _⟩
  · rw [access_busError (s.dev.advance t) c addr width write user hc hb]
    have k : Keeps [] [] s.dev ((s.dev.advance t).inc 0x8030 6 c) :=
      (Keeps.advance s.dev t).trans (EventFrame.inc _ 0x8030 6 c (by omega) (by have := coreActs_lt hc; omega) rfl).keeps
    exact ⟨Dev.rd_inc_same _ 0x8030 6 c, rfl, rfl, rfl, k.regs, k.hostRegs, k.motion, ⟨rfl, rfl⟩, ⟨rfl, rfl⟩⟩

end Sys2Proof.Machine
end

section
/-! SUPPORT. Messages at the ends of the barrier, and what an answer of the field die leaves (R29, R82, R106). -/

namespace Sys2Proof.Machine

/-! ### Messages -/

/-- A message taken, at either die, changes that end of the barrier alone. -/
theorem takeMail_eq (d : Dev) (die : Die) (m : Nat) : ∃ x, d.takeMail die m = d.setBd die x := by
  unfold Dev.takeMail
  dsimp only
  split
  · exact ⟨_, rfl⟩
  · exact ⟨d.bd die, by cases die <;> rfl⟩

theorem Keeps.takeMail {xs ys : List (Nat × Nat)} (d : Dev) (die : Die) (m : Nat) : Keeps xs ys d (d.takeMail die m) := by
  obtain ⟨x, h⟩ := takeMail_eq d die m
  rw [h]
  exact .setBd d die x

theorem Keeps.sendMsg {xs ys : List (Nat × Nat)} (d : Dev) (die : Die) (m : Nat) (bs : Bytes) :
    Keeps xs ys d (d.sendMsg die m bs) :=
  .setBd d die _

/-- The message sent last carries its mailbox. -/
theorem lastMailbox_sendMsg (d : Dev) (m : Nat) (bs : Bytes) :
    (d.sendMsg .field m bs).bar.field.queue.getLast?.map TxMsg.mbx = some m := by
  show (((d.sendMsg .field m bs).bd .field).queue.getLast?).map TxMsg.mbx = some m
  simp [Dev.sendMsg]

/-- A fold whose steps keep the frame for the members of its list. -/
theorem Keeps.foldl_mem {xs ys : List (Nat × Nat)} {α : Type} (g : Dev → α → Dev) (l : List α)
    (h : ∀ d, ∀ x ∈ l, Keeps xs ys d (g d x)) (d : Dev) : Keeps xs ys d (l.foldl g d) := by
  induction l generalizing d with
  | nil => exact .refl d
  | cons x l ih =>
    exact (h d x List.mem_cons_self).trans (ih (fun d y hy => h d y (List.mem_cons_of_mem x hy)) (g d x))

/-- The history's events are raised at a field die that was out of reset before the way to them. -/
theorem Keeps.raised {xs ys : List (Nat × Nat)} {d a e : Dev} {n : Nat} {ps : Bytes} (h : Keeps xs ys d a)
    (hr : d.md.fieldReset = false) (hq : ∃ l, e.ring.queue = (a.raise n ps).ring.queue ++ l) : Raised d e n ps :=
  .within h (raised_raise a n ps (h.fieldReset.trans hr)) (raise_frame a n ps).queue hq

/-! ### Answers of the field die -/

/-- From `d` to `e` answers left or wait to leave: the requests and responses under way, the field end of the barrier and
what left the block may differ; every element of both dies, and the rest of the chip, are as they were. -/
def Answers (d e : Dev) : Prop :=
  ∃ ob b out, e = { d with ob := ob, bar.field := b, out := out } ∧ ob.od = d.ob.od ∧ ob.hod = d.ob.hod

theorem Answers.refl (d : Dev) : Answers d d := ⟨d.ob, d.bar.field, d.out, rfl, rfl, rfl⟩

theorem Answers.trans {d e f : Dev} (h : Answers d e) (g : Answers e f) : Answers d f := by
  obtain ⟨_, _, _, rfl, ho, hh⟩ := h
  obtain ⟨ob, b, out, rfl, go, gh⟩ := g
  exact ⟨ob, b, out, rfl, go.trans ho, gh.trans hh⟩

theorem Answers.foldl {α : Type} (g : Dev → α → Dev) (h : ∀ d x, Answers d (g d x)) (l : List α) (d : Dev) :
    Answers d (l.foldl g d) := by
  induction l generalizing d with
  | nil => exact .refl d
  | cons x l ih => exact (h d x).trans (ih (g d x))

theorem Answers.keeps {xs ys : List (Nat × Nat)} {d e : Dev} (h : Answers d e) : Keeps xs ys d e := by
  obtain ⟨_, _, _, rfl, ho, hh⟩ := h
  exact ⟨.of_od ho, .of_hod hh, ⟨rfl, rfl, rfl, rfl, rfl, rfl, rfl⟩, ⟨[], (List.append_nil _).symm⟩, rfl, rfl⟩

theorem Answers.md {d e : Dev} (h : Answers d e) : e.md = d.md := by
  obtain ⟨_, _, _, rfl, _⟩ := h
  rfl

theorem Answers.rd {d e : Dev} (h : Answers d e) (o el i : Nat) : e.rd o el i = d.rd o el i := by
  obtain ⟨_, _, _, rfl, ho, _⟩ := h
  simp only [Dev.rd, ho]

/-- A change of the requests and responses under way. -/
theorem Answers.setOb (d : Dev) (ob : Objs) (ho : ob.od = d.ob.od) (hh : ob.hod = d.ob.hod) : Answers d { d with ob := ob } :=
  ⟨ob, d.bar.field, d.out, rfl, ho, hh⟩

theorem Answers.sendMsg (d : Dev) (m : Nat) (bs : Bytes) : Answers d (d.sendMsg .field m bs) :=
  ⟨d.ob, _, d.out, rfl, rfl, rfl⟩

/-- The first of the responses `q` goes to mailbox `m` when that is free; `put` takes the rest back. -/
def Dev.flushTo (d : Dev) (m : Nat) (q : List Bytes) (put : List Bytes → Objs) : Dev :=
  match q with
  | r :: rs => if d.sendBusy .field m then d else { d with ob := put rs }.sendMsg .field m r
  | [] => d

theorem Answers.flushTo (d : Dev) (m : Nat) (q : List Bytes) (put : List Bytes → Objs)
    (ho : ∀ rs, (put rs).od = d.ob.od) (hh : ∀ rs, (put rs).hod = d.ob.hod) : Answers d (d.flushTo m q put) := by
  unfold Dev.flushTo
  split
  · split
    · exact .refl d
    · exact (Answers.setOb d _ (ho _) (hh _)).trans (.sendMsg _ m _)
  · exact .refl d

/-- Mailboxes 4 to 7, one after the other. -/
def Dev.flush4 (d : Dev) : Dev := d.flushTo 4 d.ob.resp4 fun rs => { d.ob with resp4 := rs }
def Dev.flush5 (d : Dev) : Dev := d.flushTo 5 d.ob.resp5 fun rs => { d.ob with resp5 := rs }
def Dev.flush6 (d : Dev) : Dev := d.flushTo 6 d.ob.resp6 fun rs => { d.ob with resp6 := rs }
def Dev.flush7 (d : Dev) : Dev := d.flushTo 7 d.ob.resp7 fun rs => { d.ob with resp7 := rs }

theorem flushResponses_eq (d : Dev) : d.flushResponses = d.flush4.flush5.flush6.flush7 := rfl

theorem Answers.flushResponses (d : Dev) : Answers d d.flushResponses := by
  have h4 : Answers d d.flush4 := .flushTo _ _ _ _ (fun _ => rfl) fun _ => rfl
  have h5 : Answers d.flush4 d.flush4.flush5 := .flushTo _ _ _ _ (fun _ => rfl) fun _ => rfl
  have h6 : Answers d.flush4.flush5 d.flush4.flush5.flush6 := .flushTo _ _ _ _ (fun _ => rfl) fun _ => rfl
  have h7 : Answers d.flush4.flush5.flush6 d.flush4.flush5.flush6.flush7 := .flushTo _ _ _ _ (fun _ => rfl) fun _ => rfl
  rw [flushResponses_eq]
  exact ((h4.trans h5).trans h6).trans h7

/-- A response of the field die on its way to its source (R82, R106, R107). -/
theorem Answers.fieldSend (d : Dev) (src : Source) (resp : Bytes) : Answers d (d.fieldSend src resp) := by
  have queued : ∀ ob : Objs, ob.od = d.ob.od → ob.hod = d.ob.hod → Answers d { d with ob := ob }.flushResponses :=
    fun ob ho hh => (Answers.setOb d ob ho hh).trans (.flushResponses _)
  unfold Dev.fieldSend
  generalize (byteAt resp 0 == 0x82 && mObj resp == 0x30 && (mEl resp == 3 || mEl resp == 7)) = modeWrite
  generalize (byteAt resp 0 == 0x82 && mObj resp == 0x30 && mEl resp == 6) = ackWrite
  cases src with
  | port n ip udp => cases modeWrite <;> cases ackWrite <;> exact queued _ rfl rfl
  | hcan base => cases modeWrite <;> cases ackWrite <;> exact queued _ rfl rfl
  | fcan base => cases modeWrite <;> cases ackWrite <;> exact ⟨_, _, _, rfl, rfl, rfl⟩

/-- The field die answers a request that it has taken. -/
theorem Answers.reply (d : Dev) (req : Req) (hdr : Bytes) (st : Nat) : Answers d (d.reply req hdr st) := by
  unfold Dev.reply Dev.fieldAnswer
  dsimp only
  split
  · exact .refl d
  · exact (Answers.setOb d _ rfl rfl).trans (.foldl _ (fun d r => .fieldSend d _ r) _ _)

end Sys2Proof.Machine
end

section
/-! PROOFS for O58. The device at power-good. -/

namespace Sys2Proof.Machine

/-- Settles O58: nothing is listed at power-good, so every element of both dies reads its Default. -/
theorem resetIsDormantAndEmpty : Obligations.ResetIsDormantAndEmpty := by
  have safe : State.reset.Safe := ⟨⟨rfl, rfl⟩, fun _ => rfl⟩
  have field : FieldDefaults State.reset.dev := fun _ _ _ => rfl
  have host : HostDefaults State.reset.dev := fun _ _ _ => rfl
  exact ⟨rfl, rfl, rfl, safe, rfl, rfl, rfl, rfl, rfl, rfl, rfl, field, host⟩

end Sys2Proof.Machine
end

section
/-! PROOFS for O4. The host die without Heartbeats of the field die (R548), the hold time (R52, R53). -/

namespace Sys2Proof.Machine

/-- Elements `k + 1` of 0030h at the host die put to their Default, for the listed `k`. -/
def Dev.forgetModes (d : Dev) (l : List Nat) : Dev := d.each l fun d k => d.hwr 0x30 (k + 1) 0 (dfltNum 0x30 (k + 1))

theorem forgetModes_md (l : List Nat) (d : Dev) : (d.forgetModes l).md = d.md := by
  induction l generalizing d with
  | nil => rfl
  | cons k l ih => exact ih _

/-- What reads its Default goes on doing so. -/
theorem hrd_forgetModes_of_default (l : List Nat) (d : Dev) (k : Nat) (hk : d.hrd 0x30 k 0 = dfltNum 0x30 k)
    (hl : ∀ j ∈ l, j < 9) (h9 : k < 256) : (d.forgetModes l).hrd 0x30 k 0 = dfltNum 0x30 k := by
  induction l generalizing d with
  | nil => exact hk
  | cons j l ih =>
    have hj := hl j List.mem_cons_self
    refine ih _ ?_ fun i hi => hl i (List.mem_cons_of_mem j hi)
    rw [Dev.hrd_hwr]
    split
    · rename_i he
      obtain ⟨_, rfl, _⟩ := (okey_inj h9 (by decide) (by omega) (by decide)).mp he
      rfl
    · exact hk

theorem hrd_forgetModes (l : List Nat) (d : Dev) (k : Nat) (h : k ∈ l) (hl : ∀ j ∈ l, j < 9) :
    (d.forgetModes l).hrd 0x30 (k + 1) 0 = dfltNum 0x30 (k + 1) := by
  induction l generalizing d with
  | nil => exact absurd h List.not_mem_nil
  | cons j l ih =>
    have hl' : ∀ i ∈ l, i < 9 := fun i hi => hl i (List.mem_cons_of_mem j hi)
    rcases List.mem_cons.mp h with rfl | h
    · have := hl k List.mem_cons_self
      exact hrd_forgetModes_of_default l _ (k + 1) (Dev.hrd_hwr_same d 0x30 (k + 1) 0 _) hl' (by omega)
    · exact ih _ h hl'

theorem Keeps.forgetModes (d : Dev) :
    Keeps [] ((List.range 9).map fun k => (0x30, k + 1)) d (d.forgetModes (List.range 9)) :=
  .foldl_mem (fun d k => d.hwr 0x30 (k + 1) 0 (dfltNum 0x30 (k + 1))) _ (fun d k hk => by
    have h9 := List.mem_range.mp hk
    exact .hwr _ (List.mem_map_of_mem (f := fun k => (0x30, k + 1)) hk) (by omega) (by decide)) d

theorem fieldHeartbeatMissing_due (d : Dev) (hd : d.bar.fieldDue = true) (hl : d.bar.link = 1)
    (ht : d.bar.since + 4 * ms ≤ d.now) (hs : d.bar.host.started = false) (hr : d.md.hostReset = false) :
    fieldHeartbeatMissing d =
      { d with bar.fieldDue := false, md.fieldReported := false }.forgetModes (List.range 9) := by
  unfold fieldHeartbeatMissing
  rw [if_pos (by simp [hd, hl, ht, hs, hr])]
  rfl

theorem fieldHeld_due (d : Dev) (x : Nat) (hx : d.bar.downAt = some x) (ht : x + sec ≤ d.now) (hl : d.bar.link ≠ 1)
    (hr : d.md.hostReset = false) (hh : d.md.fieldHeld = false) :
    fieldHeld d = { d.raiseHost 0x25 [] with md := { (d.raiseHost 0x25 []).md with fieldHeld := true } }.hwr 0x30 10 0 2 := by
  have run : (decide (x + sec ≤ d.now) && d.bar.link != 1 && !d.md.hostReset && !d.md.fieldHeld) = true := by
    simp [ht, hl, hr, hh]
  unfold fieldHeld
  simp only [hx, run, if_true]

theorem resetHold_runs (d : Dev) (holdMs : Nat) (hr : d.md.fieldReset = false) :
    resetHold holdMs d =
      ((d.takeMail .field 8).wr 0x30 9 0 (holdMs % 2 ^ 32 : Nat)).raise 0x25 (leBytes holdMs 4) := by
  unfold resetHold
  rw [if_neg (by simp [hr])]

/-- A change of what the dies note of each other, outside the resets. -/
theorem Keeps.setMd {xs ys : List (Nat × Nat)} (d : Dev) (x : Modes) (hf : x.fieldReset = d.md.fieldReset)
    (hh : x.hostReset = d.md.hostReset) : Keeps xs ys d { d with md := x } :=
  .of_same rfl ⟨rfl, rfl, rfl, rfl, rfl, rfl, rfl⟩ rfl hf hh

/-- Settles O4: one equation per command. -/
theorem hostDieJudgesAnAbsentFieldDie : Obligations.HostDieJudgesAnAbsentFieldDie := by
  refine ⟨fun s t hd hl ht hs hr => runsKeep_onDev (f := fieldHeartbeatMissing) rfl ?_,
    fun s t x hx ht hl hr hh => runsKeep_onDev (f := fieldHeld) rfl ?_,
    fun s t holdMs hr => runsKeep_onDev (f := resetHold holdMs) rfl ?_⟩
  · rw [fieldHeartbeatMissing_due (s.dev.advance t) hd hl (Nat.le_trans ht (Nat.le_max_right _ _)) hs hr]
    have noted : Keeps [] ((List.range 9).map fun k => (0x30, k + 1)) (s.dev.advance t)
        { s.dev.advance t with bar.fieldDue := false, md.fieldReported := false } :=
      (Keeps.bar _ { s.dev.bar with fieldDue := false }).trans (.setMd _ _ rfl rfl)
    have k := ((Keeps.advance s.dev t).trans noted).trans (.forgetModes _)
    refine ⟨fun j hj => hrd_forgetModes _ _ j hj fun _ => List.mem_range.mp, ?_, k.hostRegs, k.regs, k.motion⟩
    rw [forgetModes_md]
  · rw [fieldHeld_due (s.dev.advance t) x hx (Nat.le_trans ht (Nat.le_max_right _ _)) hl hr hh]
    have k : Keeps [] [(0x30, 10)] s.dev _ :=
      (((Keeps.advance s.dev t).trans (.raiseHost _ 0x25 [])).trans (.setMd _ _ rfl rfl)).trans
        (.hwr (o := 0x30) (el := 10) (i := 0) 2 (by decide) (by decide) (by decide))
    exact ⟨rfl, Dev.hrd_hwr_same _ _ _ _ _, k.hostRegs, k.regs, k.motion⟩
  · rw [resetHold_runs (s.dev.advance t) holdMs hr]
    have before : Keeps [(0x30, 9)] [] s.dev _ :=
      ((Keeps.advance s.dev t).trans (.takeMail _ .field 8)).trans
        (.wr (o := 0x30) (el := 9) (i := 0) (holdMs % 2 ^ 32 : Nat) (by decide) (by decide) (by decide))
    have k := before.trans (.raise _ 0x25 (leBytes holdMs 4))
    refine ⟨?_, before.raised hr ⟨[], (List.append_nil _).symm⟩, k.regs, k.hostRegs, k.motion⟩
    rw [Dev.rd_raise _ _ _ _ _ _ (by decide) (by decide) (by decide), Dev.rd_wr_same]

end Sys2Proof.Machine
end

section
/-! PROOFS for O10 and O11. Writes of ModeRequest and SafeHoldAck at the field die (R40, R41, R44), the end of the
controlled stop and of the grace timer (R41, R55 to R57). -/

namespace Sys2Proof.Machine

/-! ### Boot writes at the field die -/

/-- What an admitted write needs of the field die: out of reset, with its firmware. -/
theorem admits_runs {d : Dev} {req : Req} {o el i : Nat} {v : Bytes} (h : d.Admits req o el i v = true) :
    d.md.fieldReset = false ∧ d.md.fieldFw = true := by
  simp only [Dev.Admits, Bool.and_eq_true, Bool.not_eq_true'] at h
  obtain ⟨⟨⟨⟨⟨⟨⟨⟨⟨⟨⟨⟨⟨hr, hfw⟩, _⟩, _⟩, _⟩, _⟩, _⟩, _⟩, _⟩, _⟩, _⟩, _⟩, _⟩, _⟩ := h
  exact ⟨hr, hfw⟩

/-- Step 11 of a write of 0030h: its judgement `f`, and the answer with the status. -/
def JudgedBy (el : Nat) (f : Dev → Nat → Nat × Dev) : Prop :=
  ∀ (d : Dev) nv req hdr n,
    d.fieldWrite nv req hdr 0x30 el 0 (.num (n : Nat)) = ((f d n).2.reply req hdr (f d n).1, [])

theorem modeRequest_judges : JudgedBy 3 Dev.modeRequest := fun _ _ _ _ _ => rfl

theorem holdAck_judges : JudgedBy 6 Dev.holdAck := fun _ _ _ _ _ => rfl

/-- An admitted write of element 3 or 6 of 0030h: what the field die's judgement leaves, then the answer. -/
theorem bootWrite_runs {c : Instr} {s : State} {t el n : Nat} {req : Req} {bs : Bytes} {f : Dev → Nat → Nat × Dev}
    {P : Dev → Prop} (hc : exec c s = onMem t (bootWriteAt req 0x30 el bs) s) (hel : el = 3 ∨ el = 6)
    (hf : JudgedBy el f) (hv : valueOf (tyOf 0x30 el) bs = .num (n : Nat)) (h : s.dev.Admits req 0x30 el 0 bs = true)
    (hP : ∀ d e, Taken (s.dev.advance t) d → Answers (f d n).2 e → P e) : RunsKeep c s P := by
  have h3 : el = 3 ∨ el = 6 ∨ el = 7 := by omega
  obtain ⟨hr, hfw⟩ := admits_runs h
  obtain ⟨d, ht, hw⟩ := fieldRequest_admitted s.sram s.nv (s.dev.advance t) req 0x30 el 0 bs (by decide) (by omega)
    (.inr (.inl ⟨rfl, h3⟩)) h
  rw [hv, hf] at hw
  have hfield : bootWriteAt req 0x30 el bs s.sram s.nv (s.dev.advance t) = _ :=
    (if_neg (by simp [hr, hfw])).trans hw
  exact runsKeep_onMem hc hfield (hP d _ ht (.reply _ _ _ _))

/-- The number that the bytes of an unsigned value spell. -/
theorem valueOf_leBytes {t : Ty} {n k : Nat} (hb : tyBytes t = false) (hf : (t == .bf24) = false) (hs : tySigned t = false)
    (hn : n < 256 ^ k) : valueOf t (leBytes n k) = .num (n : Nat) := by
  simp [valueOf, hb, hf, decodeNum, hs, ofLe_leBytes, Nat.mod_eq_of_lt hn]

/-! ### ModeRequest -/

/-- A request that is taken is judged as it would have been before (R40): the judgement reads nothing that taking it
changes. -/
theorem Taken.modeJudge {d e : Dev} {t : Nat} (h : Taken (d.advance t) e) (v : Nat) : e.modeJudge v = d.modeJudge v := by
  obtain ⟨_, _, _, _, rfl⟩ := h
  rfl

theorem modeJudge_other (d : Dev) (v : Nat) (h2 : v ≠ 2) (h3 : v ≠ 3) : d.modeJudge v = 6 := by
  simp [Dev.modeJudge, h2, h3]

theorem modeJudge_stop (d : Dev) (hm : d.mode = 3) (hr : d.rn 0x30 3 0 = 0xFF) (hs : d.md.stopping = false) :
    d.modeJudge 2 = 0 := by
  simp [Dev.modeJudge, hm, hr, hs]

theorem modeRequest_run (d : Dev) (h : d.modeJudge 3 = 0) : (d.modeRequest 3).2 = d.wr 0x30 3 0 3 := by
  simp [Dev.modeRequest, h]

theorem modeRequest_other (d : Dev) (v : Nat) (h2 : v ≠ 2) (h3 : v ≠ 3) : (d.modeRequest v).2 = d := by
  simp [Dev.modeRequest, modeJudge_other d v h2 h3, h3]

theorem modeRequest_stop (d : Dev) (hm : d.mode = 3) (hr : d.rn 0x30 3 0 = 0xFF) (hs : d.md.stopping = false) :
    (d.modeRequest 2).2 = (d.wr 0x30 3 0 2).stopAll := by
  simp [Dev.modeRequest, modeJudge_stop d hm hr hs, hm]

/-- The beginning of the stop ramps touches the modes and the profile unit alone (R41). -/
theorem stopAll_eq (d : Dev) :
    ∃ p, d.stopAll = { d with md := { d.md with stopping := true, stopDone := false }, prof := p } := by
  have ramps : ∀ (l : List Nat) (e : Dev), ∃ p, e.each l (fun e a => e.stopRampDue a) = { e with prof := p } := by
    intro l
    induction l with
    | nil => exact fun e => ⟨e.prof, rfl⟩
    | cons a l ih =>
      intro e
      obtain ⟨p, hp⟩ := ih (e.stopRampDue a)
      exact ⟨p, hp⟩
  exact ramps _ _

/-- The controlled stop is complete (R41). -/
theorem stopComplete_eq (d : Dev) (hr : d.md.fieldReset = false) (hs : d.md.stopping = true) (hm : d.mode = 3)
    (ha : d.enabledAxes.all d.standstill = true) : stopComplete d = { d with md.stopDone := true } := by
  unfold stopComplete
  rw [if_neg (by simp [hr, hs, hm, ha])]

/-- Settles O10: the judgement of R40 case by case, and the frame of the answer. -/
theorem modeRequestsAndTheStop : Obligations.ModeRequestsAndTheStop := by
  refine ⟨fun s t req ha hj => bootWrite_runs rfl (.inl rfl) modeRequest_judges (n := 3) rfl ha fun d e ht he => ?_,
    fun s t value req ha hv h2 h3 =>
      bootWrite_runs rfl (.inl rfl) modeRequest_judges (valueOf_leBytes rfl rfl rfl hv) ha fun d e ht he => ?_,
    fun s t req ha hm hr hs =>
      bootWrite_runs rfl (.inl rfl) modeRequest_judges (n := 2) rfl ha fun d e ht he => ?_,
    fun s t hr hs hm hx => runsKeep_onDev (f := stopComplete) rfl (stopComplete_eq (s.dev.advance t) hr hs hm hx)⟩
  all_goals
    have taken : Keeps [] [] s.dev d := (Keeps.advance s.dev t).trans ht.keeps
    obtain ⟨_, hmd, _⟩ := ht.reads
  · rw [modeRequest_run d ((ht.modeJudge 3).trans hj)] at he
    have k : Keeps [(0x30, 3)] [] s.dev e :=
      ((taken.weaken (List.nil_subset _) (List.nil_subset _)).trans
        (.wr (o := 0x30) (el := 3) (i := 0) 3 (by decide) (by decide) (by decide))).trans he.keeps
    exact ⟨(he.rd 0x30 3 0).trans (Dev.rd_wr_same d 0x30 3 0 3), he.md.trans hmd, k.regs, k.hostRegs, k.motion⟩
  · rw [modeRequest_other d value h2 h3] at he
    have k : Keeps [] [] s.dev e := taken.trans he.keeps
    exact ⟨he.md.trans hmd, k.regs, k.hostRegs, k.motion⟩
  · have hm' : d.mode = 3 := (Dev.rn_eq_of_rd (ht.rd 0x30 1 0)).trans hm
    have hr' : d.rn 0x30 3 0 = 0xFF := (Dev.rn_eq_of_rd (ht.rd 0x30 3 0)).trans hr
    obtain ⟨p, hstop⟩ := stopAll_eq (d.wr 0x30 3 0 2)
    rw [modeRequest_stop d hm' hr' ((congrArg Modes.stopping hmd).trans hs), hstop] at he
    have hread : e.rd 0x30 3 0 = 2 := (he.rd 0x30 3 0).trans (Dev.rd_wr_same d 0x30 3 0 2)
    have hmode := he.md
    obtain ⟨h1, h2, h3, h4, h5, h6, h7⟩ := (he.keeps (xs := []) (ys := [])).motion
    obtain ⟨g1, g2, g3, g4, g5, g6, g7⟩ := taken.motion
    refine ⟨hread, by rw [hmode], by rw [hmode], h1.trans g1, h2.trans g2, h4.trans g4, h6.trans g6, ?_⟩
    exact taken.hostRegs.trans ((SameHostRegs.of_hod rfl).trans (he.keeps (xs := []) (ys := [])).hostRegs)

/-! ### SafeHoldAck and the grace timer -/

/-- What the judgement of SafeHoldAck reads is as it was before the request was taken (R44). -/
theorem Taken.ackReads {d e : Dev} {t : Nat} (h : Taken (d.advance t) e) :
    e.mode = d.mode ∧ e.rn 0x30 5 0 = d.rn 0x30 5 0 ∧ e.torqueAllOff = d.torqueAllOff ∧ e.causePersists = d.causePersists := by
  obtain ⟨_, _, _, _, rfl⟩ := h
  exact ⟨rfl, rfl, rfl, rfl⟩

theorem holdAck_accepted (d : Dev) (v : Nat) (hm : d.mode = 5) (hv : v = d.rn 0x30 5 0) (ht : d.torqueAllOff = true)
    (hc : d.causePersists = false) :
    (d.holdAck v).2 = ({ d with md.ackAccepted := true }.wr 0x30 6 0 v).raise 4 [] := by
  simp [Dev.holdAck, hm, ← hv, ht, hc]

theorem holdAck_refused (d : Dev) (v : Nat) (hv : v ≠ d.rn 0x30 5 0) : (d.holdAck v).2 = d := by
  unfold Dev.holdAck
  split
  · rfl
  · rw [if_pos (by simpa using hv)]

/-- The end of the grace timer (R55 to R57). -/
theorem graceAt_due (d : Dev) (x : Nat) (hg : d.md.grace = some x) (hx : x ≤ d.now) (hr : d.md.fieldReset = false) :
    graceAt d = d.graceExpired := by
  unfold graceAt
  simp only [hg, hr, Bool.false_or, decide_eq_true_eq]
  rw [if_neg (by omega)]

/-- The grace timer is off and event 05h is raised, before the mode is judged (R55). -/
def Dev.graceOver (d : Dev) : Dev := { d with md.grace := none }.raise 5 []

theorem graceOver_md (d : Dev) : d.graceOver.md = { d.md with grace := none } := Dev.raise_md _ 5 []

theorem graceOver_mode (d : Dev) : d.graceOver.mode = d.mode :=
  Dev.rn_eq_of_rd (Dev.rd_raise _ 5 [] 0x30 1 0 (by decide) (by decide) (by decide))

theorem graceExpired_run (d : Dev) (hm : d.mode = 3) (hc : d.md.cause = none) :
    d.graceExpired = { d.graceOver with md := { d.md with grace := none, cause := some 5 } } := by
  have hm' : d.graceOver.mode = 3 := (graceOver_mode d).trans hm
  show (if d.graceOver.mode == 3 then d.graceOver.safeHold 5 else _) = _
  simp only [hm', beq_self_eq_true, if_true, Dev.safeHold, Bool.true_or, graceOver_md, hc]

theorem graceExpired_ride (d : Dev) (hm : d.mode = 4) :
    d.graceExpired = { d.graceOver with md := { d.md with grace := none, deferred := some (d.md.deferred.getD 5) } } := by
  have hm' : d.graceOver.mode = 4 := (graceOver_mode d).trans hm
  show (if d.graceOver.mode == 3 then _ else if d.graceOver.mode == 4 then { d.graceOver with md := { d.graceOver.md with
    deferred := some (d.graceOver.md.deferred.getD 5) } } else _) = _
  simp only [hm', graceOver_md]
  rfl

/-- The end of the grace timer with the modes put to `x`: event 05h, and nothing else. -/
theorem graceOver_leaves {s : State} (t : Nat) (x : Modes) (hr : s.dev.md.fieldReset = false)
    (hf : x.fieldReset = s.dev.md.fieldReset) (hh : x.hostReset = s.dev.md.hostReset) :
    Raised s.dev { (s.dev.advance t).graceOver with md := x } 5 [] ∧
      SameRegs [] s.dev { (s.dev.advance t).graceOver with md := x } ∧
      SameHostRegs [] s.dev { (s.dev.advance t).graceOver with md := x } ∧
      SameMotion s.dev { (s.dev.advance t).graceOver with md := x } := by
  have before : Keeps [] [] s.dev { s.dev.advance t with md.grace := none } :=
    (Keeps.advance s.dev t).trans (.setMd _ _ rfl rfl)
  have hm := graceOver_md (s.dev.advance t)
  have k : Keeps [] [] s.dev { (s.dev.advance t).graceOver with md := x } :=
    (before.trans (.raise _ 5 [])).trans (.setMd _ x (hf.trans (congrArg Modes.fieldReset hm).symm)
      (hh.trans (congrArg Modes.hostReset hm).symm))
  exact ⟨before.raised hr ⟨[], (List.append_nil _).symm⟩, k.regs, k.hostRegs, k.motion⟩

/-- Settles O11: the judgement of R44, and the end of the grace timer by mode. -/
theorem safeHoldIsAcknowledgedAndHostLossEndsInIt : Obligations.SafeHoldIsAcknowledgedAndHostLossEndsInIt := by
  refine ⟨fun s t value req ha hv hm he5 htq hcp =>
      bootWrite_runs rfl (.inr rfl) holdAck_judges (valueOf_leBytes rfl rfl rfl hv) ha fun d e ht he => ?_,
    fun s t value req ha hv hne =>
      bootWrite_runs rfl (.inr rfl) holdAck_judges (valueOf_leBytes rfl rfl rfl hv) ha fun d e ht he => ?_,
    fun s t x hg hx hr hm hc => runsKeep_onDev (f := graceAt) rfl ?_,
    fun s t x hg hx hr hm => runsKeep_onDev (f := graceAt) rfl ?_⟩
  · obtain ⟨hm', h5', htq', hcp'⟩ := ht.ackReads
    obtain ⟨_, hmd, _⟩ := ht.reads
    rw [holdAck_accepted d value (hm'.trans hm) (he5.trans h5'.symm) (htq'.trans htq) (hcp'.trans hcp)] at he
    have before : Keeps [(0x30, 6)] [] s.dev ({ d with md.ackAccepted := true }.wr 0x30 6 0 value) :=
      (((Keeps.advance s.dev t).trans (ht.keeps.weaken (List.nil_subset _) (List.nil_subset _))).trans
        (.setMd _ _ rfl rfl)).trans (.wr (o := 0x30) (el := 6) (i := 0) value (by decide) (by decide) (by decide))
    have k := (before.trans (.raise _ 4 [])).trans he.keeps
    refine ⟨?_, ?_, before.raised (admits_runs ha).1 (he.keeps (xs := []) (ys := [])).queue, k.regs, k.hostRegs, k.motion⟩
    · rw [he.md, Dev.raise_md, Dev.wr_md, hmd]
      rfl
    · rw [he.rd, Dev.rd_raise _ _ _ _ _ _ (by decide) (by decide) (by decide), Dev.rd_wr_same]
  · obtain ⟨_, h5', _⟩ := ht.ackReads
    obtain ⟨_, hmd, _⟩ := ht.reads
    rw [holdAck_refused d value (by rwa [h5'])] at he
    have k : Keeps [] [] s.dev e := ((Keeps.advance s.dev t).trans ht.keeps).trans he.keeps
    exact ⟨he.md.trans hmd, k.regs, k.hostRegs, k.motion⟩
  · rw [graceAt_due (s.dev.advance t) x hg (Nat.le_trans hx (Nat.le_max_right _ _)) hr,
      graceExpired_run (s.dev.advance t) hm hc]
    exact ⟨rfl, graceOver_leaves t _ hr rfl rfl⟩
  · rw [graceAt_due (s.dev.advance t) x hg (Nat.le_trans hx (Nat.le_max_right _ _)) hr,
      graceExpired_ride (s.dev.advance t) hm]
    exact ⟨rfl, graceOver_leaves t _ hr rfl rfl⟩

end Sys2Proof.Machine
end

section
/-! PROOFS for O1. Low levels at the reset balls and their release (R51, R52, R59, R516). -/

namespace Sys2Proof.Machine

/-! ### The other die's end of the barrier -/

/-- The host die's end of the barrier and the draws of free values alone may differ. -/
def HostEnd (d e : Dev) : Prop := ∃ k x, e = { d with free := k, bar.host := x }

theorem HostEnd.refl (d : Dev) : HostEnd d d := ⟨d.free, d.bar.host, rfl⟩

theorem HostEnd.trans {d e f : Dev} (h : HostEnd d e) (g : HostEnd e f) : HostEnd d f := by
  obtain ⟨_, _, rfl⟩ := h
  obtain ⟨k, x, rfl⟩ := g
  exact ⟨k, x, rfl⟩

theorem HostEnd.setBd (d : Dev) (x : BarDie) : HostEnd d (d.setBd .host x) := ⟨d.free, x, rfl⟩

theorem HostEnd.raiseHost (d : Dev) (n : Nat) (ps : Bytes) : HostEnd d (d.raiseHost n ps) := by
  obtain ⟨k, x, h, _⟩ := raiseHost_eq d n ps
  exact ⟨k, x, h⟩

theorem HostEnd.foldl {α : Type} (g : Dev → α → Dev) (h : ∀ d x, HostEnd d (g d x)) (l : List α) (d : Dev) :
    HostEnd d (l.foldl g d) := by
  induction l generalizing d with
  | nil => exact .refl d
  | cons x l ih => exact (h d x).trans (ih (g d x))

/-- What the host die's sender loses when its partner is reset (R24). -/
theorem HostEnd.partnerReset (d : Dev) : HostEnd d (d.partnerReset .host) :=
  ((HostEnd.setBd d _).trans (.foldl _ (fun d m => .raiseHost d 0x27 (leBytes m 1)) _ _)).trans (.setBd _ _)

theorem Keeps.partnerReset {xs ys : List (Nat × Nat)} (d : Dev) (die : Die) : Keeps xs ys d (d.partnerReset die) :=
  (Keeps.settleSender d die _).trans (.setBd _ die _)

/-- A training is under way, and the hold time begins where the barrier was up (R15, R52). -/
def Dev.trainAgain (d : Dev) (lasting : Bool) : Dev :=
  { d with
    bar.link := 0, bar.training := true, bar.fails := 0, bar.lasting := lasting
    bar.downAt := if d.bar.link == 1 then some d.now else d.bar.downAt }

/-- FieldState at a host die out of reset (R52). -/
def Dev.noteLost (d : Dev) : Dev := if d.md.hostReset || d.bar.downAt.isNone then d else d.hwr 0x30 10 0 1

/-- LinkState and Retrains at a field die out of reset (R15). -/
def Dev.countLost (d : Dev) : Dev := if d.md.fieldReset then d else (d.wr 0x8110 1 0 0).inc 0x8110 2 0

theorem barrierLost_steps (d : Dev) (l : Bool) : d.barrierLost l = (d.countLost.trainAgain l).noteLost := rfl

theorem countLost_eq (d : Dev) :
    ∃ od, d.countLost = { d with ob := { d.ob with od := od } } ∧ (d.md.fieldReset = true → od = d.ob.od) := by
  unfold Dev.countLost
  split
  · exact ⟨d.ob.od, rfl, fun _ => rfl⟩
  · rename_i h
    exact ⟨_, rfl, fun h' => absurd h' h⟩

theorem noteLost_eq (d : Dev) :
    ∃ hod, d.noteLost = { d with ob := { d.ob with hod := hod } } ∧ (d.md.hostReset = true → hod = d.ob.hod) := by
  unfold Dev.noteLost
  split
  · exact ⟨d.ob.hod, rfl, fun _ => rfl⟩
  · rename_i h
    exact ⟨_, rfl, fun h' => absurd (by simp [h']) h⟩

/-- The loss of the barrier: a training begins; a die in reset keeps its elements (R15, R52). -/
theorem barrierLost_eq (d : Dev) (l : Bool) :
    ∃ b od hod, d.barrierLost l = { d with bar := b, ob := { d.ob with od := od, hod := hod } } ∧ b.link = 0 ∧
      b.training = true ∧ (d.md.fieldReset = true → od = d.ob.od) ∧ (d.md.hostReset = true → hod = d.ob.hod) := by
  obtain ⟨od, hc, ho⟩ := countLost_eq d
  obtain ⟨hod, hn, hh⟩ := noteLost_eq (d.countLost.trainAgain l)
  rw [barrierLost_steps, hn]
  rw [hc] at hh ⊢
  exact ⟨_, od, hod, rfl, rfl, rfl, ho, hh⟩

/-! ### FRST_N low -/

/-- A pulse of 2 us or more resets, one below 1 us does not (R51). -/
theorem pulse_long (d : Dev) (width : Nat) (h : 2 * us ≤ width) : d.pulse width = (true, d) := by
  have h1 : ¬ width < us := by
    have : 0 < us := by decide
    omega
  simp [Dev.pulse, h1, h]

theorem pulse_short (d : Dev) (width : Nat) (h : width < us) : d.pulse width = (false, d) := by
  simp [Dev.pulse, h]

/-- The field die enters reset from operation (R52): the host die's end settles what it had sent, then every register of
the field die is reset. -/
theorem fieldDown_eq (d : Dev) (hr : d.md.fieldReset = false) :
    ∃ a, HostEnd d a ∧
      d.fieldDown false = ({ a.resetField with md := { a.resetField.md with fieldReset := true } } : Dev).barrierLost false := by
  have silent : HostEnd d (if d.bar.host.started && !d.bar.host.silent then
      { d.raiseHost 0x24 [] with
        bar := { (d.raiseHost 0x24 []).bar with host := { (d.raiseHost 0x24 []).bar.host with silent := true } } } else d) := by
    split
    · exact (HostEnd.raiseHost d 0x24 []).trans ⟨_, _, rfl⟩
    · exact .refl d
  refine ⟨_, silent.trans (.partnerReset _), ?_⟩
  unfold Dev.fieldDown
  simp only [hr, Bool.not_false, Bool.true_and, Bool.false_and, Bool.false_eq_true, if_false]

theorem frstLow_resets (d : Dev) (width : Nat) (nv : Mem) (hw : 2 * us ≤ width) (hb : d.st.breath = none) :
    frstLow width nv d = ({ d.fieldDown false with
      clk := { (d.fieldDown false).clk with fieldMon := false, fieldWait := none } }, []) := by
  have stop : d.breathStop 2 nv = (d, []) := by
    unfold Dev.breathStop
    rw [hb]
  unfold frstLow
  rw [pulse_long d width hw]
  simp only [Bool.not_true, Bool.false_eq_true, if_false, stop]

/-- The field die in reset (R52, R55). -/
theorem fieldDown_leaves (d : Dev) (hr : d.md.fieldReset = false) :
    (d.fieldDown false).md.fieldReset = true ∧ (d.fieldDown false).md.fieldFw = false ∧
      (d.fieldDown false).md.hostReset = d.md.hostReset ∧ (d.fieldDown false).ob.od = [] ∧ (d.fieldDown false).segs = [] ∧
      (d.fieldDown false).eng = {} ∧ (d.fieldDown false).line = {} ∧ (d.fieldDown false).prof = {} ∧
      (d.fieldDown false).safe = {} ∧ (d.fieldDown false).bar.link = 0 ∧ (d.fieldDown false).bar.training = true ∧
      (d.fieldDown false).hcan = d.hcan := by
  obtain ⟨_, ⟨k, x, rfl⟩, hd⟩ := fieldDown_eq d hr
  obtain ⟨b, od, hod, hb, hl, ht, ho, _⟩ := barrierLost_eq _ false
  rw [hd, hb]
  exact ⟨rfl, rfl, rfl, ho rfl, rfl, rfl, rfl, rfl, rfl, hl, ht, rfl⟩

/-! ### FRST_N released -/

/-- What the reading of straps and seal at the release of the field die keeps (R53, R457). -/
def ReleaseKeeps (d e : Dev) : Prop :=
  e.md.fieldReset = d.md.fieldReset ∧ e.ld = d.ld ∧ e.clk = d.clk ∧ SameCan d e ∧ e.rd 0x20 7 0 = d.rd 0x20 7 0

theorem ReleaseKeeps.refl (d : Dev) : ReleaseKeeps d d := ⟨rfl, rfl, rfl, ⟨rfl, rfl⟩, rfl⟩

theorem ReleaseKeeps.trans {d e f : Dev} (h : ReleaseKeeps d e) (g : ReleaseKeeps e f) : ReleaseKeeps d f := by
  obtain ⟨h1, h2, h3, ⟨h4, h5⟩, h6⟩ := h
  obtain ⟨g1, g2, g3, ⟨g4, g5⟩, g6⟩ := g
  exact ⟨g1.trans h1, g2.trans h2, g3.trans h3, ⟨g4.trans h4, g5.trans h5⟩, g6.trans h6⟩

theorem ReleaseKeeps.foldl {α : Type} (g : Dev → α → Dev) (h : ∀ d x, ReleaseKeeps d (g d x)) (l : List α) (d : Dev) :
    ReleaseKeeps d (l.foldl g d) := by
  induction l generalizing d with
  | nil => exact .refl d
  | cons x l ih => exact (h d x).trans (ih (g d x))

theorem ReleaseKeeps.ite (p : Prop) [Decidable p] {d e : Dev} (h : ReleaseKeeps d e) : ReleaseKeeps d (if p then e else d) := by
  split
  · exact h
  · exact .refl d

theorem ReleaseKeeps.wr (d : Dev) (o el i : Nat) (v : Int) (h : okey 0x20 7 0 ≠ okey o el i) :
    ReleaseKeeps d (d.wr o el i v) :=
  ⟨rfl, rfl, rfl, ⟨rfl, rfl⟩, Dev.rd_wr_other d o el i 0x20 7 0 v h⟩

theorem ReleaseKeeps.raise (d : Dev) (n : Nat) (ps : Bytes) : ReleaseKeeps d (d.raise n ps) :=
  ⟨by rw [Dev.raise_md], Dev.raise_ld d n ps, Dev.raise_clk d n ps, ⟨Dev.raise_hcan d n ps, Dev.raise_fcan d n ps⟩,
    Dev.rd_raise d n ps 0x20 7 0 (by decide) (by decide) (by decide)⟩

/-- A Safe-hold cause is noted in the modes alone (R43). -/
theorem safeHold_eq (d : Dev) (ev : Nat) : ∃ c, d.safeHold ev = { d with md := { d.md with cause := c } } := by
  unfold Dev.safeHold
  split
  · split
    · exact ⟨_, rfl⟩
    · exact ⟨d.md.cause, rfl⟩
  · exact ⟨d.md.cause, rfl⟩

theorem ReleaseKeeps.deviceStop (d : Dev) (ev : Nat) : ReleaseKeeps d (d.deviceStop ev) := by
  obtain ⟨c, h⟩ := safeHold_eq ((d.wr 0x4000 6 0 ev).raise 0xB0 (leBytes ev 1)) 0xB0
  unfold Dev.deviceStop
  rw [h]
  exact ((ReleaseKeeps.wr d 0x4000 6 0 ev (by decide)).trans (.raise _ 0xB0 (leBytes ev 1))).trans
    ⟨rfl, rfl, rfl, ⟨rfl, rfl⟩, rfl⟩

/-- A change of the safety monitor's data. -/
theorem ReleaseKeeps.setSafe (d : Dev) (x : SafeSt) : ReleaseKeeps d { d with safe := x } :=
  ⟨rfl, rfl, rfl, ⟨rfl, rfl⟩, rfl⟩

theorem ReleaseKeeps.updateCauses (d : Dev) : ReleaseKeeps d d.updateCauses := by
  unfold Dev.updateCauses
  dsimp only
  have stops : ReleaseKeeps d (d.each (d.stopCauses.filter fun c => !d.safe.causes.contains c.1) fun d c => d.deviceStop c.2) :=
    .foldl (fun d (c : Nat × Nat) => d.deviceStop c.2) (fun d c => ReleaseKeeps.deviceStop d c.2) _ d
  generalize d.each (d.stopCauses.filter fun c => !d.safe.causes.contains c.1) (fun d c => d.deviceStop c.2) = e at stops ⊢
  have shown := ReleaseKeeps.ite (d.stopCauses.isEmpty = true) (.wr e 0x4000 6 0 0 (by decide))
  generalize (if d.stopCauses.isEmpty = true then e.wr 0x4000 6 0 0 else e) = f at shown ⊢
  exact (stops.trans shown).trans (.setSafe f _)

theorem ReleaseKeeps.sealUpdate (d : Dev) : ReleaseKeeps d d.sealUpdate := by
  unfold Dev.sealUpdate
  refine ReleaseKeeps.trans ?_ (.updateCauses _)
  exact (ReleaseKeeps.wr d 0x4000 3 0 _ (by decide)).trans (.ite _ (.raise _ _ _))

theorem ReleaseKeeps.readSeal (d : Dev) (up down : Nat) : ReleaseKeeps d (d.readSeal up down) := by
  unfold Dev.readSeal
  refine ReleaseKeeps.trans ?_ (.sealUpdate _)
  exact (((ReleaseKeeps.wr d 0x4000 1 0 _ (by decide)).trans (.wr _ 0x4000 9 0 _ (by decide))).trans
    (.wr _ 0x4000 2 0 _ (by decide))).trans (.setSafe _ _)

/-- The field die leaves reset (R53, R74, R457, R512). -/
theorem fieldUp_leaves (d : Dev) (nv : Mem) (ssc up down : Nat) :
    (d.fieldUp nv ssc up down).md.fieldReset = false ∧ (d.fieldUp nv ssc up down).ld.rollback = rollbackOf nv ∧
      (d.fieldUp nv ssc up down).clk.straps = (ssc, up, down) ∧
      (d.fieldUp nv ssc up down).rd 0x20 7 0 = (rollbackOf nv : Int) ∧ SameCan d (d.fieldUp nv ssc up down) := by
  have out : ReleaseKeeps (Dev.wr { d with
      md.fieldReset := false
      clk := { d.clk with fieldWait := none, straps := (ssc, up, down) }
      ld.rollback := rollbackOf nv } 0x20 7 0 (rollbackOf nv)) (d.fieldUp nv ssc up down) :=
    (((ReleaseKeeps.wr _ 0x8050 1 0 (ssc % 8 : Nat) (by decide)).trans (.wr _ 0x8050 7 0 _ (by decide))).trans
      (.ite _ (.raise _ 0x2B []))).trans (.readSeal _ up down)
  generalize d.fieldUp nv ssc up down = e at out ⊢
  obtain ⟨h1, h2, h3, h4, h5⟩ := out
  exact ⟨h1, congrArg Load.rollback h2, congrArg ClkSt.straps h3, h5.trans (Dev.rd_wr_same _ _ _ _ _), h4⟩

/-! ### HRST_N -/

theorem hrstLow_resets (d : Dev) (width : Nat) (hw : 2 * us ≤ width) :
    hrstLow width d = { d.hostDown with clk := { d.hostDown.clk with hostMon := false, hostWait := false } } := by
  unfold hrstLow
  simp only [pulse_long d width hw, if_true]

theorem hostDown_eq (d : Dev) (hr : d.md.hostReset = false) :
    d.hostDown = ({ (d.partnerReset .field).resetHost with
      md := { (d.partnerReset .field).resetHost.md with hostReset := true } } : Dev).barrierLost false := by
  unfold Dev.hostDown
  simp only [hr, Bool.false_eq_true, if_false]

/-- The host die in reset (R51): its objects at their Defaults, no session, no request; the motion side goes on. -/
theorem hostDown_leaves (d : Dev) (hr : d.md.hostReset = false) :
    d.hostDown.md.hostReset = true ∧ d.hostDown.md.hostFw = false ∧ d.hostDown.ld.session = none ∧
      d.hostDown.ob.outstanding = [] ∧ d.hostDown.ob.hod = [] ∧ d.hostDown.bar.link = 0 ∧ d.hostDown.bar.training = true ∧
      d.hostDown.md.fieldReset = d.md.fieldReset ∧ SameMotion d d.hostDown := by
  have before : Keeps [] [] d (d.partnerReset .field) := .partnerReset d .field
  rw [hostDown_eq d hr]
  generalize d.partnerReset .field = a at before ⊢
  obtain ⟨b, od, hod, hb, hl, ht, _, hh⟩ := barrierLost_eq _ false
  rw [hb]
  exact ⟨rfl, rfl, rfl, rfl, hh rfl, hl, ht, before.fieldReset, before.motion⟩

/-- A release while the detectors report lock (R516). -/
theorem frstRelease_locked (d : Dev) (ssc plls up down : Nat) (nv : Mem) (hr : d.md.fieldReset = true) (hp : plls % 8 = 7) :
    frstRelease ssc plls up down nv d = ({ d with clk := { d.clk with
      locked := plls % 8 + d.clk.locked / 8 * 8, failed := d.clk.failed.filter (· == 4), lost := d.clk.lost.filter (· == 4) } } :
      Dev).fieldUp nv ssc up down := by
  unfold frstRelease
  rw [if_neg (by simp [hr])]
  exact if_pos (by simp [hp])

theorem frstRelease_waits (d : Dev) (ssc plls up down : Nat) (nv : Mem) (hr : d.md.fieldReset = true) (hp : plls % 8 ≠ 7) :
    frstRelease ssc plls up down nv d = { d with clk := { d.clk with
      locked := plls % 8 + d.clk.locked / 8 * 8, fieldWait := some (ssc, up, down) } } := by
  unfold frstRelease
  rw [if_neg (by simp [hr])]
  exact if_neg (by simp [hp])

theorem hrstRelease_eq (d : Dev) (locked : Bool) (hr : d.md.hostReset = true) :
    hrstRelease locked d = if locked then
      { d with
        md.hostReset := false
        clk := { d.clk with hostWait := false, locked := setBit d.clk.locked 3 true, lost := d.clk.lost.filter (· != 4) } }
    else { d with clk := { d.clk with hostWait := true, locked := setBit d.clk.locked 3 false } } := by
  unfold hrstRelease
  rw [if_neg (by simp [hr])]

/-- A change of modes and clock monitors alone. -/
theorem sameAll_of_clk {xs ys : List (Nat × Nat)} (d : Dev) (t : Nat) (m : Modes) (c : ClkSt) :
    SameRegs xs d { d.advance t with md := m, clk := c } ∧ SameHostRegs ys d { d.advance t with md := m, clk := c } ∧
      SameMotion d { d.advance t with md := m, clk := c } :=
  ⟨.of_od rfl, .of_hod rfl, rfl, rfl, rfl, rfl, rfl, rfl, rfl⟩

/-- The pin command whose device part leaves the lines of a stopped breath to store, where it stores none. -/
theorem frstNLow_runs {s : State} {t width : Nat} {P : Dev → Prop} {e : Dev}
    (hf : frstLow width s.nv (s.dev.advance t) = (e, [])) (h : P e) : RunsKeep (.frstNLow t width) s P :=
  runsKeep_onMem
    (f := fun _ nv d => ((frstLow width nv d).1, (frstLow width nv d).1.st.bytesOf (frstLow width nv d).2))
    rfl (show ((frstLow width s.nv (s.dev.advance t)).1, _) = _ by rw [hf]; rfl) h

theorem frstNRelease_runs {s : State} {t ssc plls up down : Nat} {P : Dev → Prop}
    (h : P (frstRelease ssc plls up down s.nv (s.dev.advance t))) :
    RunsKeep (.frstNRelease t ssc plls up down) s P :=
  runsKeep_onMem (f := fun _ nv d => (frstRelease ssc plls up down nv d, [])) rfl rfl h

/-- Settles O1: what each reset and release leaves, by die. -/
theorem resetOfADieLeavesItsDefaults : Obligations.ResetOfADieLeavesItsDefaults := by
  refine ⟨fun s t width hw hr hb => frstNLow_runs (frstLow_resets (s.dev.advance t) width s.nv hw hb) ?_,
    fun s t ssc plls up down hr hp => frstNRelease_runs ?_,
    fun s t ssc plls up down hr hp => frstNRelease_runs ?_,
    fun s t width hw hr => runsKeep_onDev (f := hrstLow width) rfl ?_,
    fun s t width hw => frstNLow_runs (e := s.dev.advance t) ?_ rfl,
    fun s t width hw => runsKeep_onDev (f := hrstLow width) rfl ?_,
    fun s t hr => runsKeep_onDev (f := hrstRelease true) rfl ?_,
    fun s t hr => runsKeep_onDev (f := hrstRelease false) rfl ?_⟩
  · have left := fieldDown_leaves (s.dev.advance t) hr
    generalize (s.dev.advance t).fieldDown false = e at left ⊢
    obtain ⟨h1, h2, h3, h4, h5, h6, h7, h8, h9, h10, h11, h12⟩ := left
    refine ⟨h1, h2, h3, fun o el i => ?_, h5, h6, h7, h8, h9, h10, h11, h12⟩
    simp only [Dev.rd, h4, Tab.find, Option.getD_none]
  · rw [frstRelease_locked (s.dev.advance t) ssc plls up down s.nv hr hp]
    exact fieldUp_leaves _ s.nv ssc up down
  · rw [frstRelease_waits (s.dev.advance t) ssc plls up down s.nv hr hp]
    exact ⟨rfl, rfl, sameAll_of_clk s.dev t _ _⟩
  · rw [hrstLow_resets (s.dev.advance t) width hw]
    have left := hostDown_leaves (s.dev.advance t) hr
    generalize (s.dev.advance t).hostDown = e at left ⊢
    obtain ⟨h1, h2, h3, h4, h5, h6, h7, h8, h9⟩ := left
    refine ⟨h1, h2, h3, h4, fun o el i => ?_, h6, h7, h8, h9⟩
    simp only [Dev.hrd, h5, Tab.find, Option.getD_none]
  · unfold frstLow
    rw [pulse_short (s.dev.advance t) width hw]
    rfl
  · unfold hrstLow
    rw [pulse_short (s.dev.advance t) width hw]
    rfl
  · rw [hrstRelease_eq (s.dev.advance t) true hr]
    exact ⟨rfl, sameAll_of_clk s.dev t _ _⟩
  · rw [hrstRelease_eq (s.dev.advance t) false hr]
    exact ⟨rfl, rfl, sameAll_of_clk s.dev t _ _⟩

end Sys2Proof.Machine
end

section
/-! PROOFS for O22. The boundary that enters Run enters Ride-through with it when a unit already rides (R38, R319). -/

namespace Sys2Proof.Machine

/-- Prepare with request 03h pending and the latch generator running, nothing due and no line unit's flags set: unit 0 is
enabled (3000h:1 = 1) and its state element 3040h:1 reads 6, Riding. -/
def ridingAtTheBoundary : Dev :=
  { ({} : Dev) with
    ob.od := [(okey 0x30 1 0, 2), (okey 0x30 3 0, 3), (okey 0x3000 1 0, 1), (okey 0x3040 1 0, 6)]
    tm.running := true
    tm.started := true }

def ridingState : State := { State.reset with dev := ridingAtTheBoundary }

-- the evaluation of one whole boundary nests deeper than the default allows
set_option maxRecDepth 4000 in
/-- The latch instant that brings this device from Prepare into Run brings it on into Ride-through. -/
theorem ridingState_latchInstant :
    ∃ t, exec (.latchInstant 250000000 []) ridingState = .next t ∧ t.dev.rd 0x30 1 0 = 4 :=
  ⟨_, rfl, by decide⟩

/-- Refutes O22: the clause of Prepare with request 03h asks for no line unit in `line.units`, but a unit's state stands in
3040h:1, and an enabled unit in Riding takes the device on into Ride-through (mode 4) at the boundary that enters Run. -/
theorem not_theCycleBoundary : ¬ Obligations.TheCycleBoundary := by
  rintro ⟨-, -, -, entersRun, -⟩
  obtain ⟨u, hu, -, -, -, hmode, -⟩ :=
    entersRun ridingState 250000000 [] rfl rfl rfl (by decide) (by decide) (by decide) rfl rfl
  obtain ⟨v, hv, riding⟩ := ridingState_latchInstant
  have same : u = v := Host.Outcome.next.inj (hu.symm.trans hv)
  rw [same, riding] at hmode
  exact absurd hmode (by decide)

end Sys2Proof.Machine
end

section
/-! PROOFS for O14. Load control at the field die, the load status at the host die, verification and start (R38, R39, R58,
R73 to R77, R546, R547). -/

namespace Sys2Proof.Machine

/-! ### A load control message is taken -/

/-- A message taken changes its end of the barrier alone. -/
theorem takeMail_same (d : Dev) (die : Die) (m : Nat) :
    (d.takeMail die m).md = d.md ∧ (d.takeMail die m).ld = d.ld ∧ (d.takeMail die m).ring = d.ring ∧
      (d.takeMail die m).ob = d.ob := by
  obtain ⟨x, h⟩ := takeMail_eq d die m
  rw [h]
  cases die <;> exact ⟨rfl, rfl, rfl, rfl⟩

theorem takeMail_md (d : Dev) (die : Die) (m : Nat) : (d.takeMail die m).md = d.md := by
  obtain ⟨h, _⟩ := takeMail_same d die m
  exact h

theorem takeMail_ld (d : Dev) (die : Die) (m : Nat) : (d.takeMail die m).ld = d.ld := by
  obtain ⟨_, h, _⟩ := takeMail_same d die m
  exact h

theorem takeMail_quiet (d : Dev) (die : Die) (m : Nat) : Quiet d (d.takeMail die m) := by
  obtain ⟨_, _, h, _⟩ := takeMail_same d die m
  exact congrArg RingSt.queue h

theorem takeMail_rd (d : Dev) (die : Die) (m o el i : Nat) : (d.takeMail die m).rd o el i = d.rd o el i := by
  obtain ⟨_, _, _, h⟩ := takeMail_same d die m
  exact Dev.rd_congr h o el i

theorem takeMail_rn (d : Dev) (die : Die) (m o el i : Nat) : (d.takeMail die m).rn o el i = d.rn o el i :=
  Dev.rn_eq_of_rd (takeMail_rd d die m o el i)

theorem takeMail_mode (d : Dev) (die : Die) (m : Nat) : (d.takeMail die m).mode = d.mode := takeMail_rn d die m 0x30 1 0

/-- A change of the load's own data. -/
theorem Keeps.setLd {xs ys : List (Nat × Nat)} (d : Dev) (x : Load) : Keeps xs ys d { d with ld := x } :=
  .of_same rfl ⟨rfl, rfl, rfl, rfl, rfl, rfl, rfl⟩ rfl rfl rfl

/-- A load status is a message in mailbox 2 (R546). -/
theorem Keeps.loadStatusMsg {xs ys : List (Nat × Nat)} (d : Dev) (result code : Nat) :
    Keeps xs ys d (d.loadStatusMsg result code) := .sendMsg d .field 2 _

theorem lastMailbox_loadStatusMsg (d : Dev) (result code : Nat) :
    (d.loadStatusMsg result code).bar.field.queue.getLast?.map TxMsg.mbx = some 2 := lastMailbox_sendMsg d 2 _

/-- The elements of 8109h that the host die's transient incidents are added to (R547). -/
def hostTransientElements : List (Nat × Nat) := [(0x8109, 1), (0x8109, 3), (0x8109, 5)]

theorem Keeps.addHostTransient (d : Dev) (msg : Bytes) : Keeps hostTransientElements [] d (d.addHostTransient msg) := by
  have counts : Keeps hostTransientElements [] d (((d.add 0x8109 1 0 (leAt msg 52 2)).add 0x8109 3 0 (leAt msg 52 2)).wr
      0x8109 5 0 d.devTime) :=
    ((Keeps.wr (o := 0x8109) (el := 1) (i := 0) _ (by decide) (by decide) (by decide)).trans
      (.wr (o := 0x8109) (el := 3) (i := 0) _ (by decide) (by decide) (by decide))).trans
      (.wr (o := 0x8109) (el := 5) (i := 0) _ (by decide) (by decide) (by decide))
  exact .ite _ (.refl d) counts

theorem addHostTransient_ld (d : Dev) (msg : Bytes) : (d.addHostTransient msg).ld = d.ld := by
  unfold Dev.addHostTransient
  dsimp only
  split <;> rfl

theorem addHostTransient_md (d : Dev) (msg : Bytes) : (d.addHostTransient msg).md = d.md := by
  unfold Dev.addHostTransient
  dsimp only
  split <;> rfl

/-- The lasting incident of a block (R71, R547). -/
theorem Keeps.lastingBlock {ys : List (Nat × Nat)} (d : Dev) :
    Keeps [(0x8109, 2), (0x8109, 4), (0x8109, 6)] ys d (d.lasting 0x8109) :=
  ((Keeps.inc (o := 0x8109) (el := 2) (i := 0) (by decide) (by decide) (by decide)).trans
    (.inc (o := 0x8109) (el := 4) (i := 0) (by decide) (by decide) (by decide))).trans
    (.wr (o := 0x8109) (el := 6) (i := 0) _ (by decide) (by decide) (by decide))

/-! ### The load reset -/

/-- A load reset that reports code `c`: mode and phase 0, its three events, the load status, and the host die as it was. -/
def ReportsFailedLoad (c : Nat) (d e : Dev) : Prop :=
  e.rd 0x30 1 0 = 0 ∧ e.rd 0x30 2 0 = 0 ∧ Raised d e 8 [] ∧ Raised d e 1 (leBytes c 1) ∧
    Raised d e 0 (leBytes d.mode 1 ++ [0, 8]) ∧ e.bar.field.queue.getLast?.map TxMsg.mbx = some 2 ∧ SameHostRegs [] d e

/-- Mode, phase and ModeRequest after a load reset. -/
def Dev.dormant (d : Dev) : Dev := ((d.wr 0x30 1 0 0).wr 0x30 2 0 0).wr 0x30 3 0 0xFF

theorem dormant_reads (d : Dev) : d.dormant.rd 0x30 1 0 = 0 ∧ d.dormant.rd 0x30 2 0 = 0 := by
  unfold Dev.dormant
  constructor
  · rw [Dev.rd_wr_other _ _ _ _ _ _ _ _ (by decide), Dev.rd_wr_other _ _ _ _ _ _ _ _ (by decide), Dev.rd_wr_same]
  · rw [Dev.rd_wr_other _ _ _ _ _ _ _ _ (by decide), Dev.rd_wr_same]

/-- The events of a load that failed with code `c` in mode `old` (R39). -/
def Dev.failEvents (d : Dev) (c old : Nat) : Dev :=
  ((d.raise 8 []).raise 1 (leBytes c 1)).raise 0 (leBytes old 1 ++ [0, 8])

theorem Keeps.failEvents {xs ys : List (Nat × Nat)} (d : Dev) (c old : Nat) : Keeps xs ys d (d.failEvents c old) :=
  ((Keeps.raise d 8 []).trans (.raise _ 1 _)).trans (.raise _ 0 _)

theorem failEvents_raised (d : Dev) (c old : Nat) (hr : d.md.fieldReset = false) :
    Raised d (d.failEvents c old) 8 [] ∧ Raised d (d.failEvents c old) 1 (leBytes c 1) ∧
      Raised d (d.failEvents c old) 0 (leBytes old 1 ++ [0, 8]) := by
  have k1 : Keeps [] [] d (d.raise 8 []) := .raise d 8 []
  have k2 : Keeps [] [] (d.raise 8 []) ((d.raise 8 []).raise 1 (leBytes c 1)) := .raise _ 1 _
  have k3 : Keeps [] [] ((d.raise 8 []).raise 1 (leBytes c 1)) (d.failEvents c old) := .raise _ 0 _
  exact ⟨(Keeps.refl (xs := []) (ys := []) d).raised hr (k2.trans k3).queue, k1.raised hr k3.queue,
    (k1.trans k2).raised hr ⟨[], (List.append_nil _).symm⟩⟩

/-- What a load reset clears, `a`, keeps the host die, the history and the reset of the field die. -/
theorem loadReset_eq (d : Dev) (c : Nat) :
    ∃ a : Dev,
      d.loadReset (some c) true = (a.dormant.failEvents c d.mode).sendMsg .field 2 ([0x81, 3, 0] ++ leBytes c 1) ∧
      a.ob.hod = d.ob.hod ∧ a.ring = d.ring ∧ a.md.fieldReset = d.md.fieldReset := by
  unfold Dev.loadReset
  exact ⟨_, rfl, rfl, rfl, rfl⟩

/-- An event raised since `a` is one raised since `d` before it. -/
theorem Raised.since {n : Nat} {ps : Bytes} {d a e : Dev} (r : Raised a e n ps)
    (h : ∃ l, a.ring.queue = d.ring.queue ++ l) : Raised d e n ps := by
  obtain ⟨x, hx, hn⟩ := r
  obtain ⟨l, hl⟩ := h
  rw [hl, List.length_append, ← List.drop_drop] at hx
  exact ⟨x, List.mem_of_mem_drop hx, hn⟩

theorem loadReset_reports (d : Dev) (c : Nat) (hr : d.md.fieldReset = false) :
    ReportsFailedLoad c d (d.loadReset (some c) true) := by
  obtain ⟨a, heq, hod, hring, hres⟩ := loadReset_eq d c
  have noted : ∃ l, a.dormant.ring.queue = d.ring.queue ++ l :=
    ⟨[], (congrArg RingSt.queue hring).trans (List.append_nil _).symm⟩
  have k : Keeps [] [] a.dormant (a.dormant.failEvents c d.mode) := .failEvents _ c _
  obtain ⟨h1, h2⟩ := dormant_reads a
  obtain ⟨ev8, ev1, ev0⟩ := failEvents_raised a.dormant c d.mode (hres.trans hr)
  rw [heq]
  exact ⟨(k.regs 0x30 1 0 (by decide) (by decide) (by decide) rfl).trans h1,
    (k.regs 0x30 2 0 (by decide) (by decide) (by decide) rfl).trans h2,
    ev8.since noted, ev1.since noted, ev0.since noted, lastMailbox_sendMsg _ 2 _,
    (SameHostRegs.of_hod hod).trans k.hostRegs⟩

/-- The failure is reported over what happened to the device before the load reset. -/
theorem ReportsFailedLoad.after {c : Nat} {d a e : Dev} {xs : List (Nat × Nat)} (h : ReportsFailedLoad c a e)
    (k : Keeps xs [] d a) (hm : a.mode = d.mode) : ReportsFailedLoad c d e := by
  obtain ⟨h1, h2, h3, h4, h5, h6, h7⟩ := h
  exact ⟨h1, h2, h3.since k.queue, h4.since k.queue, hm ▸ h5.since k.queue, h6, k.hostRegs.trans h7⟩

/-! ### Load control -/

/-- What Begin sets in the load's own data (R547). -/
def Load.begun (l : Load) (msg : Bytes) (now : Nat) : Load :=
  { l with
    fBlocks := leAt msg 4 4, fIdentity := leAt msg 8 8, fSecurity := leAt msg 16 4, fDigest := slice msg 20 32
    fFailed := [], fDone := [], fIncidents := 0, verifyAgain := false, lastCell := now, endSeen := false }

/-- The field die in phase 1 of Load. -/
def Dev.begun (d : Dev) (msg : Bytes) : Dev :=
  { (d.wr 0x30 1 0 1).wr 0x30 2 0 1 with ld := d.ld.begun msg d.now }

theorem controlBegin_dormant (d : Dev) (msg : Bytes) (hr : d.md.fieldReset = false) (hm : d.mode = 0) :
    controlBegin msg d = (((d.takeMail .field 2).begun msg).raise 0 [0, 1, 0]).loadStatusMsg 0 0 := by
  unfold controlBegin
  rw [if_neg (by simp [hr])]
  exact if_neg (by simp [takeMail_mode, hm])

theorem controlBegin_refused (d : Dev) (msg : Bytes) (hr : d.md.fieldReset = false) (hm : d.mode ≠ 0) :
    controlBegin msg d = (d.takeMail .field 2).loadStatusMsg 2 0x1E := by
  unfold controlBegin
  rw [if_neg (by simp [hr])]
  exact if_pos (by simp [takeMail_mode, hm])

/-- The field die in phase 2 of Load, with the host die's incidents added. -/
def Dev.verifying (d : Dev) (msg : Bytes) : Dev :=
  { d.addHostTransient msg with ld.endSeen := true, ld.verifyAgain := false }.wr 0x30 2 0 2

theorem controlEnd_transfer (d : Dev) (msg : Bytes) (hr : d.md.fieldReset = false) (hm : d.mode = 1)
    (hp : d.rn 0x30 2 0 = 1) :
    controlEnd msg d = ((d.takeMail .field 2).verifying msg).loadStatusMsg 1 0 := by
  unfold controlEnd
  rw [if_neg (by simp [hr])]
  exact if_pos (by simp [takeMail_mode, takeMail_rn, hm, hp])

/-- The incidents that an Abort reports, before the load reset. -/
def Dev.abortNoted (d : Dev) (msg : Bytes) : Dev :=
  if byteAt msg 1 == 0x14 then (d.addHostTransient msg).lasting 0x8109 else d.addHostTransient msg

/-- The elements of the record of blocks (8109h). -/
def blockRecordElements : List (Nat × Nat) :=
  [(0x8109, 1), (0x8109, 2), (0x8109, 3), (0x8109, 4), (0x8109, 5), (0x8109, 6)]

theorem Keeps.abortNoted (d : Dev) (msg : Bytes) : Keeps blockRecordElements [] d (d.abortNoted msg) := by
  have added : Keeps blockRecordElements [] d (d.addHostTransient msg) :=
    (Keeps.addHostTransient d msg).weaken (by decide) (by decide)
  exact .ite _ (added.trans ((Keeps.lastingBlock (ys := []) _).weaken (by decide) (by decide))) added

theorem controlAbort_load (d : Dev) (msg : Bytes) (hr : d.md.fieldReset = false) (hm : d.mode = 1) :
    controlAbort msg d = ((d.takeMail .field 2).abortNoted msg).loadReset (some (byteAt msg 1)) true := by
  unfold controlAbort
  rw [if_neg (by simp [hr])]
  exact if_pos (by simp [takeMail_mode, hm])

/-- The field die with the grace timer ended by a Rejoin, and the host die's incidents added (R58). -/
def Dev.rejoined (d : Dev) (msg : Bytes) : Dev := { d.addHostTransient msg with md.grace := none, md.hostAccepted := true }

theorem controlRejoin_accepted (d : Dev) (msg : Bytes) (hr : d.md.fieldReset = false) (hf : d.md.fieldFw = true)
    (hi : leAt msg 8 8 = d.ld.fIdentity) :
    controlRejoin msg d = (((d.takeMail .field 2).rejoined msg).raise 6 []).loadStatusMsg 0 0 := by
  unfold controlRejoin
  rw [if_neg (by simp [hr])]
  exact if_pos (by simp [takeMail_md, takeMail_ld, hf, hi])

theorem controlRejoin_refused (d : Dev) (msg : Bytes) (hr : d.md.fieldReset = false)
    (hi : leAt msg 8 8 ≠ d.ld.fIdentity) :
    controlRejoin msg d = ((d.takeMail .field 2).raise 7 []).loadStatusMsg 2 0x1F := by
  unfold controlRejoin
  rw [if_neg (by simp [hr])]
  exact if_neg (by simp [takeMail_ld, hi])

theorem transferTimeout_due (d : Dev) (hm : d.mode = 1) (hp : d.rn 0x30 2 0 = 1) (ht : d.ld.lastCell + 100 * ms ≤ d.now) :
    transferTimeout d = d.loadReset (some 0x19) true := if_pos (by simp [hm, hp, ht])

/-! ### Verification and start -/

theorem verifyDone_firstMismatch (d : Dev) (hm : d.mode = 1) (hp : d.rn 0x30 2 0 = 2) (hv : d.ld.verifyAgain = false) :
    verifyDone true d = { d with ld.verifyAgain := true } := by
  unfold verifyDone
  rw [if_neg (by simp [hm, hp])]
  simp [hv]

theorem verifyDone_match (d : Dev) (hm : d.mode = 1) (hp : d.rn 0x30 2 0 = 2) (hv : d.ld.verifyAgain = false)
    (hroll : d.ld.rollback ≤ d.ld.fSecurity)
    (hdig : sha256 ((List.range d.ld.fBlocks).map fun k => Tab.get d.ld.fw k (zeros 1024)).flatten = d.ld.fDigest) :
    verifyDone false d = d.startPhase := by
  unfold verifyDone
  rw [if_neg (by simp [hm, hp])]
  simp [hdig, hv, Nat.not_lt.mpr hroll]

/-- What starting the firmware sets going beside its own state: mode and phase, the modes, the store, the latch generator
and the host die's elements are as they were. -/
def StartKeeps (d e : Dev) : Prop :=
  (∀ el, el < 256 → e.rd 0x30 el 0 = d.rd 0x30 el 0) ∧ e.md = d.md ∧ e.st = d.st ∧ e.tm = d.tm ∧ e.ob.hod = d.ob.hod

theorem StartKeeps.refl (d : Dev) : StartKeeps d d := ⟨fun _ _ => rfl, rfl, rfl, rfl, rfl⟩

theorem StartKeeps.trans {d e f : Dev} (h : StartKeeps d e) (g : StartKeeps e f) : StartKeeps d f := by
  obtain ⟨hboot, hmd, hst, htm, hhod⟩ := h
  obtain ⟨gboot, gmd, gst, gtm, ghod⟩ := g
  exact ⟨fun el hel => (gboot el hel).trans (hboot el hel), gmd.trans hmd, gst.trans hst, gtm.trans htm, ghod.trans hhod⟩

theorem StartKeeps.of_same {d e : Dev} (ho : e.ob = d.ob) (hm : e.md = d.md) (hs : e.st = d.st) (ht : e.tm = d.tm) :
    StartKeeps d e :=
  ⟨fun el _ => Dev.rd_congr ho 0x30 el 0, hm, hs, ht, by rw [ho]⟩

theorem StartKeeps.wr (d : Dev) {o el i : Nat} (v : Int) (ho : o ≠ 0x30) (hel : el < 256) (hi : i < 65536) :
    StartKeeps d (d.wr o el i v) := by
  refine ⟨fun k hk => Dev.rd_wr_other d o el i 0x30 k 0 v fun h => ho ?_, rfl, rfl, rfl, rfl⟩
  obtain ⟨h, _⟩ := (okey_inj hk (by decide) hel hi).mp h
  exact h.symm

theorem EventFrame.startKeeps {d e : Dev} (h : EventFrame d e) : StartKeeps d e :=
  ⟨fun el hel => (h.keeps (xs := []) (ys := [])).regs 0x30 el 0 hel (by decide) (by simp) rfl, h.md, h.st, h.tm,
    by rw [h.ob]⟩

theorem StartKeeps.foldl_mem {α : Type} (g : Dev → α → Dev) (l : List α) (h : ∀ d, ∀ x ∈ l, StartKeeps d (g d x))
    (d : Dev) : StartKeeps d (l.foldl g d) := by
  induction l generalizing d with
  | nil => exact .refl d
  | cons x l ih =>
    exact (h d x List.mem_cons_self).trans (ih (fun d y hy => h d y (List.mem_cons_of_mem x hy)) (g d x))

theorem StartKeeps.setGov (d : Dev) (x : GovSt) : StartKeeps d { d with gov := x } := .of_same rfl rfl rfl rfl

/-- A write of the governor's record (9010h). -/
theorem StartKeeps.govEl (d : Dev) (el : Nat) (v : Int) (h : el < 256) : StartKeeps d (d.wr 0x9010 el 0 v) :=
  .wr d v (by decide) h (by decide)

/-- A write of the port record of FCAN (1201h). -/
theorem StartKeeps.canEl (d : Dev) (el : Nat) (v : Int) (h : el < 256) : StartKeeps d (d.setCanEl .field el v) :=
  .wr d v (by decide) h (by decide)

/-- The start sequence of the governor (R269). -/
theorem StartKeeps.govStart (d : Dev) : StartKeeps d d.govStart := by
  unfold Dev.govStart
  split
  · exact (StartKeeps.setGov d {}).trans <| (StartKeeps.govEl _ 12 0 (by decide)).trans <|
      (StartKeeps.govEl _ 13 0 (by decide)).trans (.govEl _ 14 0 (by decide))
  · split
    · exact .setGov d _
    · exact (StartKeeps.setGov d _).trans <| (StartKeeps.govEl _ 14 1 (by decide)).trans (.of_same rfl rfl rfl rfl)

/-- FCAN takes its settings (R479). -/
theorem StartKeeps.canApply (d : Dev) : StartKeeps d (d.canApply .field) := by
  have set : ∀ x, StartKeeps d (d.setCan .field x) := fun _ => .of_same rfl rfl rfl rfl
  unfold Dev.canApply Dev.canNote
  exact (set _).trans <| (StartKeeps.canEl _ 5 _ (by decide)).trans <|
    (StartKeeps.canEl _ 6 _ (by decide)).trans (.canEl _ 7 _ (by decide))

/-- The state of phase start, before cores, segments, governor and FCAN are set going. -/
def Dev.started (d : Dev) : Dev :=
  { d.wr 0x30 2 0 3 with
    md.fieldFw := true, md.fieldBeat := false, md.hostAccepted := true, md.recovered := false
    ld.phaseAt := d.now
    st.recovering := true, st.startAt := d.now
    tm.running := true, tm.started := false }

theorem started_boot (d : Dev) : d.started.rd 0x30 2 0 = 3 ∧ d.started.rd 0x30 1 0 = d.rd 0x30 1 0 :=
  ⟨Dev.rd_wr_same d 0x30 2 0 3, Dev.rd_wr_other d 0x30 2 0 0x30 1 0 3 (by decide)⟩

/-- The cores run. -/
def Dev.coresStarted (d : Dev) : Dev := d.each (List.range 8) fun d c => d.setCore c 2

/-- Every enabled segment is to start. -/
def Dev.segmentsStarted (d : Dev) : Dev :=
  d.each ((List.range 4).filter fun s => d.rb (0x1100 + s) 1 0) fun d s => d.setSg s { d.sg s with startDue := true }

/-- A supply reset is reported (R521). -/
def Dev.railsReported (d : Dev) : Dev :=
  if d.clk.railsDue then { d with clk.railsDue := false }.raise 0x2A (leBytes d.clk.rails 2) else d

theorem startPhase_eq (d : Dev) :
    d.startPhase =
      ((((d.started.coresStarted.segmentsStarted.wr 0x5000 1 0 0).govStart).canApply .field).railsReported).sendMsg
        .field 2 [0x81, 1, 3, 0] := by
  unfold Dev.startPhase
  rfl

theorem StartKeeps.railsReported (d : Dev) : StartKeeps d d.railsReported := by
  unfold Dev.railsReported
  split
  · have noted : StartKeeps d { d with clk.railsDue := false } := .of_same rfl rfl rfl rfl
    exact noted.trans (raise_frame _ 0x2A (leBytes d.clk.rails 2)).startKeeps
  · exact .refl d

theorem StartKeeps.coresStarted (d : Dev) : StartKeeps d d.coresStarted :=
  .foldl_mem (fun d c => d.setCore c 2) _ (fun d c hc =>
    (EventFrame.setCore d c 2 (by have := List.mem_range.mp hc; omega)).startKeeps) _

theorem StartKeeps.segmentsStarted (d : Dev) : StartKeeps d d.segmentsStarted :=
  .foldl_mem (fun d (k : Nat) => d.setSg k { d.sg k with startDue := true }) _ (fun _ _ _ => .of_same rfl rfl rfl rfl) _

theorem StartKeeps.sendMsg (d : Dev) (m : Nat) (bs : Bytes) : StartKeeps d (d.sendMsg .field m bs) :=
  .of_same rfl rfl rfl rfl

theorem startPhase_keeps (d : Dev) : StartKeeps d.started d.startPhase := by
  have recovery : ∀ a : Dev, StartKeeps a (a.wr 0x5000 1 0 0) := fun a => .wr a 0 (by decide) (by decide) (by decide)
  rw [startPhase_eq]
  exact (StartKeeps.coresStarted _).trans <| (StartKeeps.segmentsStarted _).trans <| (recovery _).trans <|
    (StartKeeps.govStart _).trans <| (StartKeeps.canApply _).trans <| (StartKeeps.railsReported _).trans <| .sendMsg _ _ _

/-! ### The load status at the host die -/

theorem loadStatusAt_begun (d : Dev) (msg : Bytes) (x : Session) (hr : d.md.hostReset = false) (h0 : byteAt msg 1 = 0)
    (hx : d.ld.session = some x) (hj : x.rejoin = false) :
    loadStatusAt msg d =
      ((d.takeMail .host 2).hwr 0x30 2 0 (byteAt msg 2)).setSession { x with beginOk := true } := by
  have hs : ((d.takeMail .host 2).hwr 0x30 2 0 (byteAt msg 2)).ld.session = some x :=
    (congrArg Load.session (takeMail_ld d .host 2)).trans hx
  unfold loadStatusAt
  rw [if_neg (by simp [hr])]
  simp only [h0, hs, hj]
  rfl

theorem loadStatusAt_started (d : Dev) (msg : Bytes) (hr : d.md.hostReset = false) (h1 : byteAt msg 1 = 1)
    (h3 : byteAt msg 2 = 3) (hrun : d.ld.running = true) :
    loadStatusAt msg d = ((d.takeMail .host 2).hwr 0x30 2 0 3).startHost := by
  have hs : ((d.takeMail .host 2).hwr 0x30 2 0 3).ld.running = true :=
    (congrArg Load.running (takeMail_ld d .host 2)).trans hrun
  unfold loadStatusAt
  rw [if_neg (by simp [hr])]
  simp only [h1, h3]
  exact if_pos (by simpa using hs)

/-- HCAN takes its settings (R479): the controller and elements 5 to 7 of 1200h. -/
theorem Keeps.canApplyHost {xs : List (Nat × Nat)} (d : Dev) :
    Keeps xs [(0x1200, 5), (0x1200, 6), (0x1200, 7)] d (d.canApply .host) := by
  have set : ∀ x, Keeps xs [(0x1200, 5), (0x1200, 6), (0x1200, 7)] d (d.setCan .host x) := fun _ =>
    .of_same rfl ⟨rfl, rfl, rfl, rfl, rfl, rfl, rfl⟩ rfl rfl rfl
  unfold Dev.canApply Dev.canNote
  exact (((set _).trans (.hwr (o := 0x1200) (el := 5) (i := 0) _ (by decide) (by decide) (by decide))).trans
    (.hwr (o := 0x1200) (el := 6) (i := 0) _ (by decide) (by decide) (by decide))).trans
    (.hwr (o := 0x1200) (el := 7) (i := 0) _ (by decide) (by decide) (by decide))

/-- What 0020h says of the running image, beside what HCAN takes (R77, R479). -/
def hostStartElements : List (Nat × Nat) := [(0x20, 5), (0x20, 6), (0x20, 9), (0x1200, 5), (0x1200, 6), (0x1200, 7)]

/-- Host firmware runs, as the load's data have it, before 0020h and HCAN follow. -/
def Dev.hostRuns (d : Dev) : Dev :=
  { d with
    md.hostFw := true, md.hostBeat := false, ld.hostStartAt := some d.now, ld.hcanWake := false
    ld.runVersion := leAt d.ld.header 8 4, ld.runSecurity := leAt d.ld.header 12 4, ld.runIdentity := leAt d.ld.header 16 8 }

/-- 0020h names the running image. -/
def Dev.imageShown (d : Dev) (h : Bytes) : Dev :=
  ((d.hwr 0x20 5 0 (leAt h 8 4)).hwr 0x20 6 0 (leAt h 12 4)).hwr 0x20 9 0 (leAt h 16 8)

theorem startHost_eq (d : Dev) : d.startHost = (d.hostRuns.imageShown d.ld.header).canApply .host := rfl

theorem Keeps.startHost {xs : List (Nat × Nat)} (d : Dev) : Keeps xs hostStartElements d d.startHost := by
  have runs : Keeps xs hostStartElements d d.hostRuns := .of_same rfl ⟨rfl, rfl, rfl, rfl, rfl, rfl, rfl⟩ rfl rfl rfl
  have shown : Keeps xs hostStartElements d (d.hostRuns.imageShown d.ld.header) := ((runs.trans
    (.hwr (o := 0x20) (el := 5) (i := 0) _ (by decide) (by decide) (by decide))).trans
    (.hwr (o := 0x20) (el := 6) (i := 0) _ (by decide) (by decide) (by decide))).trans
    (.hwr (o := 0x20) (el := 9) (i := 0) _ (by decide) (by decide) (by decide))
  rw [startHost_eq]
  exact shown.trans ((Keeps.canApplyHost _).weaken (List.Subset.refl _) (by decide))

theorem startHost_version (d : Dev) : d.startHost.hrd 0x20 5 0 = ((leAt d.ld.header 8 4 : Nat) : Int) := by
  have applied : Keeps [] [(0x1200, 5), (0x1200, 6), (0x1200, 7)] (d.hostRuns.imageShown d.ld.header) d.startHost :=
    .canApplyHost _
  rw [applied.hostRegs 0x20 5 0 (by decide) (by decide) (by decide)]
  unfold Dev.imageShown
  rw [Dev.hrd_hwr, if_neg (by decide), Dev.hrd_hwr, if_neg (by decide), Dev.hrd_hwr_same]

/-! ### What they leave -/

/-- The command's time noted and its message taken. -/
theorem taken_keeps {xs ys : List (Nat × Nat)} (d : Dev) (t : Nat) (die : Die) (m : Nat) :
    Keeps xs ys d ((d.advance t).takeMail die m) := (Keeps.advance d t).trans (.takeMail _ die m)

theorem begun_keeps {d a : Dev} {msg : Bytes} (h : Keeps [(0x30, 1), (0x30, 2)] [] d a) :
    Keeps [(0x30, 1), (0x30, 2)] [] d (a.begun msg) :=
  ((h.trans (.wr (o := 0x30) (el := 1) (i := 0) 1 (by decide) (by decide) (by decide))).trans
    (.wr (o := 0x30) (el := 2) (i := 0) 1 (by decide) (by decide) (by decide))).trans (.setLd _ _)

theorem begun_reads (d : Dev) (msg : Bytes) : (d.begun msg).rd 0x30 1 0 = 1 ∧ (d.begun msg).rd 0x30 2 0 = 1 :=
  ⟨(Dev.rd_wr_other (d.wr 0x30 1 0 1) _ _ _ _ _ _ _ (by decide)).trans (Dev.rd_wr_same d 0x30 1 0 1),
    Dev.rd_wr_same (d.wr 0x30 1 0 1) 0x30 2 0 1⟩

theorem verifying_keeps {d a : Dev} {msg : Bytes} (h : Keeps ((0x30, 2) :: hostTransientElements) [] d a) :
    Keeps ((0x30, 2) :: hostTransientElements) [] d (a.verifying msg) :=
  ((h.trans ((Keeps.addHostTransient a msg).weaken (List.subset_cons_self _ _) (List.Subset.refl _))).trans
    (.setLd _ _)).trans (.wr (o := 0x30) (el := 2) (i := 0) 2 (by decide) (by decide) (by decide))

theorem rejoined_keeps {d a : Dev} {msg : Bytes} (h : Keeps hostTransientElements [] d a) :
    Keeps hostTransientElements [] d (a.rejoined msg) :=
  (h.trans (.addHostTransient a msg)).trans (.setMd _ _ rfl rfl)

/-- Element `el` of 0030h reads through an event as before it. -/
theorem rd_raise_boot (d : Dev) (n : Nat) (ps : Bytes) (el : Nat) (h : el < 256) :
    (d.raise n ps).rd 0x30 el 0 = d.rd 0x30 el 0 := Dev.rd_raise d n ps 0x30 el 0 h (by decide) (by decide)

theorem abort_reports (d : Dev) (t : Nat) (msg : Bytes) (hr : d.md.fieldReset = false) (hm : d.mode = 1) :
    ReportsFailedLoad (byteAt msg 1) d (controlAbort msg (d.advance t)) := by
  have noted : Keeps blockRecordElements [] d (((d.advance t).takeMail .field 2).abortNoted msg) :=
    (taken_keeps d t .field 2).trans (.abortNoted _ msg)
  rw [controlAbort_load (d.advance t) msg hr hm]
  exact (loadReset_reports _ (byteAt msg 1) (noted.fieldReset.trans hr)).after noted
    (Dev.rn_eq_of_rd (noted.regs 0x30 1 0 (by decide) (by decide) (by decide) rfl))

theorem transferTimeout_reports (d : Dev) (t : Nat) (hr : d.md.fieldReset = false) (hm : d.mode = 1)
    (hp : d.rn 0x30 2 0 = 1) (ht : d.ld.lastCell + 100 * ms ≤ t) :
    ReportsFailedLoad 0x19 d (transferTimeout (d.advance t)) := by
  rw [transferTimeout_due (d.advance t) hm hp (Nat.le_trans ht (Nat.le_max_right _ _))]
  exact (loadReset_reports (d.advance t) 0x19 hr).after (Keeps.advance (xs := []) d t) rfl

/-- Settles O14: one equation per message, over the message taken. -/
theorem loadControlMovesTheFieldDie : Obligations.LoadControlMovesTheFieldDie := by
  refine ⟨fun s t msg hr hm => runsKeep_onDev (f := controlBegin msg) rfl ?_,
    fun s t msg hr hm => runsKeep_onDev (f := controlBegin msg) rfl ?_,
    fun s t msg hr hm hp => runsKeep_onDev (f := controlEnd msg) rfl ?_,
    fun s t msg hr hm => runsKeep_onDev (f := controlAbort msg) rfl ?_,
    fun s t msg hr hf hi => runsKeep_onDev (f := controlRejoin msg) rfl ?_,
    fun s t msg hr hi => runsKeep_onDev (f := controlRejoin msg) rfl ?_,
    fun s t hm hp hv => runsKeep_onDev (f := verifyDone true) rfl ?_,
    fun s t hm hp hv hroll hdig => runsKeep_onDev (f := verifyDone false) rfl ?_,
    fun s t msg x hr h0 hx hj => runsKeep_onDev (f := loadStatusAt msg) rfl ?_,
    fun s t msg hr h1 h3 hrun => runsKeep_onDev (f := loadStatusAt msg) rfl ?_,
    fun s t hr hm hp ht => runsKeep_onDev (f := transferTimeout) rfl ?_⟩
  · have entered : Keeps [(0x30, 1), (0x30, 2)] [] s.dev (((s.dev.advance t).takeMail .field 2).begun msg) :=
      begun_keeps (taken_keeps s.dev t .field 2)
    obtain ⟨h1, h2⟩ := begun_reads ((s.dev.advance t).takeMail .field 2) msg
    have hld := Dev.raise_ld (((s.dev.advance t).takeMail .field 2).begun msg) 0 [0, 1, 0]
    have k := (entered.trans (.raise _ 0 [0, 1, 0])).trans (.loadStatusMsg _ 0 0)
    rw [controlBegin_dormant (s.dev.advance t) msg hr hm]
    exact ⟨(rd_raise_boot _ _ _ 1 (by decide)).trans h1, (rd_raise_boot _ _ _ 2 (by decide)).trans h2,
      congrArg Load.fBlocks hld, congrArg Load.fIdentity hld, congrArg Load.fSecurity hld, congrArg Load.fDigest hld,
      entered.raised hr ⟨[], (List.append_nil _).symm⟩, k.regs, k.hostRegs, k.motion⟩
  · have k : Keeps [] [] s.dev (((s.dev.advance t).takeMail .field 2).loadStatusMsg 2 0x1E) :=
      (taken_keeps s.dev t .field 2).trans (.loadStatusMsg _ 2 0x1E)
    rw [controlBegin_refused (s.dev.advance t) msg hr hm]
    exact ⟨takeMail_ld (s.dev.advance t) .field 2, k.regs, k.hostRegs, k.motion, takeMail_quiet (s.dev.advance t) .field 2,
      lastMailbox_loadStatusMsg _ 2 0x1E⟩
  · have k : Keeps ((0x30, 2) :: hostTransientElements) [] s.dev
        ((((s.dev.advance t).takeMail .field 2).verifying msg).loadStatusMsg 1 0) :=
      (verifying_keeps (taken_keeps s.dev t .field 2)).trans (.loadStatusMsg _ 1 0)
    have hld : (((s.dev.advance t).takeMail .field 2).addHostTransient msg).ld = s.dev.ld :=
      (addHostTransient_ld _ msg).trans (takeMail_ld (s.dev.advance t) .field 2)
    rw [controlEnd_transfer (s.dev.advance t) msg hr hm hp]
    exact ⟨Dev.rd_wr_same _ 0x30 2 0 2, congrArg (fun l : Load => { l with endSeen := true, verifyAgain := false }) hld,
      k.regs, k.hostRegs, k.motion⟩
  · obtain ⟨h1, h2, ev8, ev1, ev0, _, hhost⟩ := abort_reports s.dev t msg hr hm
    rw [hm] at ev0
    exact ⟨h1, h2, ev8, ev1, ev0, hhost⟩
  · have before : Keeps hostTransientElements [] s.dev (((s.dev.advance t).takeMail .field 2).rejoined msg) :=
      rejoined_keeps (taken_keeps s.dev t .field 2)
    have k := (before.trans (.raise _ 6 [])).trans (.loadStatusMsg _ 0 0)
    have hmd : (((s.dev.advance t).takeMail .field 2).addHostTransient msg).md = s.dev.md :=
      (addHostTransient_md _ msg).trans (takeMail_md (s.dev.advance t) .field 2)
    rw [controlRejoin_accepted (s.dev.advance t) msg hr hf hi]
    exact ⟨(Dev.raise_md _ 6 []).trans (congrArg (fun m : Modes => { m with grace := none, hostAccepted := true }) hmd),
      before.raised hr ⟨[], (List.append_nil _).symm⟩, k.regs, k.hostRegs, k.motion⟩
  · have taken : Keeps [] [] s.dev ((s.dev.advance t).takeMail .field 2) := taken_keeps s.dev t .field 2
    have k := (taken.trans (.raise _ 7 [])).trans (.loadStatusMsg _ 2 0x1F)
    rw [controlRejoin_refused (s.dev.advance t) msg hr hi]
    exact ⟨(Dev.raise_md _ 7 []).trans (takeMail_md (s.dev.advance t) .field 2),
      taken.raised hr ⟨[], (List.append_nil _).symm⟩, k.regs, k.hostRegs, k.motion⟩
  · rw [verifyDone_firstMismatch (s.dev.advance t) hm hp hv]
    have k : Keeps [] [] s.dev { s.dev.advance t with ld.verifyAgain := true } := (Keeps.advance s.dev t).trans (.setLd _ _)
    exact ⟨rfl, k.regs, k.hostRegs, k.motion⟩
  · obtain ⟨boot, hmd, hst, htm, hhod⟩ := startPhase_keeps (s.dev.advance t)
    obtain ⟨h2, h1⟩ := started_boot (s.dev.advance t)
    rw [verifyDone_match (s.dev.advance t) hm hp hv hroll hdig]
    exact ⟨(boot 2 (by decide)).trans h2, congrArg Modes.fieldFw hmd, congrArg StoreSt.recovering hst,
      congrArg TimeSt.running htm, (boot 1 (by decide)).trans h1, .of_hod hhod⟩
  · have k : Keeps [] [(0x30, 2)] s.dev (((s.dev.advance t).takeMail .host 2).hwr 0x30 2 0 (byteAt msg 2)) :=
      (taken_keeps s.dev t .host 2).trans (.hwr (o := 0x30) (el := 2) (i := 0) _ (by decide) (by decide) (by decide))
    have hld := takeMail_ld (s.dev.advance t) .host 2
    rw [loadStatusAt_begun (s.dev.advance t) msg x hr h0 hx hj]
    exact ⟨congrArg (fun l : Load => { l with session := some { x with beginOk := true } }) hld,
      Dev.hrd_hwr_same _ 0x30 2 0 _, k.hostRegs, k.regs, k.motion⟩
  · have taken : Keeps [] [(0x30, 2)] s.dev (((s.dev.advance t).takeMail .host 2).hwr 0x30 2 0 3) :=
      (taken_keeps s.dev t .host 2).trans (.hwr (o := 0x30) (el := 2) (i := 0) 3 (by decide) (by decide) (by decide))
    have start : Keeps [] hostStartElements (((s.dev.advance t).takeMail .host 2).hwr 0x30 2 0 3) _ := .startHost _
    have hld := takeMail_ld (s.dev.advance t) .host 2
    rw [loadStatusAt_started (s.dev.advance t) msg hr h1 h3 hrun]
    exact ⟨rfl, congrArg (fun l : Load => leAt l.header 16 8) hld,
      (startHost_version _).trans (congrArg (fun l : Load => ((leAt l.header 8 4 : Nat) : Int)) hld),
      (start.hostRegs 0x30 2 0 (by decide) (by decide) (by decide)).trans (Dev.hrd_hwr_same _ 0x30 2 0 3),
      taken.regs.trans start.regs, taken.motion.trans start.motion⟩
  · obtain ⟨h1, h2, ev8, ev1, ev0, hlast, hhost⟩ := transferTimeout_reports s.dev t hr hm hp ht
    rw [hm] at ev0
    exact ⟨h1, h2, ev8, ev1, ev0, hlast, hhost⟩

end Sys2Proof.Machine
end

section
/-! SUPPORT. Download sessions at the host die: a Result, the end of a session, a failure (R66, R67, R73, R78). -/

namespace Sys2Proof.Machine

variable {xs ys : List (Nat × Nat)}

/-! ### Results -/

@[simp] theorem answer_out (d : Dev) (src : Source) (res num block : Nat) :
    (d.answer src res num block).out = d.out ++ [Output.result src (resultPacket res num block)] := rfl

/-- A Result leaves the block, and that is all. -/
theorem Keeps.answer (d : Dev) (src : Source) (res num block : Nat) : Keeps xs ys d (d.answer src res num block) :=
  .of_same rfl ⟨rfl, rfl, rfl, rfl, rfl, rfl, rfl⟩ rfl rfl rfl

theorem Keeps.setSession (d : Dev) (x : Session) : Keeps xs ys d (d.setSession x) := .setLd d _

/-! ### The end of a session -/

/-- LoadSource and the number of blocks, both 0 without a session (R67). -/
def sessionElements : List (Nat × Nat) := [(0x20, 2), (0x20, 4)]

/-- These and LastFailure (R78). -/
def failureElements : List (Nat × Nat) := [(0x20, 2), (0x20, 3), (0x20, 4)]

theorem Keeps.closeSession (d : Dev) : Keeps xs sessionElements d d.closeSession :=
  ((Keeps.setLd d _).trans (.hwr (o := 0x20) (el := 4) (i := 0) 0 (by decide) (by decide) (by decide))).trans
    (.hwr (o := 0x20) (el := 2) (i := 0) 0 (by decide) (by decide) (by decide))

theorem closeSession_hrd (d : Dev) :
    d.closeSession.hrd 0x20 4 0 = 0 ∧ d.closeSession.hrd 0x20 3 0 = d.hrd 0x20 3 0 := by
  unfold Dev.closeSession
  constructor
  · rw [Dev.hrd_hwr, if_neg (by decide), Dev.hrd_hwr_same]
  · rw [Dev.hrd_hwr, if_neg (by decide), Dev.hrd_hwr, if_neg (by decide)]
    rfl

/-! ### Failures -/

/-- Failure `c` noted and sent as the Result of `block` (R78). -/
def Dev.failNoted (d : Dev) (x : Session) (c block : Nat) : Dev := (d.answer x.src c x.num block).hwr 0x20 3 0 c

/-- Load control Abort goes to a field die that may have accepted Begin (R547). -/
def Dev.tellField (d : Dev) (x : Session) (c : Nat) : Dev :=
  if x.begun && !x.rejoin then d.sendMsg .host 2 (loadControl 3 c 0 0 0 [] x.hostTransient) else d

theorem Keeps.tellField (d : Dev) (x : Session) (c : Nat) : Keeps xs ys d (d.tellField x c) :=
  .ite _ (.sendMsg d .host 2 _) (.refl d)

@[simp] theorem tellField_out (d : Dev) (x : Session) (c : Nat) : (d.tellField x c).out = d.out := by
  unfold Dev.tellField
  split <;> rfl

theorem hostFail_eq {d : Dev} {x : Session} (h : d.ld.session = some x) (c block : Nat) :
    d.hostFail c block = ((d.failNoted x c block).tellField x c).closeSession := by
  unfold Dev.hostFail
  rw [h]
  rfl

/-- From `d` to `e` the session `x` ended with failure `c`, sent as the Result of `block`; of the host die's elements
`zs` may differ. -/
def SessionFails (zs : List (Nat × Nat)) (x : Session) (c block : Nat) (d e : Dev) : Prop :=
  e.out = d.out ++ [Output.result x.src (resultPacket c x.num block)] ∧ e.ld.session = none ∧ e.hrd 0x20 3 0 = c ∧
    e.hrd 0x20 4 0 = 0 ∧ SameHostRegs zs d e ∧ SameRegs [] d e ∧ SameMotion d e

theorem hostFail_fails {d : Dev} {x : Session} (h : d.ld.session = some x) (c block : Nat) :
    SessionFails failureElements x c block d (d.hostFail c block) := by
  have noted : Keeps [] failureElements d (d.failNoted x c block) :=
    (Keeps.answer d _ _ _ _).trans (.hwr (o := 0x20) (el := 3) (i := 0) c (by decide) (by decide) (by decide))
  have told : Keeps [] [] (d.failNoted x c block) ((d.failNoted x c block).tellField x c) := .tellField _ x c
  have k := (noted.trans (.tellField _ x c)).trans
    ((Keeps.closeSession _).weaken (List.Subset.refl _) (by decide))
  obtain ⟨source, failure⟩ := closeSession_hrd ((d.failNoted x c block).tellField x c)
  rw [hostFail_eq h]
  refine ⟨tellField_out (d.failNoted x c block) x c, rfl, failure.trans ?_, source, k.hostRegs, k.regs, k.motion⟩
  rw [told.hostRegs 0x20 3 0 (by decide) (by decide) (by decide)]
  exact Dev.hrd_hwr_same _ 0x20 3 0 c

/-- The failure over what happened to the device before it. -/
theorem SessionFails.after {zs ws : List (Nat × Nat)} {x : Session} {c block : Nat} {d a e : Dev}
    (h : SessionFails zs x c block a e) (k : Keeps [] ws d a) (ho : a.out = d.out) (hz : zs ⊆ ws) :
    SessionFails ws x c block d e := by
  obtain ⟨hout, hnone, hfailure, hsource, hhost, hregs, hmotion⟩ := h
  exact ⟨ho ▸ hout, hnone, hfailure, hsource,
    k.hostRegs.trans fun o el i hel hi hn => hhost o el i hel hi fun hm => hn (hz hm), k.regs.trans hregs,
    k.motion.trans hmotion⟩

/-- A failure of the open session at the time of its command. -/
theorem hostFail_advance {d : Dev} {x : Session} (h : d.ld.session = some x) (t c block : Nat) :
    SessionFails failureElements x c block d ((d.advance t).hostFail c block) :=
  (hostFail_fails (d := d.advance t) h c block).after (.advance d t) rfl (List.Subset.refl _)

end Sys2Proof.Machine
end

section
/-! PROOFS for O15. Started parts without a Heartbeat, and a Rejoin without a status (R75, R77, R78). -/

namespace Sys2Proof.Machine

theorem fieldFwTimeout_due (d : Dev) (hm : d.mode = 1) (hp : d.rn 0x30 2 0 = 3) (hb : d.md.fieldBeat = false)
    (ht : d.ld.phaseAt + 100 * ms ≤ d.now) : fieldFwTimeout d = d.loadReset (some 0x1C) true :=
  if_pos (by simp [hm, hp, hb, ht])

/-- A load reset stops the field firmware (R39). -/
theorem loadReset_fieldFw (d : Dev) (c : Nat) : (d.loadReset (some c) true).md.fieldFw = false := by
  unfold Dev.loadReset
  simp [Dev.sendMsg]

theorem fieldFwTimeout_reports (d : Dev) (t : Nat) (hr : d.md.fieldReset = false) (hm : d.mode = 1)
    (hp : d.rn 0x30 2 0 = 3) (hb : d.md.fieldBeat = false) (ht : d.ld.phaseAt + 100 * ms ≤ t) :
    ReportsFailedLoad 0x1C d (fieldFwTimeout (d.advance t)) ∧ (fieldFwTimeout (d.advance t)).md.fieldFw = false := by
  rw [fieldFwTimeout_due (d.advance t) hm hp hb (Nat.le_trans ht (Nat.le_max_right _ _))]
  exact ⟨(loadReset_reports (d.advance t) 0x1C hr).after (Keeps.advance (xs := []) d t) rfl, loadReset_fieldFw _ _⟩

/-- The host part is stopped and HCAN at its reset value, before 0020h:3 names the failure (R75). -/
def Dev.hostPartStopped (d : Dev) : Dev :=
  { d with md.hostFw := false, ld.hostStartAt := none, ld.running := false, hcan := ({} : Dev).hcan }

theorem hostPartTimeout_due (d : Dev) (x : Nat) (hx : d.ld.hostStartAt = some x) (hf : d.md.hostFw = true)
    (hb : d.md.hostBeat = false) (ht : x + 100 * ms ≤ d.now) :
    hostPartTimeout d = d.hostPartStopped.hwr 0x20 3 0 0x1D := by
  unfold hostPartTimeout
  rw [hx]
  exact if_pos (by simp [hf, hb, ht])

theorem rejoinTimeout_due (d : Dev) (x : Nat) (hx : d.ld.rejoinAt = some x) (ht : x + 100 * ms ≤ d.now) :
    rejoinTimeout d = d.hostFail 0x19 0 := by
  unfold rejoinTimeout
  rw [hx]
  exact if_pos ht

/-- The session that a failure closes waits for no status of a Rejoin. -/
theorem hostFail_rejoinAt {d : Dev} {x : Session} (h : d.ld.session = some x) (c block : Nat) :
    (d.hostFail c block).ld.rejoinAt = none := by
  rw [hostFail_eq h]
  rfl

/-- Settles O15: one equation per timer. -/
theorem loadTimersEndTheLoad : Obligations.LoadTimersEndTheLoad := by
  refine ⟨fun s t hr hm hp hb ht => runsKeep_onDev (f := fieldFwTimeout) rfl ?_,
    fun s t x hx hf hb ht => runsKeep_onDev (f := hostPartTimeout) rfl ?_,
    fun s t x y hx ht hy _ => runsKeep_onDev (f := rejoinTimeout) rfl ?_⟩
  · obtain ⟨⟨h1, h2, ev8, ev1, ev0, hlast, hhost⟩, hfw⟩ := fieldFwTimeout_reports s.dev t hr hm hp hb ht
    rw [hm] at ev0
    exact ⟨h1, h2, hfw, ev8, ev1, ev0, hlast, hhost⟩
  · rw [hostPartTimeout_due (s.dev.advance t) x hx hf hb (Nat.le_trans ht (Nat.le_max_right _ _))]
    have stopped : Keeps [] [(0x20, 3)] (s.dev.advance t) (s.dev.advance t).hostPartStopped :=
      .of_same rfl ⟨rfl, rfl, rfl, rfl, rfl, rfl, rfl⟩ rfl rfl rfl
    have k := ((Keeps.advance s.dev t).trans stopped).trans
      (.hwr (o := 0x20) (el := 3) (i := 0) 0x1D (by decide) (by decide) (by decide))
    exact ⟨rfl, rfl, Dev.hrd_hwr_same _ 0x20 3 0 0x1D, rfl, k.hostRegs, k.regs, k.motion⟩
  · rw [rejoinTimeout_due (s.dev.advance t) x hx (Nat.le_trans ht (Nat.le_max_right _ _))]
    obtain ⟨hout, hnone, hfailure, _, hhost, hregs, hmotion⟩ := hostFail_advance hy t 0x19 0
    exact ⟨hout, hnone, hostFail_rejoinAt (d := s.dev.advance t) hy 0x19 0, hfailure, hhost, hregs, hmotion⟩

end Sys2Proof.Machine
end

section
/-! PROOFS for O12. Block, End and Abort packets at the host die, and a session without packets (R63, R66 to R69, R73). -/

namespace Sys2Proof.Machine

/-! ### Block packets -/

/-- The session with a packet of its source at `now` (R67). -/
def Session.heard (x : Session) (now : Nat) : Session := { x with last := now }

/-- A Block packet at a host die that runs no firmware of its own: the session's own packet, a block without a session,
and the block 0 that opens one (R66, R67, R69). -/
theorem blockPacket_cases (d : Dev) (src : Source) (num n : Nat) (bs : Bytes) (hr : d.md.hostReset = false)
    (hf : d.md.hostFw = false) :
    (∀ x, d.ld.session = some x → x.src = src → num = x.num →
      blockPacket src num n bs d = d.sessionBlock (x.heard d.now) n bs) ∧
    (d.ld.session = none → n ≠ 0 → blockPacket src num n bs d = d.answer src 5 num n) ∧
    (d.ld.session = none → n = 0 → d.ld.running = false → blockPacket src num n bs d = d.openSession src num bs) := by
  unfold blockPacket
  refine ⟨fun x hx hsrc hnum => ?_, fun hx hn => ?_, fun hx hn hl => ?_⟩
  · subst hsrc
    simp [hr, hf, hx, hnum, Session.heard]
  · simp [hr, hf, hx, hn]
  · simp [hr, hf, hx, hn, hl]

/-- Block 0 with header `h` is noted, before the header is checked (R67). -/
def Dev.headerTaken (d : Dev) (src : Source) (h : Bytes) : Dev :=
  ((({ d with ld.header := h, ld.blocks := [], ld.accepted := [], ld.incidents := 0, ld.fwdNext := 0 }.hwr 0x20 4 0
    (srcCode src)).hwr 0x20 1 0 0).hwr 0x20 2 0 0)

/-- What a session in progress shows in 0020h (R67, R78). -/
def loadElements : List (Nat × Nat) := [(0x20, 1), (0x20, 2), (0x20, 3), (0x20, 4)]

theorem Keeps.headerTaken {xs : List (Nat × Nat)} (d : Dev) (src : Source) (h : Bytes) :
    Keeps xs loadElements d (d.headerTaken src h) :=
  (((Keeps.setLd d _).trans (.hwr (o := 0x20) (el := 4) (i := 0) _ (by decide) (by decide) (by decide))).trans
    (.hwr (o := 0x20) (el := 1) (i := 0) 0 (by decide) (by decide) (by decide))).trans
    (.hwr (o := 0x20) (el := 2) (i := 0) 0 (by decide) (by decide) (by decide))

/-- A header whose fields do not meet R61 is failure 10h (R63). -/
theorem openSession_badForm (d : Dev) (src : Source) (num : Nat) (h : Bytes) (hb : hdrFieldsOk h = false) :
    d.openSession src num h =
      ((d.headerTaken src h).setSession { src := src, num := num, last := d.now }).hostFail 0x10 0 := by
  have check : ∀ slot1, hdrCheck slot1 h = 0x10 := fun _ => if_pos (by simp [hb])
  unfold Dev.openSession
  simp only [check]
  rfl

theorem blockPacket_badHeader (d : Dev) (t : Nat) (src : Source) (num : Nat) (h : Bytes) (hr : d.md.hostReset = false)
    (hf : d.md.hostFw = false) (hx : d.ld.session = none) (hl : d.ld.running = false) (hb : hdrFieldsOk h = false) :
    SessionFails loadElements { src := src, num := num, last := (d.advance t).now } 0x10 0 d
      (blockPacket src num 0 h (d.advance t)) := by
  obtain ⟨_, _, opens⟩ := blockPacket_cases (d.advance t) src num 0 h hr hf
  rw [opens hx rfl hl, openSession_badForm _ src num h hb]
  exact (hostFail_fails rfl 0x10 0).after
    (((Keeps.advance d t).trans (.headerTaken _ src h)).trans (.setSession _ _)) rfl (by decide)

/-! ### A table block -/

/-- With blocks 0 to `n` accepted the first one missing is `n + 1`. -/
theorem firstMissing (n : Nat) (h : n < 9000) :
    (List.range 9300).find? (fun k => !((List.range n ++ [n]).any (· == k))) = some (n + 1) := by
  rw [← List.range_succ, List.find?_range_eq_some]
  refine ⟨?_, List.mem_range.mpr (by omega), fun j hj => ?_⟩
  · simp only [Bool.not_eq_true', List.any_eq_false, List.mem_range, beq_iff_eq]
    omega
  · simpa using hj

/-- Block `n` that follows the accepted ones: the next one missing is the one after it (R68). -/
theorem takeBlock_next (d : Dev) (x : Session) (n : Nat) (bs : Bytes) (ha : x.accepted = List.range n) (hn : n < 9000) :
    (d.takeBlock x n bs).2.next = n + 1 := by
  unfold Dev.takeBlock
  rw [ha]
  simp only [firstMissing n hn, Option.getD_some]

/-- 0020h:1 counts the blocks accepted. -/
theorem Keeps.takeBlock {xs : List (Nat × Nat)} (d : Dev) (x : Session) (n : Nat) (bs : Bytes) :
    Keeps xs [(0x20, 1)] d (d.takeBlock x n bs).1 :=
  (Keeps.setLd d _).trans (.hwr (o := 0x20) (el := 1) (i := 0) _ (by decide) (by decide) (by decide))

theorem takeBlock_hrd (d : Dev) (x : Session) (n : Nat) (bs : Bytes) :
    (d.takeBlock x n bs).1.hrd 0x20 1 0 = ((x.accepted.length + 1 : Nat) : Int) :=
  (Dev.hrd_hwr_same _ 0x20 1 0 _).trans (congrArg Nat.cast List.length_append)

/-- A table block in its turn, with more of the table to come: taken, and answered 00h (R68). -/
theorem sessionBlock_table (d : Dev) (x : Session) (n : Nat) (bs : Bytes) (hnext : x.next = n)
    (hN : n < hdrN d.ld.header) (hT : n < hdrT d.ld.header) (ha : x.accepted = List.range n) (hh : x.held = [])
    (hn : n < 9000) :
    d.sessionBlock x n bs =
      ((d.takeBlock x n bs).1.setSession (d.takeBlock x n bs).2).answer x.src 0 x.num n := by
  have fresh : x.accepted.any (· == n) = false := by
    simp only [ha, List.any_eq_false, List.mem_range, beq_iff_eq]
    omega
  have more : ¬ hdrT d.ld.header < (d.takeBlock x n bs).2.next := by
    rw [takeBlock_next d x n bs ha hn]
    omega
  have inWindow : ∀ w, (decide (n < x.next) || decide (x.next + w < n) || decide (hdrN d.ld.header ≤ n)) = false := by
    intro w
    simp
    omega
  unfold Dev.sessionBlock
  dsimp only
  rw [if_neg (by simp [fresh]), if_neg (by rw [inWindow]; exact Bool.false_ne_true), if_neg (by simp [hh]),
    if_pos (Nat.le_of_lt hT), if_neg more]

/-- What it leaves: its bytes kept, 0020h:1 the count with it, the Result 00h. -/
theorem sessionBlock_table_leaves (d : Dev) (x : Session) (n : Nat) (bs : Bytes) (hnext : x.next = n)
    (hN : n < hdrN d.ld.header) (hT : n < hdrT d.ld.header) (ha : x.accepted = List.range n) (hh : x.held = [])
    (hn : n < 9000) :
    (d.sessionBlock x n bs).out = d.out ++ [Output.result x.src (resultPacket 0 x.num n)] ∧
      Tab.find (d.sessionBlock x n bs).ld.blocks n = some bs ∧
      (d.sessionBlock x n bs).hrd 0x20 1 0 = ((n + 1 : Nat) : Int) ∧
      Keeps [] [(0x20, 1)] d (d.sessionBlock x n bs) := by
  have counted := takeBlock_hrd d x n bs
  rw [ha, List.length_range] at counted
  rw [sessionBlock_table d x n bs hnext hN hT ha hh hn]
  exact ⟨rfl, Tab.find_put_same _ n bs, counted,
    ((Keeps.takeBlock d x n bs).trans (.setSession _ _)).trans (.answer _ _ _ _ _)⟩

/-! ### End and Abort -/

/-- Load control End goes to the field die, and the End packet is answered 00h (R73). -/
def Dev.endAnswered (d : Dev) (x : Session) : Dev :=
  (d.sendMsg .host 2 (loadControl 2 0 0 0 0 [] x.hostTransient)).answer x.src 0 x.num 0

theorem Keeps.endAnswered {xs ys : List (Nat × Nat)} (d : Dev) (x : Session) : Keeps xs ys d (d.endAnswered x) :=
  (Keeps.sendMsg d .host 2 _).trans (.answer _ _ _ _ _)

theorem endAnswered_queue (d : Dev) (x : Session) :
    (d.endAnswered x).bar.host.queue.dropLast = d.bar.host.queue ∧
      (d.endAnswered x).bar.host.queue.getLast?.map TxMsg.mbx = some 2 := by
  simp [Dev.endAnswered, Dev.answer, Dev.emit, Dev.sendMsg, Dev.setBd, Dev.bd]

theorem tryEnd_ends {d : Dev} {x : Session} (hx : d.ld.session = some x) (hw : x.endWait = true) (hj : x.rejoin = false)
    (hb : x.beginOk = true) (ha : d.ld.accepted.length = hdrF d.ld.header) :
    d.tryEnd = { (d.endAnswered x).closeSession with ld.running := true, ld.endSent := true } := by
  unfold Dev.tryEnd
  rw [hx]
  exact if_pos (by simp [hw, hj, hb, ha])

/-- What it leaves: End before the field die, the Result 00h, and no session. -/
theorem tryEnd_leaves {d : Dev} {x : Session} (hx : d.ld.session = some x) (hw : x.endWait = true)
    (hj : x.rejoin = false) (hb : x.beginOk = true) (ha : d.ld.accepted.length = hdrF d.ld.header) :
    d.tryEnd.out = d.out ++ [Output.result x.src (resultPacket 0 x.num 0)] ∧ d.tryEnd.ld.session = none ∧
      d.tryEnd.ld.running = true ∧ d.tryEnd.hrd 0x20 4 0 = 0 ∧ d.tryEnd.bar.host.queue.dropLast = d.bar.host.queue ∧
      d.tryEnd.bar.host.queue.getLast?.map TxMsg.mbx = some 2 ∧ Keeps [] sessionElements d d.tryEnd := by
  obtain ⟨source, _⟩ := closeSession_hrd (d.endAnswered x)
  obtain ⟨before, mailbox⟩ := endAnswered_queue d x
  rw [tryEnd_ends hx hw hj hb ha]
  exact ⟨rfl, rfl, rfl, source, before, mailbox,
    ((Keeps.endAnswered d x).trans (.closeSession _)).trans (.setLd _ _)⟩

/-- End of a session whose blocks the host die has all accepted waits for the field die's (R73). -/
theorem endPacket_ends (d : Dev) (num : Nat) (x : Session) (hr : d.md.hostReset = false) (hf : d.md.hostFw = false)
    (hx : d.ld.session = some x) (hnum : num = x.num) (hN : hdrN d.ld.header ≤ x.accepted.length) (ht : x.tableOk = true)
    (hj : x.rejoin = false) :
    endPacket x.src num d = (d.setSession { x.heard d.now with endWait := true }).tryEnd := by
  unfold endPacket Session.heard
  simp [hr, hf, hx, hnum, ht, hj, Nat.not_lt.mpr hN]

theorem abortPacket_session (d : Dev) (num : Nat) (x : Session) (hr : d.md.hostReset = false) (hf : d.md.hostFw = false)
    (hx : d.ld.session = some x) (hnum : num = x.num) : abortPacket x.src num d = d.hostFail 0x1A 0 := by
  unfold abortPacket
  simp [hr, hf, hx, hnum, Dev.abortSession]

theorem sessionTimeout_due (d : Dev) (x : Session) (hx : d.ld.session = some x) (ht : x.last + sec ≤ d.now) :
    sessionTimeout d = d.hostFail 0x19 0 := by
  unfold sessionTimeout
  rw [hx]
  exact if_pos ht

/-- Settles O12: one equation per packet, over the failure or the end of the session. -/
theorem downloadPacketsAreAnswered : Obligations.DownloadPacketsAreAnswered := by
  refine ⟨fun s t src packet hr hf hx hl h0 hb =>
      runsKeep_onDev (f := blockPacket src (leAt packet 2 2) (leAt packet 4 4) (packetData packet)) rfl ?_,
    fun s t src packet x hr hf hx hsrc hnum hnext h0 hN hT ha hh hn =>
      runsKeep_onDev (f := blockPacket src (leAt packet 2 2) (leAt packet 4 4) (packetData packet)) rfl ?_,
    fun s t src packet hr hf hx h0 =>
      runsKeep_onDev (f := blockPacket src (leAt packet 2 2) (leAt packet 4 4) (packetData packet)) rfl ?_,
    fun s t src packet x hr hf hx hsrc hnum hN htab hj hb ha =>
      runsKeep_onDev (f := endPacket src (leAt packet 2 2)) rfl ?_,
    fun s t src packet x hr hf hx hsrc hnum => runsKeep_onDev (f := abortPacket src (leAt packet 2 2)) rfl ?_,
    fun s t x hx ht => runsKeep_onDev (f := sessionTimeout) rfl ?_⟩
  · rw [h0]
    exact blockPacket_badHeader s.dev t src _ _ hr hf hx hl hb
  · subst hsrc
    obtain ⟨hout, kept, counted, taken⟩ := sessionBlock_table_leaves (s.dev.advance t) (x.heard (s.dev.advance t).now) _
      (packetData packet) hnext hN hT ha hh hn
    have k := (Keeps.advance s.dev t).trans taken
    obtain ⟨own, _⟩ := blockPacket_cases (s.dev.advance t) x.src (leAt packet 2 2) (leAt packet 4 4) (packetData packet) hr hf
    rw [own x hx rfl hnum]
    exact ⟨hout, kept, counted, k.hostRegs, k.regs, k.motion⟩
  · obtain ⟨_, unopened, _⟩ :=
      blockPacket_cases (s.dev.advance t) src (leAt packet 2 2) (leAt packet 4 4) (packetData packet) hr hf
    exact unopened hx h0
  · subst hsrc
    obtain ⟨hout, hnone, hrun, source, before, mailbox, ended⟩ :=
      tryEnd_leaves (d := (s.dev.advance t).setSession { x.heard (s.dev.advance t).now with endWait := true })
        rfl rfl hj hb ha
    have k := ((Keeps.advance s.dev t).trans (.setSession _ _)).trans ended
    rw [endPacket_ends (s.dev.advance t) _ x hr hf hx hnum hN htab hj]
    exact ⟨hout, hnone, hrun, source, before, mailbox, k.hostRegs, k.regs, k.motion⟩
  · subst hsrc
    rw [abortPacket_session (s.dev.advance t) _ x hr hf hx hnum]
    exact hostFail_advance hx t 0x1A 0
  · rw [sessionTimeout_due (s.dev.advance t) x hx (Nat.le_trans ht (Nat.le_max_right _ _))]
    exact hostFail_advance hx t 0x19 0

end Sys2Proof.Machine
end

section
/-! PROOFS for O16. Key slot 1, the anti-rollback counter, and the boot exchange over HCAN (R65, R74, R76, R79, R80). -/

namespace Sys2Proof.Machine

/-! ### The host die's write of 0040h:2 -/

/-- The status stands in byte 7 of a response (R86). -/
theorem mType_respMsg (h : Bytes) (st : Nat) (v : Bytes) (fin : Bool) : mType (respMsg h st v fin) = st % 256 := by
  have five : (slice (fit h 16) 2 5).length = 5 := by simp [slice]
  obtain ⟨a, b, c, d, e, hs⟩ : ∃ a b c d e, slice (fit h 16) 2 5 = [a, b, c, d, e] := by
    match slice (fit h 16) 2 5, five with
    | [a, b, c, d, e], _ => exact ⟨a, b, c, d, e, rfl⟩
  unfold mType respMsg
  rw [hs]
  rfl

/-- The conditions of the key write: nothing staged, Dormant, no session, a blank slot, 32 bytes not all zero (R65). -/
def Dev.TakesKey (d : Dev) (v : Bytes) : Prop :=
  d.ob.staging = [] ∧ d.hrn 0x30 1 0 = 0 ∧ d.ld.session = none ∧ d.ld.keySlot1 = [] ∧ v.length = 32 ∧ allZero v = false

theorem keyWrite_taken (d : Dev) (v : Bytes) (h : d.TakesKey v) : d.keyWrite v = (0, { d with ld.keySlot1 := v }) := by
  obtain ⟨_, hm, hx, hk, hv, hz⟩ := h
  have blank : allZero (d.hostEl 0x40 2) = true := by simp [Dev.hostEl, hk, zeros, allZero]
  unfold Dev.keyWrite
  simp [hv, hz, hm, hx, blank]

theorem staged_nil {d : Dev} (hs : d.ob.staging = []) (o e i : Nat) : d.staged o e i = none :=
  List.find?_eq_none.mpr (by simp [hs])

/-- A whole value in one segment, with nothing staged, is handed on (R90). -/
theorem stage_whole (d : Dev) (src : Source) (o e i : Nat) (msg : Bytes) (hs : d.ob.staging = [])
    (he : mEnd msg = true) : d.stage_ src o e i msg = (d, some (mVal msg)) := by
  have whole : d.unstage o e i = d := by
    unfold Dev.unstage
    rw [hs, List.filter_nil, ← hs]
  unfold Dev.stage_
  simp [staged_nil hs, he, whole]

/-- The response 00h to a write of key slot 1. -/
def keyResponse (req : Req) (v : Bytes) : Bytes := respMsg (writeMsg req 0x40 2 0 v) 0 [] false

/-- The host die serves the write of a whole key: steps 2 to 10 of R92 find no fault, and the key is taken (R65). -/
theorem hostServe_key (d : Dev) (req : Req) (v : Bytes) (h : d.TakesKey v) :
    d.hostServe req.src (writeMsg req 0x40 2 0 v) = (keyResponse req v, { d with ld.keySlot1 := v }) := by
  obtain ⟨hs, _, _, _, hv, _⟩ := id h
  have wellFormed : formBad (writeMsg req 0x40 2 0 v) = false := writeMsg_formBad req 0x40 2 0 v (by omega)
  have len : mLen (writeMsg req 0x40 2 0 v) = 32 := (writeMsg_len req 0x40 2 0 v (by omega)).trans hv
  have fits : d.writeFormBad req.src 0x40 2 0 (writeMsg req 0x40 2 0 v) = false := by
    unfold Dev.writeFormBad
    simp only [writeMsg_type, writeMsg_off, len]
    rfl
  have free : d.heldByOther req.src 0x40 2 0 = false := by
    simp [Dev.heldByOther, staged_nil hs, groupRec]
  have whole : mEnd (writeMsg req 0x40 2 0 v) = true := by
    have bytes : tyBytes (tyOf 0x40 2) = true := rfl
    simp [writeMsg_bytes, bytes, mEnd, mFlags, byteAt, bit]
  have obj : mObj (writeMsg req 0x40 2 0 v) = 0x40 := writeMsg_obj req 0x40 2 0 v (by decide)
  have el : mEl (writeMsg req 0x40 2 0 v) = 2 := writeMsg_el req 0x40 2 0 v (by decide)
  have inst : mInst (writeMsg req 0x40 2 0 v) = 0 := writeMsg_inst req 0x40 2 0 v (by decide)
  unfold Dev.hostServe
  simp only [wellFormed, writeMsg_op, obj, el, inst, writeMsg_gate, fits, free, writeMsg_val,
    stage_whole d req.src 0x40 2 0 _ hs whole, keyWrite_taken d v h]
  rfl

/-- A response with another status than 09h leaves on the route of its source, and that is all (R114). -/
theorem hostSend_plain (d : Dev) (src : Source) (r : Bytes) (h : mType r ≠ 9) :
    d.hostSend src r = d.emit (Output.response .host src r) := by
  unfold Dev.hostSend
  rw [if_neg (by simpa using h)]

/-- The one request outstanding, served by the host die itself, is executed and answered, and its response kept: three
turns of the pump, of which the last finds nothing (R82, R94). -/
theorem hostPump_single (src : Source) (k : Nat) (d : Dev) (x : Outstanding) (ho : d.ob.outstanding = [x])
    (hsrc : x.src = src) (hroute : x.route = 0) (hresp : x.resp = none) (hlater : x.later = 0)
    (hsame : (d.hostServe src x.msg).2.ob.outstanding = [x]) (hplain : mType (d.hostServe src x.msg).1 ≠ 9) :
    hostPump src (k + 3) d =
      { (d.hostServe src x.msg).2 with
        ob.outstanding := []
        ob.kept := keep (d.hostServe src x.msg).2.ob.kept
          { src := src, tag := x.tag, resp := (d.hostServe src x.msg).1, at_ := (d.hostServe src x.msg).2.now
            expired := x.expired } }.emit (Output.response .host src (d.hostServe src x.msg).1) := by
  rw [hostPump]
  simp only [ho, hsrc, hroute, hresp, hsame, List.find?_cons_of_pos, beq_self_eq_true]
  rw [hostPump]
  simp only [bne_self_eq_false, Bool.false_eq_true, if_false, hlater, List.map_cons, List.map_nil, beq_self_eq_true,
    if_true, List.find?_cons_of_pos, Dev.each, List.erase_cons_head, List.range_zero, List.foldl_nil]
  rw [hostPump]
  simp [hostSend_plain _ _ _ hplain]

/-- The write of 0040h:2 is a request that the host die serves itself (R37, R81). -/
theorem hostRoute_key (d : Dev) (req : Req) (v : Bytes) (hv : v.length = 32) :
    d.hostRoute req.src (writeMsg req 0x40 2 0 v) = 0 := by
  have wellFormed : formBad (writeMsg req 0x40 2 0 v) = false := writeMsg_formBad req 0x40 2 0 v (by omega)
  have obj : mObj (writeMsg req 0x40 2 0 v) = 0x40 := writeMsg_obj req 0x40 2 0 v (by decide)
  have el : mEl (writeMsg req 0x40 2 0 v) = 2 := writeMsg_el req 0x40 2 0 v (by decide)
  unfold Dev.hostRoute
  simp [wellFormed, obj, el]

/-- The write of 0040h:2 as the host die notes it. -/
def keyRequest (req : Req) (v : Bytes) (now : Nat) : Outstanding :=
  { src := req.src, tag := mTag (writeMsg req 0x40 2 0 v), msg := writeMsg req 0x40 2 0 v, at_ := now }

/-- The device with the key taken, no request outstanding and the response kept. -/
def Dev.keyTaken (d : Dev) (req : Req) (v : Bytes) : Dev :=
  { d with
    ld.keySlot1 := v
    ob.outstanding := []
    ob.kept := keep d.ob.kept
      { src := req.src, tag := mTag (writeMsg req 0x40 2 0 v), resp := keyResponse req v, at_ := d.now
        expired := false } }

/-- The host die executes and answers the write of key slot 1, its one outstanding request (R82). -/
theorem pump_key (d : Dev) (req : Req) (v : Bytes) (now : Nat) (h : d.TakesKey v) :
    { d with ob.outstanding := [keyRequest req v now] }.pump req.src =
      ((d.keyTaken req v).emit (Output.response .host req.src (keyResponse req v))).countOut := by
  have served : { d with ob.outstanding := [keyRequest req v now] }.hostServe req.src (keyRequest req v now).msg =
      (keyResponse req v, { { d with ob.outstanding := [keyRequest req v now] } with ld.keySlot1 := v }) :=
    hostServe_key { d with ob.outstanding := [keyRequest req v now] } req v h
  have plain : mType (keyResponse req v) ≠ 9 := by
    rw [keyResponse, mType_respMsg]
    decide
  unfold Dev.pump
  rw [hostPump_single req.src 37 _ (keyRequest req v now) rfl rfl rfl rfl rfl (by rw [served]) (by rw [served]; exact plain),
    served]
  rfl

/-- With no request outstanding and no response kept for its source, the request is taken and answered at once. -/
theorem hostRequest_key (d : Dev) (req : Req) (v : Bytes) (hr : d.md.hostReset = false)
    (hs : d.hostServes req.src = true) (ho : d.ob.outstanding = [])
    (hk : d.ob.kept.any (fun k => k.src == req.src) = false) (h : d.TakesKey v) :
    hostRequest req.src (writeMsg req 0x40 2 0 v) d =
      ((d.keyTaken req v).emit (Output.response .host req.src (keyResponse req v))).countOut := by
  have unkept : d.ob.kept.find? (fun k => k.src == req.src && k.tag == mTag (writeMsg req 0x40 2 0 v)) = none := by
    refine List.find?_eq_none.mpr fun k hmem => ?_
    have other := List.any_eq_false.mp hk k hmem
    simp [Bool.eq_false_iff.mpr other]
  obtain ⟨_, _, _, _, hv, _⟩ := id h
  unfold hostRequest
  rw [if_neg (by simp [hr, hs])]
  rw [← pump_key d req v d.now h]
  simp [unkept, ho, hostRoute_key d req v hv, keyRequest]

theorem Keeps.keyTaken {xs ys : List (Nat × Nat)} (d : Dev) (req : Req) (v : Bytes) : Keeps xs ys d (d.keyTaken req v) :=
  ⟨.of_od rfl, .of_hod rfl, ⟨rfl, rfl, rfl, rfl, rfl, rfl, rfl⟩, ⟨[], (List.append_nil _).symm⟩, rfl, rfl⟩

/-- 1000h:4 counts the outstanding requests. -/
theorem Keeps.countOut {xs : List (Nat × Nat)} (d : Dev) : Keeps xs [(0x1000, 4)] d d.countOut :=
  .hwr (o := 0x1000) (el := 4) (i := 0) _ (by decide) (by decide) (by decide)

theorem Keeps.emit {xs ys : List (Nat × Nat)} (d : Dev) (x : Output) : Keeps xs ys d (d.emit x) :=
  .of_same rfl ⟨rfl, rfl, rfl, rfl, rfl, rfl, rfl⟩ rfl rfl rfl

/-! ### The anti-rollback counter -/

/-- The counter stands at the security version of the running part: its lines wait for the store, and 0020h:7 reads it
(R74). -/
def Dev.counterRaised (d : Dev) : Dev :=
  { d with
    ld.rollback := d.ld.fSecurity
    st.jobs := d.st.jobs ++ (counterLines d.ld.fSecurity).map fun (l : Nat × Bytes) => StJob.fixed l.1 l.2 }.wr 0x20 7 0
    d.ld.fSecurity

theorem Keeps.counterRaised {ys : List (Nat × Nat)} (d : Dev) : Keeps [(0x20, 7)] ys d d.counterRaised := by
  refine Keeps.trans ?_ (.wr (o := 0x20) (el := 7) (i := 0) _ (by decide) (by decide) (by decide))
  exact .of_same rfl ⟨rfl, rfl, rfl, rfl, rfl, rfl, rfl⟩ rfl rfl rfl

/-- Step 11 of a write of TRUE to 0020h:8. -/
def Dev.counterWritten (d : Dev) : Dev := if d.ld.rollback < d.ld.fSecurity then d.counterRaised else d

theorem fieldWrite_counter (d : Dev) (nv : Mem) (req : Req) (hdr : Bytes) :
    d.fieldWrite nv req hdr 0x20 8 0 (.num 1) = (d.counterWritten.reply req hdr 0, []) := by
  unfold Dev.counterWritten
  by_cases h : d.ld.rollback < d.ld.fSecurity
  · rw [if_pos h]
    have go : ((Val.num 1).nat == 1 && decide (d.ld.rollback < d.ld.fSecurity)) = true := by simp [h, Val.nat]
    exact if_pos go
  · rw [if_neg h]
    have stay : ¬ ((Val.num 1).nat == 1 && decide (d.ld.rollback < d.ld.fSecurity)) = true := by simp [h]
    exact if_neg stay

/-- Taking a request leaves the load and the store. -/
theorem Taken.load {d e : Dev} (h : Taken d e) : e.ld = d.ld ∧ e.st = d.st := by
  obtain ⟨_, _, _, _, rfl⟩ := h
  exact ⟨rfl, rfl⟩

theorem Answers.load {d e : Dev} (h : Answers d e) : e.ld = d.ld ∧ e.st = d.st := by
  obtain ⟨_, _, _, rfl, _⟩ := h
  exact ⟨rfl, rfl⟩

/-- An admitted write of TRUE to 0020h:8: the counter is written, then the answer (R74, R76). -/
theorem rollbackAdvance_runs {s : State} {t : Nat} {req : Req} {P : Dev → Prop} (h : s.dev.Admits req 0x20 8 0 [1] = true)
    (hP : ∀ d e, Taken (s.dev.advance t) d → Answers d.counterWritten e → P e) :
    RunsKeep (.rollbackAdvance t req) s P := by
  obtain ⟨hr, hfw⟩ := admits_runs h
  obtain ⟨d, ht, hw⟩ := fieldRequest_admitted s.sram s.nv (s.dev.advance t) req 0x20 8 0 [1] (by decide) (by decide)
    (.inr (.inr ⟨rfl, rfl⟩)) h
  rw [show valueOf (tyOf 0x20 8) [1] = .num 1 from rfl, fieldWrite_counter] at hw
  have hfield : bootWriteAt req 0x20 8 [1] s.sram s.nv (s.dev.advance t) = _ := (if_neg (by simp [hr, hfw])).trans hw
  exact runsKeep_onMem rfl hfield (hP d _ ht (.reply _ _ _ _))

/-! ### HCAN -/

theorem hcanWake_named (d : Dev) (data : Bytes) (hr : d.md.hostReset = false) (hf : d.md.hostFw = false)
    (hi : leAt data 0 6 = Config.headIdentity % 2 ^ 48) (h1 : byteAt data 6 = 1) :
    hcanWake data d = { d with ld.hcanWake := true } :=
  if_pos (by simp [hr, hf, hi, h1])

theorem hcanFragment_first (d : Dev) (data : Bytes) (hr : d.md.hostReset = false) (hw : d.ld.hcanWake = true)
    (hl : data.length = 64) (h0 : byteAt data 3 = 0) :
    hcanFragment data d = { d with ld.asm := some { next := leAt data 0 3 * 32 + 1, data := data.drop 4 } } :=
  (if_neg (by simp [hr, hw, hl])).trans
    ((if_neg (by simp [h0])).trans ((if_neg (by simp [h0])).trans (if_pos (by simp [h0]))))

/-- An End on HCAN without a session is answered 05h (R69, R80). -/
theorem hcanFragment_endNone (d : Dev) (data : Bytes) (hr : d.md.hostReset = false) (hf : d.md.hostFw = false)
    (hw : d.ld.hcanWake = true) (hx : d.ld.session = none) (hl : data.length = 64) (he : byteAt data 3 = 0xFE) :
    hcanFragment data d = d.answer (.hcan 0x540) 5 0 0 := by
  unfold hcanFragment endPacket
  simp [hr, hf, hw, hx, hl, he]

/-- Settles O16: the key write at the host die, the counter at the field die, and one equation per frame of HCAN. -/
theorem keySlotCounterAndBootExchange : Obligations.KeySlotCounterAndBootExchange := by
  refine ⟨fun s t req value hr hs ho hk hst hm hx hk1 hv hz =>
      runsKeep_onDev (f := hostRequest req.src (writeMsg req 0x40 2 0 value)) rfl ?_,
    fun s t req ha hlt => rollbackAdvance_runs ha fun d e ht he => ?_,
    fun s t req ha hle => rollbackAdvance_runs ha fun d e ht he => ?_,
    fun s t data hr hf hi h1 => runsKeep_onDev (f := hcanWake data) rfl (hcanWake_named (s.dev.advance t) data hr hf hi h1),
    fun s t data hr hw hl h0 =>
      runsKeep_onDev (f := hcanFragment data) rfl (hcanFragment_first (s.dev.advance t) data hr hw hl h0),
    fun s t data hr hf hw hx hl he =>
      runsKeep_onDev (f := hcanFragment data) rfl (hcanFragment_endNone (s.dev.advance t) data hr hf hw hx hl he)⟩
  · have k : Keeps [] [(0x1000, 4)] s.dev _ :=
      (((Keeps.advance s.dev t).trans (.keyTaken _ req value)).trans
        (.emit _ (Output.response .host req.src (keyResponse req value)))).trans (.countOut _)
    rw [hostRequest_key (s.dev.advance t) req value hr hs ho hk ⟨hst, hm, hx, hk1, hv, hz⟩]
    exact ⟨rfl, rfl, k.hostRegs, k.regs, k.motion⟩
  · obtain ⟨hld, _⟩ := ht.load
    have raised : d.counterWritten = d.counterRaised := if_pos (by rw [hld]; exact hlt)
    rw [raised] at he
    obtain ⟨hld', _⟩ := he.load
    have k : Keeps [(0x20, 7)] [] s.dev e :=
      (((Keeps.advance s.dev t).trans (ht.keeps.weaken (List.nil_subset _) (List.nil_subset _))).trans
        (.counterRaised d)).trans he.keeps
    have reads : d.counterRaised.rd 0x20 7 0 = (d.ld.fSecurity : Int) := Dev.rd_wr_same _ 0x20 7 0 _
    exact ⟨hld'.trans (congrArg (fun l : Load => { l with rollback := l.fSecurity }) hld),
      (he.rd 0x20 7 0).trans (reads.trans (congrArg (fun l : Load => (l.fSecurity : Int)) hld)),
      k.regs, k.hostRegs, k.motion⟩
  · obtain ⟨hld, hst⟩ := ht.load
    have stays : d.counterWritten = d := if_neg (by rw [hld]; exact Nat.not_lt.mpr hle)
    rw [stays] at he
    obtain ⟨hld', hst'⟩ := he.load
    have k : Keeps [] [] s.dev e := ((Keeps.advance s.dev t).trans ht.keeps).trans he.keeps
    exact ⟨hld'.trans hld, hst'.trans hst, k.regs, k.hostRegs, k.motion⟩

end Sys2Proof.Machine
end

section
/-! PROOFS for O20. Commit and discard of a linked group's edit, and its ten seconds (R102 to R104). -/

namespace Sys2Proof.Machine

/-! ### What an answer changes of the objects -/

/-- From `x` to `y` requests taken and responses on their way may differ, and nothing else: values, edits, staging copies
and the writes due are as they were. -/
def Responding (x y : Objs) : Prop :=
  ∃ order r4 r5 r6 r7 boot opened, y = { x with
    order := order, resp4 := r4, resp5 := r5, resp6 := r6, resp7 := r7, bootVals := boot, fcanOpen := opened }

theorem Responding.refl (x : Objs) : Responding x x := ⟨_, _, _, _, _, _, _, rfl⟩

theorem Responding.trans {x y z : Objs} (h : Responding x y) (g : Responding y z) : Responding x z := by
  obtain ⟨_, _, _, _, _, _, _, rfl⟩ := h
  obtain ⟨_, _, _, _, _, _, _, rfl⟩ := g
  exact ⟨_, _, _, _, _, _, _, rfl⟩

theorem Responding.waiting {x y : Objs} (h : Responding x y) : y.edits = x.edits ∧ y.due = x.due := by
  obtain ⟨_, _, _, _, _, _, _, rfl⟩ := h
  exact ⟨rfl, rfl⟩

theorem Responding.foldl {α : Type} (g : Dev → α → Dev) (h : ∀ d x, Responding d.ob (g d x).ob) (l : List α) (d : Dev) :
    Responding d.ob (l.foldl g d).ob := by
  induction l generalizing d with
  | nil => exact .refl d.ob
  | cons x l ih => exact (h d x).trans (ih (g d x))

theorem Responding.flushTo (d : Dev) (m : Nat) (q : List Bytes) (put : List Bytes → Objs)
    (h : ∀ rs, Responding d.ob (put rs)) : Responding d.ob (d.flushTo m q put).ob := by
  unfold Dev.flushTo
  split
  · split
    · exact .refl d.ob
    · exact h _
  · exact .refl d.ob

theorem Responding.flushResponses (d : Dev) : Responding d.ob d.flushResponses.ob := by
  have h4 : Responding d.ob d.flush4.ob := .flushTo _ _ _ _ fun _ => ⟨_, _, _, _, _, _, _, rfl⟩
  have h5 : Responding d.flush4.ob d.flush4.flush5.ob := .flushTo _ _ _ _ fun _ => ⟨_, _, _, _, _, _, _, rfl⟩
  have h6 : Responding d.flush4.flush5.ob d.flush4.flush5.flush6.ob :=
    .flushTo _ _ _ _ fun _ => ⟨_, _, _, _, _, _, _, rfl⟩
  have h7 : Responding d.flush4.flush5.flush6.ob d.flush4.flush5.flush6.flush7.ob :=
    .flushTo _ _ _ _ fun _ => ⟨_, _, _, _, _, _, _, rfl⟩
  rw [flushResponses_eq]
  exact ((h4.trans h5).trans h6).trans h7

theorem Responding.fieldSend (d : Dev) (src : Source) (resp : Bytes) : Responding d.ob (d.fieldSend src resp).ob := by
  have queued : ∀ ob : Objs, Responding d.ob ob → Responding d.ob { d with ob := ob }.flushResponses.ob :=
    fun ob h => h.trans (.flushResponses { d with ob := ob })
  unfold Dev.fieldSend
  generalize (byteAt resp 0 == 0x82 && mObj resp == 0x30 && (mEl resp == 3 || mEl resp == 7)) = modeWrite
  generalize (byteAt resp 0 == 0x82 && mObj resp == 0x30 && mEl resp == 6) = ackWrite
  cases src with
  | port n ip udp => cases modeWrite <;> cases ackWrite <;> exact queued _ ⟨_, _, _, _, _, _, _, rfl⟩
  | hcan base => cases modeWrite <;> cases ackWrite <;> exact queued _ ⟨_, _, _, _, _, _, _, rfl⟩
  | fcan base => cases modeWrite <;> cases ackWrite <;> exact ⟨_, _, _, _, _, _, _, rfl⟩

theorem Responding.reply (d : Dev) (req : Req) (hdr : Bytes) (st : Nat) : Responding d.ob (d.reply req hdr st).ob := by
  have ordered : ∀ order, Responding d.ob { d.ob with order := order } := fun _ => ⟨_, _, _, _, _, _, _, rfl⟩
  unfold Dev.reply Dev.fieldAnswer
  dsimp only
  split
  · exact .refl d.ob
  · exact (ordered _).trans (.foldl _ (fun d r => .fieldSend d _ r) _ { d with ob.order := _ })

/-! ### Command of a commit record -/

/-- The commit of edit `x` waits for its boundary, State 2 (R103). -/
def Dev.commitWaits (d : Dev) (req : Req) (hdr : Bytes) (g i : Nat) (x : Edit) : Dev :=
  { d with
    ob.edits := Tab.put d.ob.edits (editKey g i) { x with touched := d.now, pending := some (req, hdr) }
    ob.due := d.ob.due ++ [({ o := g, e := 1, i := i, v := .num 1, req := req, hdr := hdr } : DueWrite)] }.wr g 2 i 2

theorem groupCommand_commit {d : Dev} {req : Req} {g i : Nat} {x : Edit} (hx : d.edit g i = some x)
    (ho : x.owner = req.src) (hp : x.pending = none) (hdr : Bytes) :
    d.groupCommand req hdr g i 1 = (none, d.commitWaits req hdr g i x) := by
  have own : ¬ (x.owner != req.src) = true := by simp [ho]
  have free : ¬ x.pending.isSome = true := by simp [hp]
  unfold Dev.groupCommand
  simp only [hx]
  rw [if_neg (by decide), if_neg own, if_neg (by decide), if_neg free]
  rfl

theorem groupCommand_discard {d : Dev} {req : Req} {g i : Nat} {x : Edit} (hx : d.edit g i = some x)
    (ho : x.owner = req.src) (hdr : Bytes) : d.groupCommand req hdr g i 2 = (some 0, d.editEnd g i) := by
  have own : ¬ (x.owner != req.src) = true := by simp [ho]
  unfold Dev.groupCommand
  simp only [hx]
  rw [if_neg (by decide), if_neg own, if_pos (by decide)]

/-- Step 11 of a write to a commit record whose command has a status: it is answered. -/
theorem fieldWrite_command_answered {d e : Dev} {req : Req} {hdr : Bytes} {g i n st : Nat} (hlo : 0x1020 ≤ g)
    (hhi : g ≤ 0x105F) (h : d.groupCommand req hdr g i n = (some st, e)) (nv : Mem) :
    d.fieldWrite nv req hdr g 1 i (.num (n : Nat)) = (e.reply req hdr st, []) := by
  have record : (decide (0x1020 ≤ g) && decide (g ≤ 0x105F)) = true := by simp [hlo, hhi]
  unfold Dev.fieldWrite
  simp only [record, if_true, Val.nat, Int.toNat_natCast, h]

/-- The same for a command without a status: its answer waits (R97). -/
theorem fieldWrite_command_waits {d e : Dev} {req : Req} {hdr : Bytes} {g i n : Nat} (hlo : 0x1020 ≤ g)
    (hhi : g ≤ 0x105F) (h : d.groupCommand req hdr g i n = (none, e)) (nv : Mem) :
    d.fieldWrite nv req hdr g 1 i (.num (n : Nat)) = (e, []) := by
  have record : (decide (0x1020 ≤ g) && decide (g ≤ 0x105F)) = true := by simp [hlo, hhi]
  unfold Dev.fieldWrite
  simp only [record, if_true, Val.nat, Int.toNat_natCast, h]

/-- The bytes that an admitted write carries fill the type of its element (R92). -/
theorem admits_size {d : Dev} {req : Req} {o el i : Nat} {v : Bytes} (h : d.Admits req o el i v = true) :
    tyBytes (tyOf o el) = false ∧ v.length = tySize (tyOf o el) := by
  simp only [Dev.Admits, Bool.and_eq_true, Bool.not_eq_true', beq_iff_eq] at h
  obtain ⟨⟨⟨⟨⟨_, hb⟩, hl⟩, _⟩, _⟩, _⟩ := h
  exact ⟨hb, hl⟩

/-- A byte below 80h spells its own number under every type of one byte. -/
theorem valueOf_byte {t : Ty} (ht : tySize t = 1) (n : Nat) (hn : n < 128) :
    valueOf t [BitVec.ofNat 8 n] = .num (n : Nat) := by
  have spells : ofLe [BitVec.ofNat 8 n] = n := by
    simp only [ofLe, BitVec.toNat_ofNat]
    omega
  cases t with
  | bool => exact congrArg (fun k : Nat => Val.num k) spells
  | u8 => exact congrArg (fun k : Nat => Val.num k) spells
  | i8 =>
    have positive : toSigned 8 n = n := by
      unfold toSigned
      rw [Nat.mod_eq_of_lt (by omega)]
      exact if_pos hn
    exact congrArg Val.num ((congrArg (toSigned 8) spells).trans positive)
  | _ => exact absurd ht (by decide)

/-- An admitted write of `n` to Command of a commit record: what step 11 makes of it. -/
theorem commandWrite_runs {c : Instr} {s : State} {t g i n : Nat} {req : Req} {P : Dev → Prop}
    (hc : exec c s = onMem t (writeAt req g 1 i [BitVec.ofNat 8 n]) s) (hn : n < 128) (hlo : 0x1020 ≤ g)
    (hhi : g ≤ 0x1034) (h : s.dev.Admits req g 1 i [BitVec.ofNat 8 n] = true)
    (hP : ∀ d hdr, Taken (s.dev.advance t) d →
      ∃ e, d.fieldWrite s.nv req hdr g 1 i (.num (n : Nat)) = (e, []) ∧ P e) : RunsKeep c s P := by
  obtain ⟨d, ht, hw⟩ := fieldRequest_admitted s.sram s.nv (s.dev.advance t) req g 1 i _ (by omega) (by decide)
    (.inl (by omega)) h
  obtain ⟨_, hl⟩ := admits_size h
  obtain ⟨e, he, hPe⟩ := hP d _ ht
  rw [valueOf_byte hl.symm n hn, he] at hw
  exact runsKeep_onMem hc hw hPe

/-! ### What the commands leave -/

theorem Taken.edit {d e : Dev} {t : Nat} (h : Taken (d.advance t) e) (g i : Nat) : e.edit g i = d.edit g i := by
  obtain ⟨_, _, _, _, rfl⟩ := h
  rfl

/-- The frame of a request taken once time has passed. -/
theorem Taken.keepsSince {xs ys : List (Nat × Nat)} {d e : Dev} {t : Nat} (h : Taken (d.advance t) e) : Keeps xs ys d e :=
  (Keeps.advance d t).trans (h.keeps.weaken (List.nil_subset _) (List.nil_subset _))

theorem Keeps.commitWaits {ys : List (Nat × Nat)} (d : Dev) (req : Req) (hdr : Bytes) (g : Nat) {i : Nat} (x : Edit)
    (hi : i < 65536) : Keeps [(g, 2)] ys d (d.commitWaits req hdr g i x) :=
  ⟨.wr (d := d) 2 (by decide) hi (List.mem_singleton.mpr rfl), .of_hod rfl, ⟨rfl, rfl, rfl, rfl, rfl, rfl, rfl⟩,
    ⟨[], (List.append_nil _).symm⟩, rfl, rfl⟩

theorem commitWaits_edit (d : Dev) (req : Req) (hdr : Bytes) (g i : Nat) (x : Edit) :
    (d.commitWaits req hdr g i x).edit g i = some { x with touched := d.now, pending := some (req, hdr) } :=
  Tab.find_put_same _ _ _

theorem Keeps.editEnd {ys : List (Nat × Nat)} (d : Dev) (g : Nat) {i : Nat} (hi : i < 65536) :
    Keeps [(g, 2), (g, 3)] ys d (d.editEnd g i) := by
  have dropped : Keeps [(g, 2), (g, 3)] ys d { d with ob.edits := Tab.del d.ob.edits (editKey g i) } :=
    ⟨.of_od rfl, .of_hod rfl, ⟨rfl, rfl, rfl, rfl, rfl, rfl, rfl⟩, ⟨[], (List.append_nil _).symm⟩, rfl, rfl⟩
  exact (dropped.trans (.wr (el := 2) 0 (by simp) (by decide) hi)).trans (.wr (el := 3) 0 (by simp) (by decide) hi)

/-- State 0 and no owner. -/
theorem editEnd_reads (d : Dev) (g i : Nat) : (d.editEnd g i).rd g 2 i = 0 ∧ (d.editEnd g i).rd g 3 i = 0 := by
  have apart : okey g 2 i ≠ okey g 3 i := by
    unfold okey
    omega
  refine ⟨?_, Dev.rd_wr_same _ _ _ _ _⟩
  unfold Dev.editEnd
  rw [Dev.rd_wr_other _ _ _ _ _ _ _ _ apart, Dev.rd_wr_same]

/-- An edit of which no commit waits ends 10 s after its owner last touched it (R102). -/
theorem editTimeout_due {d : Dev} {g i : Nat} {x : Edit} (hr : d.md.fieldReset = false) (hx : d.edit g i = some x)
    (hp : x.pending = none) (ht : x.touched + 10 * sec ≤ d.now) : editTimeoutAt g i d = d.editEnd g i := by
  unfold editTimeoutAt
  simp only [hx]
  exact if_neg (by simp [hr, hp, Nat.not_lt.mpr ht])

/-- Settles O20: one equation per command, read through the taking of the request and its answer. -/
theorem editsAreCommittedOrDropped : Obligations.EditsAreCommittedOrDropped := by
  refine ⟨fun s t grp inst req x hlo hhi ha hx ho hp =>
      commandWrite_runs (n := 1) rfl (by decide) hlo hhi ha fun d hdr ht => ?_,
    fun s t grp inst req x hlo hhi ha hx ho =>
      commandWrite_runs (n := 2) rfl (by decide) hlo hhi ha fun d hdr ht => ?_,
    fun s t grp inst x hr _ hi hx hp ht => runsKeep_onDev (f := editTimeoutAt grp inst) rfl ?_⟩
  · obtain ⟨hi, _⟩ := admits_inst ha
    refine ⟨_, fieldWrite_command_waits hlo (by omega)
      (groupCommand_commit ((ht.edit grp inst).trans hx) ho hp hdr) s.nv, ?_⟩
    obtain ⟨_, _, _, _, hdue⟩ := ht.reads
    have k : Keeps [(grp, 2)] [] s.dev _ := ht.keepsSince.trans (.commitWaits d req hdr grp x hi)
    exact ⟨⟨_, congrArg (· ++ [_]) hdue, rfl, rfl, rfl, rfl, rfl⟩, Dev.rd_wr_same _ _ _ _ _,
      congrArg (Option.map Edit.shadows) (commitWaits_edit d req hdr grp inst x), k.regs, k.hostRegs, k.motion⟩
  · obtain ⟨hi, _⟩ := admits_inst ha
    refine ⟨_, fieldWrite_command_answered hlo (by omega)
      (groupCommand_discard ((ht.edit grp inst).trans hx) ho hdr) s.nv, ?_⟩
    obtain ⟨_, _, hedits, _, hdue⟩ := ht.reads
    obtain ⟨state, owner⟩ := editEnd_reads d grp inst
    obtain ⟨redits, rdue⟩ := (Responding.reply (d.editEnd grp inst) req hdr 0).waiting
    have reply := Answers.reply (d.editEnd grp inst) req hdr 0
    have k : Keeps [(grp, 2), (grp, 3)] [] s.dev _ := (ht.keepsSince.trans (.editEnd d grp hi)).trans reply.keeps
    exact ⟨redits.trans (congrArg (Tab.del · (editKey grp inst)) hedits), (reply.rd _ _ _).trans state,
      (reply.rd _ _ _).trans owner, rdue.trans hdue, k.regs, k.hostRegs, k.motion⟩
  · rw [editTimeout_due (d := s.dev.advance t) hr hx hp (Nat.le_trans ht (Nat.le_max_right _ _))]
    obtain ⟨state, owner⟩ := editEnd_reads (s.dev.advance t) grp inst
    have k : Keeps [(grp, 2), (grp, 3)] [] s.dev _ := (Keeps.advance s.dev t).trans (.editEnd _ grp hi)
    exact ⟨rfl, state, owner, k.regs, k.hostRegs, k.motion⟩

end Sys2Proof.Machine
end

section
/-! PROOFS for O31. A law numbered 65536 that completes counts in an element of axis 0 (R4, R239). -/

namespace Sys2Proof.Machine

/-- The key of an axis numbered from 65536 on is a key of the next element. -/
theorem okey_carry (o el i : Nat) : okey o el (65536 + i) = okey o (el + 1) i := by
  unfold okey
  omega

/-- StageSaturations of axis 65536 and FieldFormatErrors of axis 0 are one number; both have Default 0. -/
theorem rd_stageSaturations_carry (d : Dev) : d.rd 0x2150 4 65536 = d.rd 0x2150 5 0 := by
  have sameDefault : dfltNum 0x2150 4 = dfltNum 0x2150 5 := by decide
  unfold Dev.rd
  rw [okey_carry 0x2150 4 0, sameDefault]

/-- A run of cycle 3 of a law numbered 65536, before its first stage. -/
def carryRun : LawRun := { job := ⟨65536, 3, 0, false, [], [], {}⟩ }

/-- Blade A drives the frames and has that run in service. The law has no stages, so it may complete; one saturation is
counted for it from a run before. -/
def carryState : State :=
  at_ { bladeUp 2 with
    eng := { a := { lanes := [(0, .axis 65536)], laws := [(65536, { stSat := 1, run := some carryRun })] } } }

/-- LAW_COMPLETE writes the count to StageSaturations of axis 65536, which read 0. -/
theorem carryState_lawComplete :
    carryState.dev.rd 0x2150 4 65536 = 0 ∧
      ∃ t, exec (.lawComplete 0 .a 65536 false) carryState = .next t ∧ t.dev.rd 0x2150 4 65536 = 1 :=
  ⟨by decide, _, rfl, by decide⟩

/-- Refutes O31: its fourth clause names 2150h:3 and 2150h:4 as the elements of 2150h that a completed law may change, but
bounds no axis number. The law numbered 65536 writes its 2150h:4, which is 2150h:5 of axis 0. -/
theorem not_lawsRunStageByStage : ¬ Obligations.LawsRunStageByStage := by
  rintro ⟨-, -, -, completes, -⟩
  obtain ⟨u, hu, -, -, -, -, -, -, -, -, regs, -⟩ :=
    completes carryState 0 65536 .a carryRun false rfl rfl (by decide) rfl (by decide)
  obtain ⟨before, v, hv, after⟩ := carryState_lawComplete
  have same : u = v := Host.Outcome.next.inj (hu.symm.trans hv)
  have kept : v.dev.rd 0x2150 5 0 = carryState.dev.rd 0x2150 5 0 :=
    same ▸ regs 0x2150 5 0 (by decide) (by decide) (by decide) (by decide)
  rw [← rd_stageSaturations_carry, ← rd_stageSaturations_carry, after, before] at kept
  exact absurd kept (by decide)

end Sys2Proof.Machine
end

section
/-! PROOFS for O2. The self-tests at power-up: the results of both blades, the choice of the active blade, and the Judge
(R288 to R290). -/

namespace Sys2Proof.Machine

/-! ### The results of the blades -/

/-- The elements that the blades' self-tests and the choice of the active blade may write: ActiveBlade, and of each blade
State, FaultCause and the failed units. -/
def powerUpElements : List (Nat × Nat) :=
  [(0x9020, 1), (0x9030, 1), (0x9030, 2), (0x9030, 5), (0x9031, 1), (0x9031, 2), (0x9031, 5)]

/-- The record of a blade whose self-test at power-up failed in the units `bad`. -/
def Dev.selfTestFailed (d : Dev) (x : Blade) (bad : Nat) : Dev :=
  ((d.wr (0x9030 + bladeNum x) 5 0 bad).wr (0x9030 + bladeNum x) 2 0 5).setBlState x 5

theorem powerUpBlade_passed (d : Dev) (x : Blade) :
    d.powerUpBlade x 0 = (d.wr (0x9030 + bladeNum x) 5 0 0).setBlState x 3 := rfl

theorem powerUpBlade_failed (d : Dev) (x : Blade) {bad : Nat} (h : bad ≠ 0) :
    d.powerUpBlade x bad = (d.selfTestFailed x bad).raise 0x82 (leBytes (bladeNum x) 1) := by
  unfold Dev.powerUpBlade
  exact if_neg (by simpa using h)

/-- A write of one of these elements of a blade. -/
theorem Keeps.bladeEl (d : Dev) (x : Blade) (v : Int) {el : Nat} (h : el ∈ [1, 2, 5]) :
    Keeps powerUpElements [] d (d.wr (0x9030 + bladeNum x) el 0 v) := by
  have named : ∀ n ∈ [1, 2, 5], (0x9030 + bladeNum x, n) ∈ powerUpElements := by
    cases x with
    | a => decide
    | b => decide
  have small : ∀ n ∈ [1, 2, 5], n < 256 := by decide
  exact .wr v (named el h) (small el h) (by decide)

theorem Keeps.selfTestFailed (d : Dev) (x : Blade) (bad : Nat) :
    Keeps powerUpElements [] d (d.selfTestFailed x bad) :=
  ((Keeps.bladeEl d x bad (by decide)).trans (.bladeEl _ x 5 (by decide))).trans (.bladeEl _ x 5 (by decide))

theorem Keeps.powerUpBlade (d : Dev) (x : Blade) (bad : Nat) : Keeps powerUpElements [] d (d.powerUpBlade x bad) := by
  by_cases h : bad = 0
  · rw [h, powerUpBlade_passed]
    exact (Keeps.bladeEl d x 0 (by decide)).trans (.bladeEl _ x 3 (by decide))
  · rw [powerUpBlade_failed d x h]
    exact (Keeps.selfTestFailed d x bad).trans (.raise _ 0x82 _)

theorem powerUpBlade_raised (d : Dev) (x : Blade) {bad : Nat} (hr : d.md.fieldReset = false) (h : bad ≠ 0) :
    Raised d (d.powerUpBlade x bad) 0x82 (leBytes (bladeNum x) 1) := by
  rw [powerUpBlade_failed d x h]
  exact (Keeps.selfTestFailed d x bad).raised hr ⟨[], (List.append_nil _).symm⟩

/-- Both blades' self-tests at power-up. -/
def Dev.bladesTested (d : Dev) (ba bb : Nat) : Dev := (d.powerUpBlade .a ba).powerUpBlade .b bb

/-! ### The choice of the active blade -/

/-- Blade `x` becomes the active one at power-up. -/
def Dev.activate (d : Dev) (x : Blade) : Dev := (d.wr 0x9020 1 0 (bladeNum x)).setBlState x 4

theorem activate_reads (d : Dev) (x : Blade) :
    (d.activate x).rn 0x9020 1 0 = bladeNum x ∧ (d.activate x).blState x = 4 := by
  have apart : okey 0x9020 1 0 ≠ okey (0x9030 + bladeNum x) 1 0 := by
    unfold okey
    omega
  have chosen : (d.activate x).rd 0x9020 1 0 = bladeNum x :=
    (Dev.rd_wr_other _ _ _ _ _ _ _ _ apart).trans (Dev.rd_wr_same _ _ _ _ _)
  exact ⟨congrArg Int.toNat chosen, congrArg Int.toNat (Dev.rd_wr_same _ _ _ _ _)⟩

/-- Blade A becomes active where it passed, otherwise blade B where it passed, otherwise none (R288). -/
def Dev.chooseActive (d : Dev) (ba bb : Nat) : Dev :=
  if ba == 0 then d.activate .a else if bb == 0 then d.activate .b else d.wr 0x9020 1 0 0xFF

theorem chooseActive_reads (d : Dev) (ba bb : Nat) :
    (ba = 0 → (d.chooseActive ba bb).rn 0x9020 1 0 = 0 ∧ (d.chooseActive ba bb).rn 0x9030 1 0 = 4) ∧
      (ba ≠ 0 → bb = 0 → (d.chooseActive ba bb).rn 0x9020 1 0 = 1 ∧ (d.chooseActive ba bb).rn 0x9031 1 0 = 4) ∧
      (ba ≠ 0 → bb ≠ 0 → (d.chooseActive ba bb).rn 0x9020 1 0 = 0xFF) := by
  unfold Dev.chooseActive
  refine ⟨fun hA => ?_, fun hA hB => ?_, fun hA hB => ?_⟩
  · rw [if_pos (by simpa using hA)]
    exact activate_reads d .a
  · rw [if_neg (by simpa using hA), if_pos (by simpa using hB)]
    exact activate_reads d .b
  · rw [if_neg (by simpa using hA), if_neg (by simpa using hB)]
    exact congrArg Int.toNat (Dev.rd_wr_same d 0x9020 1 0 0xFF)

theorem Keeps.activeEl (d : Dev) (v : Int) : Keeps powerUpElements [] d (d.wr 0x9020 1 0 v) :=
  .wr v (by decide) (by decide) (by decide)

theorem Keeps.activate (d : Dev) (x : Blade) : Keeps powerUpElements [] d (d.activate x) :=
  (Keeps.activeEl d _).trans (.bladeEl _ x 4 (by decide))

theorem Keeps.chooseActive (d : Dev) (ba bb : Nat) : Keeps powerUpElements [] d (d.chooseActive ba bb) :=
  .ite _ (.activate d .a) (.ite _ (.activate d .b) (.activeEl d 0xFF))

/-- The blades as the self-tests at power-up leave them. -/
def Dev.bladesChosen (d : Dev) (ba bb : Nat) : Dev := (d.bladesTested ba bb).chooseActive ba bb

theorem Keeps.bladesChosen (d : Dev) (ba bb : Nat) : Keeps powerUpElements [] d (d.bladesChosen ba bb) :=
  ((Keeps.powerUpBlade d .a ba).trans (.powerUpBlade _ .b bb)).trans (.chooseActive _ ba bb)

/-- JudgeState is outside what the blades write. -/
theorem bladesChosen_judge (d : Dev) (ba bb : Nat) : (d.bladesChosen ba bb).rn 0x9020 2 0 = d.rn 0x9020 2 0 :=
  Dev.rn_eq_of_rd ((Keeps.bladesChosen d ba bb).regs 0x9020 2 0 (by decide) (by decide) (by decide) rfl)

theorem bladesChosen_raised (d : Dev) (ba bb : Nat) (hr : d.md.fieldReset = false) :
    (ba ≠ 0 → Raised d (d.bladesChosen ba bb) 0x82 (leBytes 0 1)) ∧
      (bb ≠ 0 → Raised d (d.bladesChosen ba bb) 0x82 (leBytes 1 1)) := by
  have testedA := Keeps.powerUpBlade d .a ba
  have testedB := Keeps.powerUpBlade (d.powerUpBlade .a ba) .b bb
  have chosen := Keeps.chooseActive (d.bladesTested ba bb) ba bb
  refine ⟨fun hA => ?_, fun hB => ?_⟩
  · exact (powerUpBlade_raised d .a hr hA).mono testedA.queue (testedB.trans chosen).queue
  · exact .within testedA (powerUpBlade_raised _ .b (testedA.fieldReset.trans hr) hB) testedB.queue chosen.queue

/-! ### The Judge -/

/-- Once out of reset and with the Judge in self-test, the choice stands and the Judge's own result decides (R288, R289). -/
theorem powerUpAt_eq (d : Dev) (judgeOk : Bool) (ba bb : Nat) (hr : d.md.fieldReset = false) (hj : d.rn 0x9020 2 0 = 0) :
    powerUpAt judgeOk ba bb d =
      if judgeOk then (d.bladesChosen ba bb).wr 0x9020 2 0 1 else (d.bladesChosen ba bb).arbitrationLost :=
  if_neg (by simp [hr, hj])

/-- JudgeState 2, without a swap or a divergence under way (R289). -/
def Dev.judgeFailed (d : Dev) : Dev := { d with eng.swapDue := false, eng.diverged := none }.wr 0x9020 2 0 2

/-- Arbitration that was not lost before is lost with event 85h (R289, R290). -/
theorem arbitrationLost_leaves (d : Dev) (hr : d.md.fieldReset = false) (hj : d.rn 0x9020 2 0 ≠ 2) :
    d.arbitrationLost.rn 0x9020 2 0 = 2 ∧ Raised d d.arbitrationLost 0x85 [] := by
  have lost : d.arbitrationLost = d.judgeFailed.raise 0x85 [] := if_neg (by simpa using hj)
  have failed : (d.judgeFailed.raise 0x85 []).rd 0x9020 2 0 = 2 :=
    (Dev.rd_raise _ _ _ _ _ _ (by decide) (by decide) (by decide)).trans (Dev.rd_wr_same _ _ _ _ _)
  rw [lost]
  exact ⟨congrArg Int.toNat failed, raised_raise d.judgeFailed 0x85 [] hr⟩

/-- Settles O2: the choice of the active blade, read beside the Judge's result, and the events over its frame. -/
theorem powerUpSelfTestsChooseTheActiveBlade : Obligations.PowerUpSelfTestsChooseTheActiveBlade := by
  refine ⟨fun s t ba bb hr hj => runsKeep_onDev (f := powerUpAt true ba bb) rfl ?_,
    fun s t ba bb hr hj => runsKeep_onDev (f := powerUpAt false ba bb) rfl ?_⟩
  · rw [powerUpAt_eq (s.dev.advance t) true ba bb hr hj, if_pos rfl]
    have other : ∀ d : Dev, ∀ o, (d.wr 0x9020 2 0 1).rn o 1 0 = d.rn o 1 0 := fun d o =>
      Dev.rn_eq_of_rd (Dev.rd_wr_other d 0x9020 2 0 o 1 0 1 (by unfold okey; omega))
    obtain ⟨activeA, activeB, activeNone⟩ := chooseActive_reads ((s.dev.advance t).bladesTested ba bb) ba bb
    obtain ⟨failedA, failedB⟩ := bladesChosen_raised (s.dev.advance t) ba bb hr
    rw [other, other, other]
    exact ⟨congrArg Int.toNat (Dev.rd_wr_same _ _ _ _ _), activeA, activeB, activeNone, failedA, failedB⟩
  · rw [powerUpAt_eq (s.dev.advance t) false ba bb hr hj]
    have k := Keeps.bladesChosen (s.dev.advance t) ba bb
    have testing : ((s.dev.advance t).bladesChosen ba bb).rn 0x9020 2 0 = 0 := (bladesChosen_judge _ ba bb).trans hj
    obtain ⟨failed, raised⟩ := arbitrationLost_leaves _ (k.fieldReset.trans hr) (by rw [testing]; decide)
    exact ⟨failed, raised.since k.queue⟩

end Sys2Proof.Machine
end

section
/-! PROOFS for O37. Commands to line units and Glide groups (R312, R337), exhaustion (R339), and sigma-delta inputs that
stick and recover (R305). -/

namespace Sys2Proof.Machine

/-! ### Writes that the state before the request decides -/

/-- An admitted write outside the linked groups that step 11 judges well, on the state that took it, waits for its boundary
and changes no element. -/
theorem judgedWrite_waits {c : Instr} {s : State} {t o el i : Nat} {req : Req} {bs : Bytes} {v : Val}
    (hc : exec c s = onMem t (writeAt req o el i bs) s) (h : s.dev.Admits req o el i bs = true)
    (hlo : 0x1000 ≤ o) (hhi : o < 65536) (hel : el < 256) (ho : ¬ writtenAtOnce o) (hg : groupRec o el = 0)
    (hv : valueOf (tyOf o el) bs = v) (hst : ∀ d, Taken (s.dev.advance t) d → d.dueCheck o el i v = 0)
    (hacc : ∀ d : Dev, d.dueAccept o el i v = d) :
    RunsKeep c s fun e => DueAtBoundary s.dev e req o el i v ∧ SameRegs [] s.dev e ∧ SameHostRegs [] s.dev e ∧
      SameMotion s.dev e := by
  obtain ⟨d1, ht, hw⟩ := fieldRequest_admitted s.sram s.nv (s.dev.advance t) req o el i bs hhi hel (.inl hlo) h
  rw [hv, fieldWrite_waits d1 _ _ _ _ _ _ _ ho hg (hst d1 ht) (hacc d1)] at hw
  refine runsKeep_onMem hc hw ?_
  have k := (Keeps.advance s.dev t).trans ht.keeps
  obtain ⟨_, _, _, _, hdue⟩ := ht.reads
  exact ⟨⟨_, by rw [hdue]; rfl, rfl, rfl, rfl, rfl, rfl⟩, k.regs, k.hostRegs, k.motion⟩

/-! ### Line units -/

@[simp] theorem Dev.lu_setLu_same (d : Dev) (u : Nat) (x : LineUnit) : (d.setLu u x).lu u = x :=
  (Tab.get_put d.line.units u u x {}).trans (if_pos rfl)

theorem Dev.lu_congr {d e : Dev} (h : e.line = d.line) (u : Nat) : e.lu u = d.lu u := by
  simp only [Dev.lu, h]

/-- Step 11 judges a command to a line unit by R312 alone: the dictionary gives 3030h:5 no range. -/
theorem dueCheck_lineCommand (d : Dev) (u : Nat) (n : Int) :
    d.dueCheck 0x3030 5 u (.num n) = lineCmdCheck d u n.toNat := rfl

/-- At its boundary a command waits in its unit for the transition of R311. -/
theorem dueApply_lineCommand (d : Dev) (u : Nat) (n : Int) :
    d.dueApply 0x3030 5 u (.num n) = d.modLu u fun x => { x with cmd := some n.toNat } := rfl

/-- A command to a line unit is judged as it would have been before it was taken. -/
theorem Taken.lineCmdCheck {d e : Dev} {t : Nat} (h : Taken (d.advance t) e) (u v : Nat) :
    lineCmdCheck e u v = lineCmdCheck d u v := by
  obtain ⟨_, _, _, _, rfl⟩ := h
  rfl

theorem lineCmdCheck_start (d : Dev) (u : Nat) (hm : d.mode = 3) (hs : d.luState u = 1) : lineCmdCheck d u 1 = 0 := by
  simp [lineCmdCheck, hm, hs]

theorem lineCmdCheck_stop (d : Dev) (u : Nat) (hlo : 2 ≤ d.luState u) (hhi : d.luState u ≤ 6) : lineCmdCheck d u 2 = 0 := by
  simp [lineCmdCheck, hlo, hhi]

theorem lineCmdCheck_resetTrip (d : Dev) (u : Nat) (hs : d.luState u = 7)
    (hc : (d.tripCauses u 7).contains (d.rn 0x3040 2 u) = false) : lineCmdCheck d u 3 = 0 := by
  simp only [lineCmdCheck, hs, hc]
  rfl

/-- An accepted command to a line unit waits; at the boundary it stands in its unit, and 3030h:5 reads as before. -/
theorem lineCommand_waits {c : Instr} {s : State} {t u : Nat} {req : Req} {bs : Bytes} {n : Int}
    (hc : exec c s = onMem t (writeAt req 0x3030 5 u bs) s) (ha : s.dev.Admits req 0x3030 5 u bs = true)
    (hv : valueOf (tyOf 0x3030 5) bs = .num n) (hok : lineCmdCheck s.dev u n.toNat = 0) :
    RunsKeep c s fun e => DueAtBoundary s.dev e req 0x3030 5 u (.num n) ∧
      ((e.dueApply 0x3030 5 u (.num n)).lu u).cmd = some n.toNat ∧
      (e.dueApply 0x3030 5 u (.num n)).rd 0x3030 5 u = s.dev.rd 0x3030 5 u ∧ SameRegs [] s.dev e ∧
      SameHostRegs [] s.dev e ∧ SameMotion s.dev e := by
  refine (judgedWrite_waits hc ha (by decide) (by decide) (by decide) (by unfold writtenAtOnce; omega) rfl hv
    (fun d ht => ?_) fun _ => rfl).mono fun e he => ?_
  · rw [dueCheck_lineCommand, ht.lineCmdCheck, hok]
  · obtain ⟨hdue, hregs, hhost, hmot⟩ := he
    refine ⟨hdue, ?_, hregs 0x3030 5 u (by decide) (admits_inst ha).1 List.not_mem_nil rfl, hregs, hhost, hmot⟩
    rw [dueApply_lineCommand, Dev.modLu, Dev.lu_setLu_same]

/-! ### Glide groups -/

/-- The eight Glide groups (R329). -/
theorem glideGroup_cases {g : Nat} (hg : g < 8) :
    g = 0 ∨ g = 1 ∨ g = 2 ∨ g = 3 ∨ g = 4 ∨ g = 5 ∨ g = 6 ∨ g = 7 := by
  omega

/-- Command is element 2 of 3110h to 3117h: outside the linked groups, a U8 without a range that step 11 judges by R337
alone, and that waits in its group at the boundary. -/
theorem glideCommand_accepted {g : Nat} (hg : g < 8) :
    groupRec (0x3110 + g) 2 = 0 ∧ tyOf (0x3110 + g) 2 = .u8 ∧
      (∀ (d : Dev) (n : Int), d.dueCheck (0x3110 + g) 2 0 (.num n) = glideCmdCheck d g n.toNat) ∧
      (∀ (d : Dev) (n : Int), d.dueAccept (0x3110 + g) 2 0 (.num n) = d) ∧
      ∀ (d : Dev) (n : Int),
        d.dueApply (0x3110 + g) 2 0 (.num n) = d.modGg g fun x => { x with cmd := some n.toNat } := by
  rcases glideGroup_cases hg with rfl | rfl | rfl | rfl | rfl | rfl | rfl | rfl <;>
    exact ⟨rfl, rfl, fun _ _ => rfl, fun _ _ => rfl, fun _ _ => rfl⟩

@[simp] theorem Dev.gg_modGg_same (d : Dev) (g : Nat) (f : GlideSt → GlideSt) : (d.modGg g f).gg g = f (d.gg g) :=
  (Tab.get_put d.line.groups g g (f (d.gg g)) {}).trans (if_pos rfl)

/-- A command to a Glide group is judged as it would have been before it was taken. -/
theorem Taken.glideCmdCheck {d e : Dev} {t : Nat} (h : Taken (d.advance t) e) (g v : Nat) :
    glideCmdCheck e g v = glideCmdCheck d g v := by
  obtain ⟨_, _, _, _, rfl⟩ := h
  rfl

theorem glideCmdCheck_resume (d : Dev) (g : Nat) (hs : d.ggState g = 5) (hm : d.mode = 3)
    (hu : d.luState (d.ggUnit g) = 5) : glideCmdCheck d g 1 = 0 := by
  simp [glideCmdCheck, hs, hm, hu]

theorem glideCmdCheck_release (d : Dev) (g : Nat) (hlo : 2 ≤ d.ggState g) (hhi : d.ggState g ≤ 4) :
    glideCmdCheck d g 2 = 0 := by
  simp [glideCmdCheck, hlo, hhi]

/-- An accepted command to a Glide group waits; at the boundary it stands in its group. -/
theorem glideCommand_waits {c : Instr} {s : State} {t g : Nat} {req : Req} {bs : Bytes} {n : Int} (hg : g < 8)
    (hc : exec c s = onMem t (writeAt req (0x3110 + g) 2 0 bs) s) (ha : s.dev.Admits req (0x3110 + g) 2 0 bs = true)
    (hv : valueOf .u8 bs = .num n) (hok : glideCmdCheck s.dev g n.toNat = 0) :
    RunsKeep c s fun e => DueAtBoundary s.dev e req (0x3110 + g) 2 0 (.num n) ∧
      ((e.dueApply (0x3110 + g) 2 0 (.num n)).gg g).cmd = some n.toNat ∧ SameRegs [] s.dev e ∧ SameHostRegs [] s.dev e ∧
      SameMotion s.dev e := by
  obtain ⟨hgroup, hty, hcheck, haccept, happly⟩ := glideCommand_accepted hg
  refine (judgedWrite_waits hc ha (by omega) (by omega) (by decide) (by unfold writtenAtOnce; omega) hgroup
    ((congrArg (valueOf · bs) hty).trans hv) (fun d ht => ?_) (haccept · n)).mono fun e he => ?_
  · rw [hcheck d n, ht.glideCmdCheck, hok]
  · obtain ⟨hdue, hregs, hhost, hmot⟩ := he
    refine ⟨hdue, ?_, hregs, hhost, hmot⟩
    rw [happly e n, Dev.gg_modGg_same]

/-! ### The line engine alone -/

/-- From `d` to `e` the line engine becomes `l`; the elements of the field die outside `xs`, those of the host die, and the
rest of the motion side are as they were. -/
def LineSet (xs : List (Nat × Nat)) (l : LineSt) (d e : Dev) : Prop :=
  e.line = l ∧ SameRegs xs d e ∧ e.segs = d.segs ∧ e.eng = d.eng ∧ e.gov = d.gov ∧ e.prof = d.prof ∧ e.safe = d.safe ∧
    e.fb = d.fb ∧ SameHostRegs [] d e

/-- A frame over the device with its line engine already set. -/
theorem Keeps.lineSet {xs : List (Nat × Nat)} {l : LineSt} {d e : Dev} (h : Keeps xs [] { d with line := l } e) :
    LineSet xs l d e := by
  obtain ⟨hsegs, heng, hgov, hline, hprof, hsafe, hfb⟩ := h.motion
  exact ⟨hline, h.regs, hsegs, heng, hgov, hprof, hsafe, hfb, h.hostRegs⟩

/-! ### Exhaustion -/

/-- In Run and Ride-through the first cause of Safe-hold stands until the next boundary (R43). -/
theorem safeHold_first (d : Dev) (ev : Nat) (hm : d.mode = 3 ∨ d.mode = 4) (hc : d.md.cause = none) :
    d.safeHold ev = { d with md := { d.md with cause := some ev } } := by
  have runs : (d.mode == 3 || d.mode == 4) = true := by simpa using hm
  simp only [Dev.safeHold, runs, if_true, hc]

/-- A unit noted as exhausted, with event A9h (R339). -/
def Dev.exhaustedAt (d : Dev) (u : Nat) : Dev :=
  (d.setLu u { d.lu u with exhausted := true }).raise 0xA9 (leBytes u 1)

/-- ExhaustTime has passed since the conditions of R339 began, and they hold. -/
theorem glideExhaustAt_due (d : Dev) (u x : Nat) (hx : (d.lu u).exhAt = some x) (hr : d.md.fieldReset = false)
    (he : (d.lu u).exhausted = false) (hg : d.exhausting u = true) (ht : x + d.rn 0x3060 5 u * ms ≤ d.now) :
    glideExhaustAt u d = (d.exhaustedAt u).safeHold 0xA9 := by
  simp only [glideExhaustAt, hx]
  exact if_neg (by simp [hr, he, hg, ht])

theorem exhaustedAt_mode (d : Dev) (u : Nat) : (d.exhaustedAt u).mode = d.mode :=
  Dev.rn_eq_of_rd (Dev.rd_raise _ 0xA9 _ 0x30 1 0 (by decide) (by decide) (by decide))

theorem exhaustedAt_md (d : Dev) (u : Nat) : (d.exhaustedAt u).md = d.md := Dev.raise_md _ 0xA9 _

/-- The exhaustion of a unit in Run or Ride-through (R339, R43). -/
theorem glideExhaustAt_safeHold (d : Dev) (u x : Nat) (hx : (d.lu u).exhAt = some x) (hr : d.md.fieldReset = false)
    (he : (d.lu u).exhausted = false) (hg : d.exhausting u = true) (ht : x + d.rn 0x3060 5 u * ms ≤ d.now)
    (hm : d.mode = 3 ∨ d.mode = 4) (hc : d.md.cause = none) :
    glideExhaustAt u d = { d.exhaustedAt u with md := { d.md with cause := some 0xA9 } } := by
  rw [glideExhaustAt_due d u x hx hr he hg ht,
    safeHold_first _ _ (by rwa [exhaustedAt_mode]) (by rwa [exhaustedAt_md]), exhaustedAt_md]

/-- What the exhaustion of a unit leaves: the unit noted, event A9h, the cause of Safe-hold, the frame. -/
theorem exhaustedAt_leaves (d : Dev) (u : Nat) (hr : d.md.fieldReset = false) :
    LineSet [] (d.setLu u { d.lu u with exhausted := true }).line d
        { d.exhaustedAt u with md := { d.md with cause := some 0xA9 } } ∧
      Raised d { d.exhaustedAt u with md := { d.md with cause := some 0xA9 } } 0xA9 (leBytes u 1) := by
  have noted : (d.exhaustedAt u).md = d.md := exhaustedAt_md d u
  have held : Keeps [] [] (d.exhaustedAt u) { d.exhaustedAt u with md := { d.md with cause := some 0xA9 } } :=
    .setMd _ _ (by rw [noted]) (by rw [noted])
  refine ⟨Keeps.lineSet ((Keeps.raise _ 0xA9 _).trans held), ?_⟩
  exact Keeps.raised (d := d.setLu u { d.lu u with exhausted := true }) (xs := []) (ys := []) (.refl _) hr held.queue

/-! ### Sigma-delta inputs -/

/-- The elements that show which inputs are faulted: Valid and FaultedInputs of both PCCs (R305). -/
def pccElements : List (Nat × Nat) := [(0x3090, 1), (0x3090, 5), (0x3091, 1), (0x3091, 5)]

/-- The same with SigmaDeltaFaults of the first PCC. -/
def stuckElements : List (Nat × Nat) := [(0x3090, 1), (0x3090, 5), (0x3090, 6), (0x3091, 1), (0x3091, 5)]

theorem Keeps.faultBits (d : Dev) : Keeps pccElements [] d d.faultBits :=
  .foldl_mem _ _ (fun _ p hp => by
    have shown : (0x3090 + p, 5) ∈ pccElements ∧ (0x3090 + p, 1) ∈ pccElements := by
      simp only [List.mem_cons, List.not_mem_nil, or_false] at hp
      rcases hp with rfl | rfl <;> decide
    exact (Keeps.wr _ shown.1 (by decide) (by decide)).trans (.wr _ shown.2 (by decide) (by decide))) d

/-- The line engine with input `n` faulted, stuck since `now` (R305). -/
def LineSt.stuck (l : LineSt) (n now : Nat) : LineSt :=
  { l with stuckAt := Tab.put l.stuckAt n now, faulted := n :: l.faulted }

/-- Input `n` stuck, with event A6h, before the PCCs show it (R305). -/
def Dev.stuckInput (d : Dev) (n : Nat) : Dev := { d with line := d.line.stuck n d.now }.raise 0xA6 (leBytes n 1)

/-- The frame of event A6h, over the line engine that holds the input faulted. -/
theorem Keeps.stuckInput (xs : List (Nat × Nat)) (d : Dev) (n : Nat) :
    Keeps xs [] { d with line := d.line.stuck n d.now } (d.stuckInput n) := .raise _ 0xA6 _

/-- An input of the first PCC that sticks is counted there (R305). -/
theorem sdStuckAt_firstPcc (d : Dev) (n : Nat) (hr : d.md.fieldReset = false) (hn : n < 16) (hon : d.rb 0x3080 2 0 = true)
    (hf : d.line.faulted.contains n = false) (hp : d.rn 0x3080 (3 + n) 0 / 16 = 1) :
    sdStuckAt n d = ((d.stuckInput n).inc 0x3090 6 0).faultBits := by
  have role : (d.stuckInput n).rn 0x3080 (3 + n) 0 / 16 = 1 :=
    (congrArg (· / 16) (Dev.rn_eq_of_rd ((Keeps.stuckInput [] d n).regs 0x3080 (3 + n) 0 (by omega) (by decide)
      List.not_mem_nil rfl))).trans hp
  have known : (d.md.fieldReset || decide (16 ≤ n)) = false := by simp [hr, hn]
  have fresh : (!d.rb 0x3080 2 0 || d.line.faulted.contains n) = false := by rw [hon, hf]; rfl
  unfold sdStuckAt
  simp only [known, Bool.false_or, Bool.false_eq_true, if_false]
  refine (if_neg (Bool.eq_false_iff.mp fresh)).trans ?_
  show (if ((d.stuckInput n).rn 0x3080 (3 + n) 0 / 16 == 1 || (d.stuckInput n).rn 0x3080 (3 + n) 0 / 16 == 2) = true then
    (d.stuckInput n).inc (0x308F + (d.stuckInput n).rn 0x3080 (3 + n) 0 / 16) 6 0 else d.stuckInput n).faultBits = _
  rw [role]
  rfl

/-- 16 ms after the last run of one level the input is no longer faulted (R305). -/
theorem sdRecoverAt_due (d : Dev) (n : Nat) (hr : d.md.fieldReset = false)
    (ht : Tab.get d.line.stuckAt n 0 + 16 * ms ≤ d.now) :
    sdRecoverAt n d = { d with line.faulted := d.line.faulted.filter (· != n) }.faultBits :=
  if_neg (by simp [hr, ht])

/-- What a stuck input of the first PCC leaves: the input faulted, event A6h, the count, the frame. -/
theorem stuckInput_shown (d : Dev) (n : Nat) (hr : d.md.fieldReset = false) :
    LineSet stuckElements (d.line.stuck n d.now) d ((d.stuckInput n).inc 0x3090 6 0).faultBits ∧
      Raised d ((d.stuckInput n).inc 0x3090 6 0).faultBits 0xA6 (leBytes n 1) ∧
      ((d.stuckInput n).inc 0x3090 6 0).faultBits.rd 0x3090 6 0 = ((sat32 (d.rn 0x3090 6 0 + 1) : Nat) : Int) := by
  have event := Keeps.stuckInput stuckElements d n
  have counted : Keeps stuckElements [] (d.stuckInput n) ((d.stuckInput n).inc 0x3090 6 0) :=
    .inc (by decide) (by decide) (by decide)
  have shown := Keeps.faultBits ((d.stuckInput n).inc 0x3090 6 0)
  have after := counted.trans (shown.weaken (by decide) (List.Subset.refl _))
  refine ⟨(event.trans after).lineSet, ?_, ?_⟩
  · exact Keeps.raised (d := { d with line := d.line.stuck n d.now }) (xs := []) (ys := []) (.refl _) hr after.queue
  · have before : (d.stuckInput n).rn 0x3090 6 0 = d.rn 0x3090 6 0 :=
      Dev.rn_eq_of_rd (Dev.rd_raise _ 0xA6 _ 0x3090 6 0 (by decide) (by decide) (by decide))
    rw [shown.regs 0x3090 6 0 (by decide) (by decide) (by decide) rfl, Dev.rd_inc_same, before]

/-- Settles O37: the judgements of R312 and R337 on the state before the request, and the line engine alone under the
exhaustion and the faults of inputs. -/
theorem lineAndGlideCommands : Obligations.LineAndGlideCommands := by
  refine ⟨fun s t u req ha hm hs => ?start, fun s t u req ha hlo hhi => ?stop, fun s t u req ha hs hcause => ?resetTrip,
    fun s t g req hg ha hs hm hu => ?resume, fun s t g req hg ha hlo hhi => ?release,
    fun s t u x hr hx he hexh ht hm hc => ?exhausted, fun s t n hr hn hon hf hp => ?stuck, fun s t n hr ht => ?recovered⟩
  case start => exact lineCommand_waits rfl ha rfl (lineCmdCheck_start s.dev u hm hs)
  case stop => exact lineCommand_waits rfl ha rfl (lineCmdCheck_stop s.dev u hlo hhi)
  case resetTrip => exact lineCommand_waits rfl ha rfl (lineCmdCheck_resetTrip s.dev u hs hcause)
  case resume => exact glideCommand_waits hg rfl ha rfl (glideCmdCheck_resume s.dev g hs hm hu)
  case release => exact glideCommand_waits hg rfl ha rfl (glideCmdCheck_release s.dev g hlo hhi)
  case exhausted =>
    refine runsKeep_onDev (f := glideExhaustAt u) rfl ?_
    rw [glideExhaustAt_safeHold (s.dev.advance t) u x hx hr he hexh (Nat.le_trans ht (Nat.le_max_right _ _)) hm hc]
    obtain ⟨⟨hline, hframe⟩, hraised⟩ := exhaustedAt_leaves (s.dev.advance t) u hr
    exact ⟨(Dev.lu_congr hline u).trans (Dev.lu_setLu_same _ u _), rfl, hraised, hframe⟩
  case stuck =>
    refine runsKeep_onDev (f := sdStuckAt n) rfl ?_
    rw [sdStuckAt_firstPcc (s.dev.advance t) n hr hn hon hf hp]
    obtain ⟨⟨hline, hframe⟩, hraised, hcount⟩ := stuckInput_shown (s.dev.advance t) n hr
    exact ⟨congrArg LineSt.faulted hline, hraised, hcount, hframe⟩
  case recovered =>
    refine runsKeep_onDev (f := sdRecoverAt n) rfl ?_
    rw [sdRecoverAt_due (s.dev.advance t) n hr (Nat.le_trans ht (Nat.le_max_right _ _))]
    obtain ⟨hline, hregs, hrest⟩ := (Keeps.faultBits _).lineSet (d := s.dev.advance t)
    exact ⟨congrArg LineSt.faulted hline, rfl, hregs, hrest⟩

end Sys2Proof.Machine
end
